-- ==== Sys2Proof/Word.lean ====
section
/-! DEFINITION. The words of the model. Register contents and packet fields are bit vectors where a command carries them;
a register field is held as a number below two to its width (00, R12, R13). -/
namespace Sys2Proof

/-- A byte. -/
abbrev Byte := BitVec 8

/-- The contents of a register (00, R14). -/
abbrev Word := BitVec 32

/-- A line of 64 bytes, byte 0 in the lowest bits (00, R13). -/
abbrev LineWord := BitVec 512

end Sys2Proof
end

