-- ==== Sys2Proof/Machine/StEngine.lean ====
section
/-! DEFINITION. The state of the engine array beside its registers: the stores of the Boolean
processors, the laps in progress, ports, exchange, batches and trace (02 to 07). -/
namespace Sys2Proof.Machine

/-- One Boolean processor: local result store, capture window, their parity bits and OUT (02, R55,
R71). -/
structure BpSt where
  lrs : BitVec 512 := 0
  lrsPar : BitVec 128 := 0
  cap : BitVec 256 := 0
  capPar : BitVec 64 := 0
  out : Bool := false
  deriving DecidableEq, Repr

/-- Where a lap stands between its start edge and its completion (04, Table 4-1; 06, Table 6-2). -/
inductive LapPhase where
  | started | computing | committed | decided | output
  deriving DecidableEq, Repr

/-- One class of groups that recognise a pace edge at a step edge: pace input, edge selection, divisor,
and the step periods since the pace event before (04, R121, R135). -/
structure PaceKey where
  pin : Nat
  edge : Nat
  div : Nat
  steps : Nat
  deriving DecidableEq, Repr

/-- A lap of one class of a group (04, R112). -/
structure LapSt where
  /-- a lap is in progress (R116) -/
  on : Bool := false
  /-- the step edge of its start, as a number of the model's own -/
  edge : Nat := 0
  phase : LapPhase := .started
  /-- compute step to be executed next -/
  step : Nat := 0
  /-- L of the lap (R141) -/
  len : Nat := 1
  /-- engines k that take part -/
  parts : List Nat := []
  /-- engines k whose lap failed (02, R69) -/
  failed : List Nat := []
  /-- the second run is in progress or has been made (06, R179) -/
  replay : Bool := false
  /-- pairs, by even member, that ended unrecoverable, with the cause (06, R182) -/
  lost : List (Nat × Nat) := []
  /-- even members of pairs in case B of the first run; failed members of pairs in case C (06, R177) -/
  wasB : List Nat := []
  wasC : List Nat := []
  /-- the lap takes its inputs from the pending input buffer (R133) -/
  fromPend : Bool := false
  /-- an overrun was recognised during the lap (07, Table 7-2) -/
  ovr : Bool := false
  /-- an input force applied in the lap (07, Table 7-2) -/
  forced : Bool := false
  /-- EG_LAPSTS.FIRST at the start -/
  first : Bool := false
  /-- send lanes of the 8 engines as carried at the step before (05, R146) -/
  send : List (BitVec 64) := []
  /-- group input bits of the lap (07, R194) -/
  inBits : BitVec 1024 := 0
  /-- gathered group output bits of the lap (04, R115) -/
  outBits : BitVec 1024 := 0
  /-- the lap's lockstep number (05, R163) -/
  lsLap : Nat := 0
  /-- it is the first lockstep lap since the LSSYNC (05, R161) -/
  lsFirst : Bool := false
  /-- record index of a loose lap (07, R195) -/
  recIdx : Nat := 0
  deriving DecidableEq, Repr

/-- The outgoing links of a group at one compute step of a bound lap (05, R148). -/
structure LinkStep where
  edge : Nat
  replay : Bool
  step : Nat
  north : BitVec 64
  east : BitVec 64
  south : BitVec 64
  west : BitVec 64
  deriving DecidableEq, Repr

/-- A word in a lockstep import buffer (05, R161). -/
structure LsWord where
  lap : Nat
  word : Nat
  data : BitVec 64
  deriving DecidableEq, Repr

/-- The debug state of a group (20, R536 to R539). -/
structure HaltSt where
  /-- a halt record exists: the group halts, or is halted -/
  record : Bool := false
  /-- the halt is in effect -/
  halted : Bool := false
  /-- a step is outstanding, for laps of this class: true loose (R539) -/
  step : Option Bool := none
  /-- a release written during the step waits for its lap to complete (R538) -/
  rel : Bool := false
  deriving DecidableEq, Repr

/-- The loose port of a group during a batch (07, R195 to R200). -/
structure BatchSt where
  /-- the batch runs: it has been accepted and has not failed -/
  active : Bool := false
  /-- a record access failed: the loose engines stop when the lap completes (R199) -/
  fail : Bool := false
  /-- loose input buffer: record index and bits (R196) -/
  buf : List (Nat × BitVec 1024) := []
  /-- input record fetched next -/
  fetch : Nat := 0
  /-- loose lap offered next -/
  lap : Nat := 0
  /-- output records not yet acknowledged -/
  out : List Nat := []
  /-- input record reads outstanding -/
  reads : List Nat := []
  deriving DecidableEq, Repr

/-- The trace unit of a group (07, R209 to R213). -/
structure TraceSt where
  /-- words held and not yet written, oldest first (R212) -/
  held : List (BitVec 64) := []
  /-- flit writes not yet counted in WPTR, oldest first: number, length in 8-byte units, acknowledged -/
  sent : List (Nat × Nat × Bool) := []
  /-- number of the next flit write -/
  next : Nat := 0
  /-- offset in 8-byte units at which the next flit is written -/
  pos : Nat := 0
  /-- a record was dropped since the last record written (Table 7-2) -/
  lost : Bool := false
  deriving DecidableEq, Repr

/-- The admission controller of a group beside its registers (17, R478 to R481). -/
structure AdmSt where
  /-- the cost estimate C; none until a loose lap has completed since the start -/
  cost : Option Nat := none
  /-- the estimate charged at the admission of the lap in progress -/
  charged : Nat := 0
  /-- the lap in progress was admitted with FREE = 1 -/
  free : Bool := false
  /-- a loose lap was offered in the epoch (R476) -/
  demand : Bool := false
  /-- a broadcast budget word is on its way to the group (R477) -/
  due : Bool := false
  /-- a body bias change waits to be applied (R488) -/
  bias : Bool := false
  deriving DecidableEq, Repr

/-- One engine group beside its registers. -/
structure GroupSt where
  bound : LapSt := {}
  loose : LapSt := {}
  /-- RUN is 1 and the divider waits for the alignment edge (02, R77) -/
  waiting : Bool := false
  /-- the divisor code in force; none before the first start (02, R77) -/
  rate : Option Nat := none
  /-- GL_OPTIN as sampled at the start (01, R52) -/
  opt : Nat := 0
  /-- group-port input register (04, R113) -/
  inReg : BitVec 1024 := 0
  /-- group-port output register (04, R115) -/
  outReg : BitVec 1024 := 0
  /-- pending input buffer (04, R133), and whether it has been filled -/
  pendBuf : BitVec 1024 := 0
  /-- an overrunning pace event is held; its capture is still due (04, R133) -/
  held : Bool := false
  resync : Bool := false
  /-- loose output buffer (07, R195) -/
  looseReg : BitVec 1024 := 0
  /-- the bound lap count (04, R143) -/
  lapCnt : BitVec 64 := 0
  /-- a pace event has been recognised since the start or release (04, R136) -/
  paced : Bool := false
  /-- EG_PACELATE has been reported since the last pace event (04, R135) -/
  lateDone : Bool := false
  /-- steps of the last bound lap, when it completed without overrun (04, R135) -/
  lastLen : Option Nat := none
  /-- outgoing links of the last steps, newest first (05, R149) -/
  links : List LinkStep := []
  /-- lockstep import buffer (05, R161) -/
  lsBuf : List LsWord := []
  /-- the end of I2 of the lockstep lap in progress has passed (05, R161) -/
  lsPast : Bool := false
  batch : BatchSt := {}
  trace : TraceSt := {}
  /-- a state force applied at the end of the last bound or loose lap (07, Table 7-2) -/
  frcBound : Bool := false
  frcLoose : Bool := false
  /-- the newest snapshot and its lap (07, R202) -/
  snap : BitVec 64 := 0
  snapLap : BitVec 32 := 0
  halt : HaltSt := {}
  adm : AdmSt := {}
  deriving DecidableEq, Repr

/-- The engine array beside its registers. Keys: engine `e`, BP `b`: `e * 128 + b`. -/
structure EngineSt where
  /-- schedule words with check bits, key `(e * 128 + b) * 1024 + w` (02, R55) -/
  sched : List (Nat × BitVec 72) := []
  /-- step control records, key `e * 1024 + i` -/
  ctl : List (Nat × BitVec 512) := []
  /-- commit-map entries, key `(e * 128 + b) * 256 + j` -/
  cmap : List (Nat × BitVec 12) := []
  /-- state-file words with check bits, key `((e * 128 + b) * 2 + bank) * 4 + q` -/
  bank : List (Nat × BitVec 72) := []
  /-- Boolean processors, key `e * 128 + b` -/
  bp : List (Nat × BpSt) := []
  /-- commit signatures, key `e` (06, R174) -/
  sig : List (Nat × BitVec 64) := []
  group : List (Nat × GroupSt) := []
  /-- engines with a detach pending (06, R185) -/
  detPend : List Nat := []
  /-- the number of the next step edge at which laps start -/
  edge : Nat := 0
  /-- a performed SYNC waits for the master's next pace event (05, R163) -/
  lsSync : Bool := false
  /-- the member has sent or received its LSSYNC, and no lockstep lap has started since -/
  lsFresh : Bool := false
  /-- export words gathered in a lockstep lap and not yet packed: member, tag, data (05, R159) -/
  lsWords : List (Nat × Nat × BitVec 64) := []
  /-- lockstep messages on their way into a link port, oldest first: port, payload (05, R158) -/
  lsOut : List (Nat × BitVec 512) := []
  deriving DecidableEq, Repr

end Sys2Proof.Machine
end

