-- ==== Sys2Proof/Machine/StFabric.lean ====
section
/-! DEFINITION. The state of the product-term fabric, the block RAMs, the slices, the sequencers, the
I/O cells, and of the configuration stream and the pouncer, beside their registers (08 to 11). -/
namespace Sys2Proof.Machine

/-- A clock of the fabric: GCLKn, regional tree n of a sector, or the clock term of a macrocell. -/
inductive ClkSrc where
  | gclk (n : Nat)
  | tree (s n : Nat)
  | term (t m : Nat)
  deriving DecidableEq, Repr

/-- An operation as a slice samples it (09, Table 9-8). -/
structure SliceOp where
  acc : Nat := 0
  msel : Bool := false
  neg : Bool := false
  out : Bool := false
  bclr : Bool := false
  x : BitVec 27 := 0
  y : BitVec 27 := 0
  k : BitVec 27 := 0
  /-- effective shift of the operation (R267) -/
  shift : Nat := 0
  deriving DecidableEq, Repr

/-- An arithmetic slice (09, R265 to R270). -/
structure SliceSt where
  acc : BitVec 72 := 0
  z : BitVec 36 := 0
  bexp : BitVec 6 := 35
  zovf : Bool := false
  ovf : Bool := false
  /-- sampled at the last edge; with its term T; with its result in ACC (Table 9-9) -/
  st1 : Option SliceOp := none
  st2 : Option (SliceOp × Int) := none
  st3 : Option SliceOp := none
  deriving DecidableEq, Repr

/-- A request of a master port (08, R245 to R249). -/
structure FmpReq where
  tag : Nat
  wr : Bool
  spec : Bool
  addr : Nat
  len : Nat
  kidx : Nat
  /-- write beats taken so far -/
  beats : List (BitVec 512 × BitVec 64) := []
  /-- refused at acceptance with this code: the beats are discarded (R247) -/
  refused : Option Nat := none
  /-- the request has been handed to the network -/
  asked : Bool := false
  /-- lines answered by a delivered beat -/
  given : Nat := 0
  /-- answers per line not yet delivered: line, code, data, last -/
  rsp : List (Nat × Nat × BitVec 512 × Bool) := []
  /-- late codes not yet delivered: line, code; and whether late answers are still due -/
  late : List (Nat × Nat) := []
  lateDue : Bool := false
  /-- the RSP_LAST beat has been delivered -/
  lastDone : Bool := false
  deriving DecidableEq, Repr

/-- What the fabric's registers carry at one moment: macrocell flip-flops, captured pin values, block
RAM outputs and words, slices, coefficients and the requests of the master ports. -/
structure FabVals where
  /-- flip-flops, key `16 * LB + m` (08, R224) -/
  q : List (Nat × Bool) := []
  /-- values captured by pace-clocked input cells (04, R123) -/
  cap : List (Nat × Bool) := []
  /-- block RAM port outputs before the output register, key `2 * ram + port`: [71:0] DO, [72] SBE,
  [73] DBE (09, R259, R261) -/
  core : List (Nat × BitVec 74) := []
  /-- block RAM output registers (09, R259) -/
  oreg : List (Nat × BitVec 74) := []
  slice : List (Nat × SliceSt) := []
  /-- coefficients, key `32 * slice + k` (09) -/
  coef : List (Nat × BitVec 27) := []
  /-- block RAM words, key `512 * ram + w`: array bits 72w to 72w + 71 (09, R258) -/
  ram : List (Nat × BitVec 72) := []
  /-- outstanding requests of each master port, oldest first, key `4 * sector + port` -/
  port : List (Nat × List FmpReq) := []
  deriving DecidableEq, Repr

/-- What a sequencer hands to a slice of its cluster (09, R272, R273). -/
structure SeqOp where
  opc : Nat := 0
  kaddr : Nat := 0
  bclr : Bool := false
  dshen : Bool := false
  deriving DecidableEq, Repr

/-- A loop in progress (09, R275). -/
structure LoopSt where
  /-- first body word, instructions in the body, iterations left after this one, next index -/
  start : Nat
  len : Nat
  left : Nat
  idx : Nat
  cache : List (BitVec 64) := []
  /-- the body is taken from the cache -/
  cached : Bool := false
  deriving DecidableEq, Repr

/-- A sequencer beside AS_SEQSTS and AS_SEQDSH (09, R271 to R278). -/
structure SeqSt where
  ar : List Nat := [0, 0, 0, 0]
  stride : List Nat := [0, 0, 0, 0]
  loop : Option LoopSt := none
  /-- the next instruction closes a LOCK pair (R276) -/
  lock : Bool := false
  /-- RUN and EN have come to hold, and the start is due (R278) -/
  armed : Bool := false
  /-- the next address lies beyond word 511 -/
  pastEnd : Bool := false
  /-- the second cycle of a JUMP (R273) -/
  stall : Bool := false
  /-- a halt, a step or a stop waits for an instruction boundary (20, R541) -/
  wantHalt : Bool := false
  stepping : Bool := false
  wantStop : Bool := false
  /-- halted in WAIT -/
  inWait : Bool := false
  /-- DSH as it stood before the last edge (R274) -/
  dshPre : Nat := 0
  /-- operations issued to each slice position and not yet sampled: slice edges left, position, operation -/
  issued : List (Nat × Nat × SeqOp) := []
  deriving DecidableEq, Repr

/-- The fabric, the sites and the I/O cells. -/
structure FabricSt where
  /-- configuration memory with check bits, key `64 * F + i` (11, R311, R312) -/
  cfg : List (Nat × BitVec 72) := []
  /-- register values now, and as they stood before the present clock edge -/
  now : FabVals := {}
  pre : FabVals := {}
  /-- array bits that each port has written at the present edge: `2 * ram + port`, lowest bit, mask (09, R260) -/
  wrote : List (Nat × Nat × Nat) := []
  /-- block RAMs whose port B edge of the present moment a window access has taken (09, R263) -/
  taken : List Nat := []
  seq : List (Nat × SeqSt) := []
  /-- I/O cell words in effect, by cell (22, R583) -/
  ioWord : List (Nat × BitVec 128) := []
  /-- cells that sampled GL_OPTIN.PACEDG as 1 when their word took effect (22, R584) -/
  ioOpt : List Nat := []
  /-- launched output data and enable of pace-clocked output cells (04, R123) -/
  ioData : List (Nat × Bool) := []
  ioEn : List (Nat × Bool) := []
  /-- regions whose flip-flops and sites are held by a PARTIAL (10, R299) -/
  regHeld : List Nat := []
  /-- fence codes as sampled when the fences rose, by region (10, R301) -/
  rCode : List (Nat × Nat) := []
  /-- values that wires and slots carried when a hold fence rose -/
  rHold : List (Nat × Bool) := []
  /-- the same for group fences -/
  gCode : List (Nat × Nat) := []
  gHold : List (Nat × BitVec 1024) := []
  deriving DecidableEq, Repr

/-- What the stream controller waits for inside a frame (10). -/
inductive StreamWait where
  | none
  /-- PARTIAL: named groups have not all stopped (R299) -/
  | partialStop
  /-- LOADJLI: the loader is not idle yet, or runs this image (R307) -/
  | loadjli (addr len kidx : Nat) (started : Bool)
  | waiton (mask : Nat)
  | delay (us : Nat)
  /-- REGW: pairs not yet answered, the first outstanding (R288) -/
  | regw (pairs : List (Nat × Nat))
  /-- DATA: the write is outstanding (R287) -/
  | data
  deriving DecidableEq, Repr

/-- The stream controller beside the CF page (10). -/
structure StreamSt where
  /-- bytes in the receive buffer, oldest first (R293); outside RECEIVING, STARTING and WAITSRC at most the
  sync marker seen so far (R282) -/
  buf : List (BitVec 8) := []
  /-- CFG_WAIT_N is driven low for the fill of the buffer (R293) -/
  waitLow : Bool := false
  /-- words were lost while the device was frozen (20, R546) -/
  lostWords : Bool := false
  /-- code of the last verified AUTH, and bytes 0 to 519 of the frames received since (R290) -/
  lastCode : List (BitVec 8) := []
  msg : List (BitVec 8) := []
  /-- a frame that waits for authentication (R291) -/
  pend : Option (List (BitVec 8)) := none
  /-- the stream has acted on a fabric frame, on a LOADJLI, on a CLEAR (R289) -/
  sawFabric : Bool := false
  sawJli : Bool := false
  sawClear : Bool := false
  /-- region and group masks of the partial stream; sectors and cells written -/
  regions : Nat := 0
  groups : Nat := 0
  sectors : List Nat := []
  cells : List Nat := []
  wait : StreamWait := .none
  /-- START is due in these sectors (R298, R302) -/
  toStart : List Nat := []
  /-- device-space source: bytes left to take, next address, key, a line is outstanding (R296) -/
  srcLeft : Nat := 0
  srcAddr : Nat := 0
  srcKidx : Nat := 0
  srcBusy : Bool := false
  /-- this device drives CFG_ERR_N low (R295) -/
  errDrive : Bool := false
  /-- levels of the shared open-drain pins as the other devices leave them -/
  doneIn : Bool := true
  errIn : Bool := false
  deriving DecidableEq, Repr

/-- The lap image loader beside CF_JLSTS (03, R105 to R109). -/
structure LoaderSt where
  /-- sampled address, length in bytes, key index, CHKONLY -/
  addr : Nat := 0
  len : Nat := 0
  kidx : Nat := 0
  chkOnly : Bool := false
  /-- groups set to LOADING, with the STATE they had before (R107) -/
  prior : List (Nat × Nat) := []
  /-- section CRCs found by the check pass -/
  crcs : List Nat := []
  /-- the load was started by a LOADJLI of the stream -/
  byStream : Bool := false
  deriving DecidableEq, Repr

/-- The pouncer beside the SC page (11). -/
structure ScrubSt where
  /-- next engine of the engine scan -/
  engine : Nat := 0
  /-- detached members that wait for a priority scan (R322) -/
  prio : List Nat := []
  /-- the scan in progress is a priority scan -/
  prioScan : Bool := false
  /-- the reload that SC_RLSTS records is to be redone with a rescan (R327, Table 11-5) -/
  redo : Bool := false
  /-- mismatched regions of the reload that are not yet written; those written -/
  todo : List Nat := []
  wrote : List Nat := []
  /-- lines of the signature table read for the scanned engine, and of the master copy for a region -/
  sigs : List (Nat × BitVec 512) := []
  lines : List (Nat × BitVec 512) := []
  /-- a signature read was answered with an error -/
  sigErr : Bool := false
  /-- answers to requests made before the last scan or reload carry another number -/
  gen : Nat := 0
  deriving DecidableEq, Repr

end Sys2Proof.Machine
end

