-- ==== Sys2Proof/Machine/StNet.lean ====
section
/-! DEFINITION. The state of the packet network beside its registers: requests, tags, packets on
their way, and what the units wait for (12). -/
namespace Sys2Proof.Machine

/-- The operations of a request (12, Table 12-4). -/
inductive Op where
  | read | write | regrd | regwr
  deriving DecidableEq, Repr

/-- The units that make requests of their own; each stands behind the bridge that Table 12-1 gives
(12, R331). -/
inductive Asker where
  /-- the host port, for the host's request of that number -/
  | host (n : Nat)
  | debug
  /-- the I2C and SPI management targets -/
  | i2c | spi
  /-- the configuration stream's register write; its source engine; the lap image loader -/
  | cfgWrite | cfgSource | loader
  /-- the pouncer; answers to requests that it has given up carry another number -/
  | pouncer (gen : Nat)
  /-- input and output records of a batch of a group; trace flits of a group -/
  | batchIn (g n : Nat) | batchOut (g n : Nat) | trace (g n : Nat)
  /-- master port p of fabric sector s, for its tag -/
  | fabric (s p tag : Nat)
  /-- scratchpad DMA channel: descriptor fetch, line read, line write -/
  | dmaDesc (ch gen : Nat) | dmaRead (ch gen : Nat) | dmaWrite (ch gen : Nat)
  /-- lane rings: RX line write and TX line read of lane l -/
  | ringRx (l slot gen : Nat) | ringTx (l slot gen : Nat)
  deriving DecidableEq, Repr

/-- One line of a WRITE: its 64 bytes and its byte mask (12, R334). -/
structure Line where
  data : BitVec 512
  mask : BitVec 64
  poison : Bool := false
  deriving DecidableEq, Repr

/-- A request as its unit makes it (12, Table 12-4). -/
structure Req where
  asker : Asker
  op : Op
  addr : Nat
  /-- lines of a READ or WRITE -/
  len : Nat := 1
  /-- REGRD and REGWR of 8 bytes -/
  wide : Bool := false
  peek : Bool := false
  spec : Bool := false
  kidx : Nat := 0
  /-- data of a REGWR -/
  wdata : BitVec 64 := 0
  /-- lines of a WRITE -/
  lines : List Line := []
  /-- first line of the whole request that this part holds (12, R349) -/
  base : Nat := 0
  /-- lines of the whole request -/
  whole : Nat := 1
  deriving DecidableEq, Repr

/-- Packet types (12, Table 12-3). -/
inductive Pt where
  | req | rsp | late | rsvreq | rsvgnt
  deriving DecidableEq, Repr

/-- A packet in the routers (12, R337). `ni` and `tag` are the transaction's requester and tag. -/
structure Packet where
  pt : Pt
  ni : Nat
  tag : Nat
  vc : Nat
  lane : Nat := 0
  /-- the router whose input holds the head flit, or the NI that has taken it -/
  place : Nat
  home : Bool := false
  /-- the direction in which it arrived; none at the router of the sending NI -/
  dir : Option Nat := none
  route : BitVec 48
  /-- the destination NI and bridge of a request -/
  dst : Nat := 0
  bridge : Nat := 0
  /-- the request of a REQ; the route variant of its response; flits of a request that an RSVREQ announces -/
  req : Option Req := none
  rvar : Nat := 0
  flits : Nat := 1
  /-- the request was granted room (R346) -/
  booked : Bool := false
  /-- codes per line, or the code of a register operation -/
  codes : List Nat := []
  /-- read data per line -/
  data : List (BitVec 512) := []
  rdata : BitVec 64 := 0
  /-- the head flit, or some data flit, is poisoned (R357) -/
  poisonHead : Bool := false
  poisoned : List Nat := []
  /-- requests on an old route that must be answered before it leaves (R340) -/
  after : List Nat := []
  deriving DecidableEq, Repr

/-- Upset flits of a packet at a router: words corrected, flits with an uncorrectable word (0 is the head
flit), and whether that word of the head flit is its header (12, R357). -/
structure FlitUpset where
  fixed : Nat := 0
  bad : List Nat := []
  header : Bool := false
  deriving DecidableEq, Repr

/-- Where a part of a request stands at its requesting NI (12, R346, R350, R353). -/
inductive PartSt where
  /-- waits in the bridge -/
  | waiting
  /-- announced by an RSVREQ -/
  | announced
  /-- granted by an RSVGNT -/
  | granted
  /-- sent; its response is outstanding -/
  | sent
  /-- a SPEC read answered by its RSP, whose LATE is outstanding -/
  | late
  /-- timed out, or answered by a STOP_REQ: a lost tag -/
  | lost
  /-- its bridge has been fenced: the response is discarded (R356) -/
  | dropped
  deriving DecidableEq, Repr

/-- A part of a request at its requesting NI (12, R349, R350). -/
structure Flight where
  /-- a number of the model's own -/
  id : Nat
  ni : Nat
  /-- its tag, from its sending on -/
  tag : Option Nat := none
  req : Req
  dstNi : Nat
  bridge : Nat
  st : PartSt := .waiting
  /-- lines of a SPEC read that its RSP has answered with success -/
  ok : List Nat := []
  deriving DecidableEq, Repr

/-- A request that has arrived at its destination NI and has not been performed (12, R347). -/
structure Arrived where
  ni : Nat
  tag : Nat
  req : Req
  dstNi : Nat
  bridge : Nat
  rvar : Nat
  vc : Nat
  /-- the request head flit was poisoned; so were the data flits of these lines -/
  poison : Bool := false
  bad : List Nat := []
  /-- performed, while its answer waits (13, R362; 14) -/
  done : Bool := false
  /-- codes and data of lines that are answered already, and the codes of their verification (14) -/
  codes : List (Nat × Nat) := []
  data : List (Nat × BitVec 512) := []
  late : List (Nat × Nat) := []
  /-- parts admitted under the old owner that an ownership write waits for (13, R362) -/
  after : List Nat := []
  deriving DecidableEq, Repr

/-- The packet network beside its registers. -/
structure NetSt where
  /-- requests that units wish to make, oldest first -/
  want : List Req := []
  flights : List Flight := []
  /-- number of the next part -/
  next : Nat := 0
  packets : List Packet := []
  arrived : List Arrived := []
  /-- RSVREQs taken and not yet granted, oldest first -/
  rsv : List Packet := []
  /-- flits reserved by grants whose request has not arrived: destination NI, VC, requester NI, tag, flits -/
  booked : List (Nat × Nat × Nat × Nat × Nat) := []
  /-- route tables, key `(n - 32) * 256 + i`: bits [47:0] ROUTE, [48] VALID (12, R338) -/
  routes : List (Nat × BitVec 49) := []
  /-- changed entries held back for ordering: NI, index, parts sent on the old route (12, R340) -/
  rteHeld : List (Nat × Nat × List Nat) := []
  deriving DecidableEq, Repr

end Sys2Proof.Machine
end

