-- ==== Sys2Proof/Machine/StLink.lean ====
section
/-! DEFINITION. The state of the lanes, the Phitil Link ports and the host port beside their registers (15). -/
namespace Sys2Proof.Machine

/-- A general lane and its rings (15, R419 to R424). -/
structure LaneSt where
  /-- RX writes outstanding, oldest first: slot, acknowledged -/
  rx : List (Nat × Bool) := []
  /-- LN_RXOVF has been reported and RXDROP not read since -/
  ovf : Bool := false
  /-- TX reads outstanding, oldest first: slot, the line when it has come -/
  tx : List (Nat × Option (BitVec 512)) := []
  /-- the stream line sent last -/
  sent : BitVec 512 := 0
  /-- answers of requests made before the last enable carry another number -/
  rxGen : Nat := 0
  txGen : Nat := 0
  /-- the power state that the transition in progress leads to (R424) -/
  target : Nat := 2
  /-- lock was lost before the next received line (Table 15-6) -/
  mark : Bool := false
  /-- the lane stays idle: its FIR settings exceed 63 (LN_LEQ) -/
  idle : Bool := false
  deriving DecidableEq, Repr

/-- A Phitil Link port (15, R426 to R435). -/
structure PortSt where
  /-- the configuration was accepted at the start, and the port runs -/
  started : Bool := false
  /-- payloads that wait to be sent -/
  queue : List (BitVec 512) := []
  /-- flits sent and not acknowledged, oldest first: SEQ, payload -/
  sent : List (Nat × BitVec 512) := []
  /-- SEQ of the next flit; the last ACKSEQ and LIMIT received -/
  seq : Nat := 0
  acked : Nat := 255
  limit : Nat := 255
  /-- SEQ of the last flit received in order; flits are discarded until the retransmission comes -/
  rseq : Nat := 255
  skip : Bool := false
  /-- replays since ACKSEQ last advanced -/
  replays : Nat := 0
  /-- consecutive valid ANNOUNCE blocks received -/
  ann : Nat := 0
  /-- this end, and the far end, are in Glide -/
  gliding : Bool := false
  farGlide : Bool := false
  /-- a SHED sent and not confirmed -/
  shedding : Bool := false
  /-- CTYPE of the control blocks being sent -/
  ctype : Nat := 0
  /-- flits of a PMP packet that is not complete; packets and messages that have come and not been taken -/
  part : List (BitVec 512) := []
  inbox : List (List (BitVec 512)) := []
  deriving DecidableEq, Repr

/-- A host request on its way (15, R437 to R440). -/
structure HostReq where
  id : Nat
  bar2 : Bool
  write : Bool
  /-- network requests not yet made, in address order -/
  todo : List Req := []
  /-- lines or registers asked for and not answered -/
  out : Nat := 0
  /-- destination bridges of its requests -/
  dests : List (Nat × Nat) := []
  /-- the first failure in address order so far: device address, code; a line failed with ERR_DECODE -/
  err : Option (Nat × Nat) := none
  decode : Bool := false
  /-- read data by device address -/
  got : List (Nat × BitVec 512) := []
  /-- first device address and number of bytes that a read asks for -/
  from_ : Nat := 0
  bytes : Nat := 0
  deriving DecidableEq, Repr

/-- Forms of a host request beside a plain memory request that hits a BAR (15, Table 15-11). -/
inductive HostForm where
  | memory | locked | atomic | io | noBar | poisoned
  deriving DecidableEq, Repr

/-- How the host port answers a request (15, Table 15-11). -/
inductive Cpl where
  | success (data : List (BitVec 8))
  | completerAbort
  | unsupported
  /-- a posted request that ends without a completion -/
  | posted
  deriving DecidableEq, Repr

/-- The host port beside the HP page. -/
structure HostSt where
  next : Nat := 0
  /-- requests received, oldest first -/
  reqs : List HostReq := []
  /-- completions sent, newest first: request, completion -/
  cpls : List (Nat × Cpl) := []
  /-- configuration registers that differ from their reset value, key: register number -/
  cfg : List (Nat × BitVec 32) := []
  /-- MSI-X messages sent, newest first: vector, address, data -/
  msgs : List (Nat × BitVec 64 × BitVec 32) := []
  /-- a Function Level Reset waits for the requests outstanding (R442) -/
  flr : Bool := false
  deriving DecidableEq, Repr

/-- Lanes, ports and the host port. -/
structure LinkSt where
  lane : List (Nat × LaneSt) := []
  port : List (Nat × PortSt) := []
  host : HostSt := {}
  deriving DecidableEq, Repr

end Sys2Proof.Machine
end

