-- ==== Sys2Proof/Machine/StRec.lean ====
section
/-! DEFINITION. The state of the event recorder, the on-chip flash and the serial targets (21). -/
namespace Sys2Proof.Machine

/-- Who writes or reads a register, as far as a rule asks (12, R331; 01, R33). -/
inductive Who where
  | host | debug | jtag | i2c | spi | config | fabric | other
  deriving DecidableEq, Repr

/-- The master class of R331. -/
def Who.cls : Who → Nat
  | .host => 0
  | .debug => 1
  | .jtag => 1
  | .config => 2
  | .i2c => 3
  | .spi => 3
  | .fabric => 5
  | .other => 2

/-- A management target. -/
def Who.mgmt : Who → Bool
  | .i2c => true
  | .spi => true
  | _ => false

/-- Who stands behind a request. -/
def Asker.who : Asker → Who
  | .host _ => .host
  | .debug => .debug
  | .i2c => .i2c
  | .spi => .spi
  | .cfgWrite => .config
  | .cfgSource => .config
  | .loader => .config
  | .fabric _ _ _ => .fabric
  | _ => .other

/-- A record before it is laid out (21, Table 21-4). -/
structure Rec where
  seq : BitVec 32 := 0
  time : BitVec 48 := 0
  code : BitVec 16
  source : BitVec 16
  flags : BitVec 16 := 0
  data : BitVec 64
  deriving DecidableEq, Repr

/-- A flash command in progress (21, R553). -/
structure FlashCmd where
  op : Nat
  addr : Nat
  data : List (BitVec 8) := []
  deriving DecidableEq, Repr

/-- A register access of a serial target (21, R567 to R569). -/
structure SerialSt where
  /-- the register pointer (R567) -/
  ptr : BitVec 32 := 0
  /-- a request is outstanding; whether it is a write -/
  busy : Bool := false
  wr : Bool := false
  /-- a request given up on, whose response is not wanted any more -/
  stale : Bool := false
  /-- the bytes that the target has sent in answer, oldest first -/
  out : List (BitVec 8) := []
  deriving DecidableEq, Repr

/-- The recorder, the flash and the serial targets beside the EV page. -/
structure RecSt where
  /-- flash words with check bits, key address / 8; an erased word is all ones with its check bits -/
  flash : List (Nat × BitVec 72) := []
  /-- physical sector of a logical one where it has moved; spares; erase counts by physical sector -/
  place : List (Nat × Nat) := []
  spares : List Nat := (List.range 16).map (4096 + ·)
  erases : List (Nat × Nat) := []
  /-- sectors that showed a corrected word and wait for their refresh (R555) -/
  refresh : List Nat := []
  /-- a flash command in progress -/
  cmd : Option FlashCmd := none
  /-- records entered and not yet programmed, oldest first (R558) -/
  buf : List Rec := []
  /-- records that arise during the search of R561 -/
  early : List Rec := []
  searching : Bool := false
  time : BitVec 48 := 0
  /-- wraps of TIME since the cold start -/
  wraps : Nat := 0
  /-- by code: records entered and suppressed in the present window (R560) -/
  rate : List (Nat × (Nat × Nat)) := []
  /-- records lost since the last LOST record -/
  lost : Nat := 0
  /-- the class that drew the owner clear nonce; the class that a verified response authorises (R564) -/
  chalBy : Nat := 0
  authBy : Nat := 0
  /-- characters of the last record sent by the UART -/
  uart : List (BitVec 8) := []
  i2c : SerialSt := {}
  spi : SerialSt := {}
  deriving DecidableEq, Repr

end Sys2Proof.Machine
end

