-- ==== Sys2Proof/Syntax.lean ====
section
/-! DEFINITION. The commands of the device: one constructor per row of the table of operations and events. An operand
`w` says who accesses a register; indices that the spec bounds carry their bound. -/
namespace Sys2Proof
open Sys2Proof.Machine

/-- The commands: those with operands, then those without, each in the order of the table. -/
inductive Instr where
  /-- REGISTER_WRITE: A register write (00, R15 to R20; 01, R40 to R53). -/
  | registerWrite (w : Who) (pg : Nat) (off : Nat) (v : BitVec 32)
  /-- RC_READ: A read of a register with RC fields (00, R18; 20, R534). -/
  | rcRead (w : Who) (pg : Nat) (off : Nat) (peek : Bool)
  /-- SPLIT_COUNTER_READ: A read of the low half of a split register (04, R143; 06; 07, R203; 17; 20, R534). -/
  | splitCounterRead (w : Who) (pg : Nat) (off : Nat) (peek : Bool)
  /-- RUN_SET: A write of PG_CTL.RUN = 1 (01, R31, R45; 02, R77; 19, R516). -/
  | runSet (w : Who) (pg : Nat)
  /-- RUN_CLEAR: A write of PG_CTL.RUN = 0 (01, R44). -/
  | runClear (w : Who) (pg : Nat)
  /-- STOP_REQ: A write of PG_CTL.STOP_REQ = 1 (01, R46). -/
  | stopReq (w : Who) (pg : Nat)
  /-- SRST: A write of PG_CTL.SRST = 1 (01, R47). -/
  | srst (w : Who) (pg : Nat)
  /-- CLKEN_CLEAR: A write of PG_CTL.CLKEN = 0 (01, R49; 16, R460). -/
  | clkenClear (w : Who) (pg : Nat)
  /-- CLKEN_SET: A write of PG_CTL.CLKEN = 1 (01, R49; 16, R461, R600). -/
  | clkenSet (w : Who) (pg : Nat)
  /-- ORDERLY_STOP_COMPLETE: The unit of work in progress completes after RUN = 0 (01, R44). -/
  | orderlyStopComplete (pg : Nat)
  /-- FUNCTION_START: A function with RUN = 1 starts when it is idle (01, R45). -/
  | functionStart (pg : Nat)
  /-- FAULT_FORCE: A write to PG_FFRC (19, R510). -/
  | faultForce (w : Who) (pg : Nat) (v : BitVec 32)
  /-- FAULT_STICKY_CLEAR: A write to PG_FSTK (19, R511). -/
  | faultStickyClear (w : Who) (pg : Nat) (v : BitVec 32)
  /-- POWER_ON_REQUEST: A write of PG_PWR.REQ = 0b01 (01, R41, R42; 17, R466, R469). -/
  | powerOnRequest (w : Who) (pg : Nat)
  /-- POWER_OFF_REQUEST: A write of PG_PWR.REQ = 0b00 (01, R41 to R43; 12, R356; 17, R471). -/
  | powerOffRequest (w : Who) (pg : Nat)
  /-- RETENTION_REQUEST: A write of PG_PWR.REQ = 0b10 at a page of domain 78 (13, R373). -/
  | retentionRequest (w : Who) (p : Fin 4)
  /-- POWER_ON_SLOT_TAKEN: A waiting domain takes an on slot (17, R469, R470, R473). -/
  | powerOnSlotTaken (d : Fin 80)
  /-- POWER_ON_COMPLETE: A rising domain reaches the on state (17, R469; 14, R409; 15, R415). -/
  | powerOnComplete (d : Fin 80)
  /-- POWER_OFF_COMPLETE: A falling domain reaches off, or retention (17, R471). -/
  | powerOffComplete (d : Fin 80)
  /-- FENCE_TIMEOUT: A fence has not completed within 100 us (17, R471). -/
  | fenceTimeout (d : Fin 80)
  /-- RAIL_GOOD: A monitor is judged good at a level in mV (17, R464, R466; 18, R492). -/
  | railGood (n : Fin 24) (mv : BitVec 12)
  /-- RAIL_BAD: A monitor becomes bad at a level in mV (17, R464, R467; 18, R491, R504). -/
  | railBad (n : Fin 24) (mv : BitVec 12)
  /-- VCCO_LOSS: The VCCO of a bank is lost (17, R468). -/
  | vccoLoss (b : Fin 20)
  /-- EMULATION_END: An emulated power-off is completed for real (20, R543). -/
  | emulationEnd (d : Fin 80)
  /-- GROUP_START: The alignment edge of a waiting group (02, R77; 01, R54; 04, R141; 06, R170). -/
  | groupStart (g : Fin 64)
  /-- PACE_EDGE: A transition of a pace input, with the levels on the user I/O (04, R123; 22, R602). -/
  | paceEdge (p : Fin 16) (rising : Bool) (held : Bool) (pins : List (Nat × Bool))
  /-- PACE_EVENT: A step edge at which groups recognise pace edges (04, R120, R121, R129, R135). -/
  | paceEvent (ks : List PaceKey)
  /-- RESYNC_CAPTURE: The third step edge after an overrun under RESYNC (04, R133). -/
  | resyncCapture (g : Fin 64)
  /-- PACE_LATE: No pace event came in time (04, R135, R136). -/
  | paceLate (g : Fin 64)
  /-- LAP_INPUT_PHASE: The input phase of a lap (04, R113; 05, R161, R165; 07, R206). -/
  | lapInputPhase (g : Fin 64) (loose : Bool)
  /-- COMPUTE_STEP: A compute step of a lap (02, R56 to R73; 05, R145 to R151). -/
  | computeStep (g : Fin 64) (loose : Bool)
  /-- LAP_COMMIT: The commit phase of a lap up to K2 (04, R114; 06, R174). -/
  | lapCommit (g : Fin 64) (loose : Bool)
  /-- REPLAY_DECISION: The end of K3 (06, R177 to R182). -/
  | replayDecision (g : Fin 64) (loose : Bool)
  /-- LAP_OUTPUT_PHASE: The output phase of a lap (04, R115; 05, R159; 06, R187; 07, R202, R205, R209; 10, R303). -/
  | lapOutputPhase (g : Fin 64) (loose : Bool)
  /-- LAP_COMPLETE: The end of O3; `energy` is that of a loose lap in nJ (04, R112, R133; 06, R185; 17, R480; 20, R539). -/
  | lapComplete (g : Fin 64) (loose : Bool) (energy : Nat)
  /-- LOADER_GO: A write of CF_JLCTL with GO = 1 (03, R106; 10, R307). -/
  | loaderGo (w : Who) (v : BitVec 32)
  /-- LOADER_ABORT: A write of CF_JLCTL with ABORT = 1 (03, R109). -/
  | loaderAbort (w : Who) (v : BitVec 32)
  /-- LOADER_CHECK_PASS_DONE: The check pass is done; `img` is what was read outside the scratchpad (03, R105, R107, R108). -/
  | loaderCheckPassDone (img : List (BitVec 8)) (err : Bool)
  /-- LOADER_WRITE_PASS_DONE: The write pass is done (03, R108, R109). -/
  | loaderWritePassDone (img : List (BitVec 8)) (err : Bool)
  /-- LOCKSTEP_ARM: A write of GL_LSCTL with EN = 1 (05, R163). -/
  | lockstepArm (w : Who) (v : BitVec 32)
  /-- LOCKSTEP_SYNC: A write of GL_LSCTL with SYNC = 1 (05, R163). -/
  | lockstepSync (w : Who) (v : BitVec 32)
  /-- LOCKSTEP_STOP: A write of GL_LSCTL with STOP = 1 (05, R165). -/
  | lockstepStop (w : Who) (v : BitVec 32)
  /-- LOCKSTEP_DISARM: A write of GL_LSCTL with EN = 0 (05, R167). -/
  | lockstepDisarm (w : Who) (v : BitVec 32)
  /-- LSSYNC: The oldest message of a lockstep port, of this type, takes effect (05, R158, R163). -/
  | lssync (p : Fin 16)
  /-- LSDATA: The oldest message of a lockstep port, of this type, takes effect (05, R158, R161, R165). -/
  | lsdata (p : Fin 16)
  /-- LSSTOP: The oldest message of a lockstep port, of this type, takes effect (05, R158, R166). -/
  | lsstop (p : Fin 16)
  /-- PAIR_DETACH: A write of EE_PAIR.DETACH = 1 (06, R185). -/
  | pairDetach (w : Who) (e : Fin 512)
  /-- PAIR_REJOIN: A write of EE_PAIR.REJOIN = 1 (06, R187; 11, R322). -/
  | pairRejoin (w : Who) (e : Fin 512)
  /-- BATCH_ENABLE: A write of EG_LPCTL with EN = 1 (07, R196). -/
  | batchEnable (w : Who) (g : Fin 64) (v : BitVec 32)
  /-- BATCH_DISABLE: A write of EG_LPCTL with EN = 0 (07, R200). -/
  | batchDisable (w : Who) (g : Fin 64) (v : BitVec 32)
  /-- LOOSE_LAP_ADMIT: A step edge of the admission controller (17, R479, R481; 07, R197). -/
  | looseLapAdmit (g : Fin 64)
  /-- BUDGET_WORD: A group receives the budget word (17, R477, R478). -/
  | budgetWord (g : Fin 64)
  /-- TRACE_ENABLE: A write of EG_TRCCTL with EN = 1 (07, R211). -/
  | traceEnable (w : Who) (g : Fin 64) (v : BitVec 32)
  /-- TRACE_DISABLE: A write of EG_TRCCTL with EN = 0 (07, R212). -/
  | traceDisable (w : Who) (g : Fin 64) (v : BitVec 32)
  /-- TRACE_FLUSH: A write of EG_TRCCTL with FLUSH = 1 (07, R212). -/
  | traceFlush (w : Who) (g : Fin 64) (v : BitVec 32)
  /-- TRACE_FLIT_TIMEOUT: A partly filled flit has been held for 4,096 step periods (07, R212). -/
  | traceFlitTimeout (g : Fin 64)
  /-- MACROCELL_CLOCK: An edge of a fabric clock, with the levels on the user I/O; `same` holds for a further edge of the moment before (08, R224 to R227). -/
  | macrocellClock (k : ClkSrc) (rising : Bool) (same : Bool) (pins : List (Nat × Bool))
  /-- FMP_REQUEST: A master port accepts a request at an edge of its clock (08, R245, R247). -/
  | fmpRequest (n : Fin 8) (p : Fin 4) (same : Bool)
  /-- FMP_WRITE_BEAT: A master port takes a write beat (08, R246, R247). -/
  | fmpWriteBeat (n : Fin 8) (p : Fin 4) (same : Bool)
  /-- FMP_RESPONSE_BEAT: A master port delivers a response beat (08, R248). -/
  | fmpResponseBeat (n : Fin 8) (p : Fin 4) (same : Bool)
  /-- FMP_LATE_BEAT: A master port delivers a late beat (08, R249). -/
  | fmpLateBeat (n : Fin 8) (p : Fin 4) (same : Bool)
  /-- BRAM_PORT_ACCESS: An edge of the clock of port A or, with `b`, port B of a block RAM (09, R259 to R262). -/
  | bramPortAccess (n : Fin 2048) (b : Bool) (same : Bool)
  /-- BRAM_WINDOW_ACCESS: A port B edge serves the next line of the window request at place i (09, R263, R264). -/
  | bramWindowAccess (i : Nat) (same : Bool)
  /-- BRAM_WINDOW_TIMEOUT: No usable port B edge came within 1 us (09, R263). -/
  | bramWindowTimeout (i : Nat)
  /-- SLICE_HOLD: An edge at which a slice samples HOLD (09, R265 to R269). -/
  | sliceHold (n : Fin 2048) (same : Bool)
  /-- SLICE_LOAD: An edge at which a slice samples LOAD (09, R265 to R269). -/
  | sliceLoad (n : Fin 2048) (same : Bool)
  /-- SLICE_ACCUM: An edge at which a slice samples ACCUM (09, R265 to R269). -/
  | sliceAccum (n : Fin 2048) (same : Bool)
  /-- SLICE_CASC: An edge at which a slice samples CASC (09, R265 to R269). -/
  | sliceCasc (n : Fin 2048) (same : Bool)
  /-- SLICE_CLEAR: An edge at which a slice samples CLEAR (09, R265 to R269). -/
  | sliceClear (n : Fin 2048) (same : Bool)
  /-- SLICE_LOADY: An edge at which a slice samples LOADY (09, R265 to R269). -/
  | sliceLoady (n : Fin 2048) (same : Bool)
  /-- SLICE_ADDY: An edge at which a slice samples ADDY (09, R265 to R269). -/
  | sliceAddy (n : Fin 2048) (same : Bool)
  /-- SEQ_ENABLE: The start of a sequencer (09, R278). -/
  | seqEnable (q : Fin 128)
  /-- SEQ_NOP: A sequencer issues NOP (09, R272 to R276). -/
  | seqNop (q : Fin 128) (same : Bool)
  /-- SEQ_SLICE: A sequencer issues SLICE (09, R272 to R276). -/
  | seqSlice (q : Fin 128) (same : Bool)
  /-- SEQ_LOOP: A sequencer issues LOOP (09, R272 to R276). -/
  | seqLoop (q : Fin 128) (same : Bool)
  /-- SEQ_JUMP: A sequencer issues JUMP (09, R272 to R276). -/
  | seqJump (q : Fin 128) (same : Bool)
  /-- SEQ_SETAR: A sequencer issues SETAR (09, R272 to R276). -/
  | seqSetar (q : Fin 128) (same : Bool)
  /-- SEQ_WAIT: A sequencer issues WAIT (09, R272 to R276). -/
  | seqWait (q : Fin 128) (same : Bool)
  /-- SEQ_BSCALE: A sequencer issues BSCALE (09, R272 to R276). -/
  | seqBscale (q : Fin 128) (same : Bool)
  /-- SEQ_HALT: A sequencer issues HALT (09, R272 to R276). -/
  | seqHalt (q : Fin 128) (same : Bool)
  /-- SEQ_SETK: A sequencer issues SETK (09, R272 to R276). -/
  | seqSetk (q : Fin 128) (same : Bool)
  /-- SEQ_ILLEGAL: The next instruction of a sequencer is illegal (09, R277). -/
  | seqIllegal (q : Fin 128) (same : Bool)
  /-- CFG_PORT_WORD: The configuration port takes a word (10, R293; 18, R497; 20, R546). -/
  | cfgPortWord (x : BitVec 16)
  /-- AUTH: The AUTH frame at the front of the buffer is taken; `gmask` is the group mask of an image that a released LOADJLI names outside the scratchpad (10, R290, R291). -/
  | auth (gmask : Nat)
  /-- CMD_LOADJLI: LOADJLI; `gmask` is the group mask of an image outside the scratchpad (10, R300, R307). -/
  | cmdLoadjli (gmask : Nat)
  /-- START_SECTOR: START takes effect in a sector; `high`: CFG_DONE has been high for 100 ns (10, R298, R302). -/
  | startSector (n : Fin 8) (high : Bool)
  /-- STREAM_SOURCE_GO: A write of CF_SRCCTL with GO = 1 (10, R296). -/
  | streamSourceGo (w : Who) (v : BitVec 32)
  /-- STREAM_ABORT: A write of CF_CTL with ABORT = 1 (10, R306). -/
  | streamAbort (w : Who) (v : BitVec 32)
  /-- UNIT_REQUEST_ISSUE: The waiting request at place i is presented (12, R348, R349). -/
  | unitRequestIssue (i : Nat)
  /-- REQUEST_INJECT: The part at place i is sent (12, R345, R346, R350). -/
  | requestInject (i : Nat)
  /-- ROUTER_HEAD_FLIT: A router takes the head flit of the packet at place i, with upsets of its flits (12, R337, R355, R357). -/
  | routerHeadFlit (i : Nat) (fixed : Nat) (bad : List Nat) (header : Bool)
  /-- READ: The READ that has arrived at place i reaches its target (12, R335, R347; 01, R30, R34). -/
  | read (i : Nat)
  /-- WRITE: The WRITE that has arrived at place i reaches its target (12, R335, R347; 01, R30, R34). -/
  | write (i : Nat)
  /-- REGRD: The REGRD that has arrived at place i reaches its target (12, R335, R347; 01, R30, R34). -/
  | regrd (i : Nat)
  /-- REGWR: The REGWR that has arrived at place i reaches its target (12, R335, R347; 01, R30, R34). -/
  | regwr (i : Nat)
  /-- RSP: The response at place i is delivered to its unit (12, R336, R349). -/
  | rsp (i : Nat)
  /-- LATE: The LATE at place i reports a verification (12, R352). -/
  | late (i : Nat)
  /-- RSVREQ: The reservation request at place i is taken (12, R346). -/
  | rsvreq (i : Nat)
  /-- RSVGNT: The reservation grant at place i arrives (12, R346). -/
  | rsvgnt (i : Nat)
  /-- ROUTE_WRITE: A write of NC_RTECMD with WR = 1 at NI 32 + n (12, R339, R340). -/
  | routeWrite (w : Who) (n : Fin 32) (index : BitVec 8) (order : Bool)
  /-- ROUTE_READ: A write of NC_RTECMD with RD = 1 at NI 32 + n (12, R340). -/
  | routeRead (w : Who) (n : Fin 32) (index : BitVec 8) (order : Bool)
  /-- FREELOST: A write of NC_MODE with FREELOST = 1 at NI 32 + n (12, R353). -/
  | freelost (w : Who) (n : Fin 32) (v : BitVec 32)
  /-- NI_TIMEOUT: A tag of NI 32 + n times out (12, R353). -/
  | niTimeout (n : Fin 32) (tag : Fin 256)
  /-- BANK_HANDOVER: A write of SP_OWNb (13, R362). -/
  | bankHandover (w : Who) (b : Fin 128) (v : BitVec 32)
  /-- BANK_CLEAR_DONE: The clear of a bank ends (13, R362). -/
  | bankClearDone (b : Fin 128)
  /-- BANK_RETENTION: A bank enters retention (13, R372). -/
  | bankRetention (b : Fin 128)
  /-- BANK_WAKE: A bank leaves retention (13, R372, R373). -/
  | bankWake (b : Fin 128)
  /-- SP_CE_WRITEBACK: A corrected word is written back (13, R365). -/
  | spCeWriteback (word : Fin 4194304)
  /-- DMA_GO: A write of SP_DMACTLn with GO = 1 (13, R368). -/
  | dmaGo (w : Who) (ch : Fin 4) (v : BitVec 32)
  /-- KEY_LOAD: LOAD of a slot (14, R387). -/
  | keyLoad (w : Who) (m : Fin 2) (slot : BitVec 8)
  /-- KEY_NEWKEY: NEWKEY of a slot (14, R387). -/
  | keyNewkey (w : Who) (m : Fin 2) (slot : BitVec 8)
  /-- KEY_CLEAR: CLEAR of a slot (14, R387). -/
  | keyClear (w : Who) (m : Fin 2) (slot : BitVec 8)
  /-- KEY_TREEKEY: TREEKEY (14, R387). -/
  | keyTreekey (w : Who) (m : Fin 2)
  /-- KEY_GRPFREE: GRPFREE (14, R394). -/
  | keyGrpfree (w : Who) (m : Fin 2)
  /-- KEY_GRPINIT: GRPINIT (14, R398). -/
  | keyGrpinit (w : Who) (m : Fin 2)
  /-- KEY_RIGHTS_WRITE: A write of the rights of a slot (14, R388). -/
  | keyRightsWrite (w : Who) (m : Fin 2) (slot : BitVec 8) (rights : BitVec 16)
  /-- STATE_SAVE: A write of MC_CTL with SAVE = 1 (14, R408). -/
  | stateSave (w : Who) (m : Fin 2) (v : BitVec 32)
  /-- TREE_INIT: A write of MC_TREECTL.INIT of a port (14, R400). -/
  | treeInit (w : Who) (m : Fin 2) (p : Fin 4)
  /-- REKEY_GO: A write of MC_RKCTL with GO = 1 (14, R404). -/
  | rekeyGo (w : Who) (m : Fin 2) (v : BitVec 32)
  /-- REKEY_LINE: The rekey engine takes the line at its boundary (14, R405 to R407). -/
  | rekeyLine (m : Fin 2)
  /-- BG_REENCRYPT_LINE: A line of a group under re-encryption is taken (14, R393). -/
  | bgReencryptLine (m : Fin 2)
  /-- POISON_CLEAR: A write of 1 to VALID of a poison entry (14, R398). -/
  | poisonClear (w : Who) (m : Fin 2) (n : Fin 16)
  /-- RDATA: The PMP RDATA at the front of a memory port is taken (14, R380, R385, R397, R398). -/
  | rdata (q : Fin 8)
  /-- WACK: The PMP WACK at the front of a memory port is taken (14, R380, R382). -/
  | wack (q : Fin 8)
  /-- INFO: The PMP INFO at the front of a memory port is taken (14, R381). -/
  | info (q : Fin 8)
  /-- PMP_TIMEOUT: A PMP request is not answered in time (14, R382). -/
  | pmpTimeout (q : Fin 8) (tag : Fin 1024)
  /-- QUAD_LOOP_LOCK: A quad loop locks (15, R412). -/
  | quadLoopLock (q : Fin 16)
  /-- LANE_LOCK: A lane gains PCS lock (15, R417). -/
  | laneLock (l : Fin 64)
  /-- LANE_LOCK_LOSS: A lane loses PCS lock (15, R418, R430, R433). -/
  | laneLockLoss (l : Fin 64)
  /-- LANE_POWER_REQUEST: A write of LN_LPWRk.REQ (15, R424). -/
  | lanePowerRequest (w : Who) (l : Fin 64) (r : BitVec 2)
  /-- LANE_POWER_DONE: A lane reaches the requested power state (15, R424). -/
  | lanePowerDone (l : Fin 64)
  /-- RING_ENABLE: A write of RXEN = 1, or TXEN = 1 (15, R419). -/
  | ringEnable (w : Who) (l : Fin 64) (tx : Bool)
  /-- RX_LINE: A stream lane receives a line (15, R421 to R423). -/
  | rxLine (l : Fin 64) (x : BitVec 512)
  /-- PORT_ENABLE: A write of LN_PCTL with EN = 1 (15, R426). -/
  | portEnable (w : Who) (p : Fin 16)
  /-- LINK_FLIT: A flit is received (15, R428, R431, R434, R435). -/
  | linkFlit (p : Fin 16) (f : BitVec 576)
  /-- ACK: A control block ACK is received (15, R429 to R433). -/
  | ack (p : Fin 16) (b : BitVec 64)
  /-- NAK: A control block NAK is received (15, R429 to R433). -/
  | nak (p : Fin 16) (b : BitVec 64)
  /-- ANNOUNCE: A control block ANNOUNCE is received (15, R429 to R433). -/
  | announce (p : Fin 16) (b : BitVec 64)
  /-- GLIDE: A control block GLIDE is received (15, R429 to R433). -/
  | glide (p : Fin 16) (b : BitVec 64)
  /-- SHED: A control block SHED is received (15, R429 to R433). -/
  | shed (p : Fin 16) (b : BitVec 64)
  /-- SHEDACK: A control block SHEDACK is received (15, R429 to R433). -/
  | shedack (p : Fin 16) (b : BitVec 64)
  /-- LINK_REPLAY_TIMEOUT: ACKSEQ has not advanced for 2 us (15, R431). -/
  | linkReplayTimeout (p : Fin 16)
  /-- GLIDE_IDLE_TIMEOUT: An idle port puts its lanes into Glide (15, R432). -/
  | glideIdleTimeout (p : Fin 16)
  /-- REWIDEN: A write of LN_PCTL with REWIDEN = 1 (15, R433). -/
  | rewiden (w : Who) (p : Fin 16) (v : BitVec 32)
  /-- BAR0_REQUEST: A request to BAR0: offset, DWs, byte enables, write data (15, R437, R439, R440). -/
  | bar0Request (form : HostForm) (write : Bool) (off : BitVec 28) (dw : Nat) (be : BitVec 8) (data : BitVec 64)
  /-- BAR2_REQUEST: A request to BAR2: offset, length, write bytes with their enables (15, R438 to R440, R444). -/
  | bar2Request (form : HostForm) (write : Bool) (off : Nat) (len : Nat) (bytes : List (BitVec 8 × Bool))
  /-- MSIX_FORCE: A write to HP_MSIFRCL or HP_MSIFRCH (15, R441). -/
  | msixForce (w : Who) (high : Bool) (v : BitVec 32)
  /-- REFCLK_QUALIFY_COUNT: The main-path delay count ends, with the REFCLK edges of its last 16 MON cycles (16, R448). -/
  | refclkQualifyCount (edges : Nat)
  /-- REFCLK_WINDOW: A window of 4,096 MON cycles ends with a count of REFCLK edges (16, R449, R454, R456). -/
  | refclkWindow (count : Nat)
  /-- LOOP_LOCK: A loop locks: engine, network, fabric 0 and 1, host port (16, R451, R456). -/
  | loopLock (l : Fin 5)
  /-- FPLL_ENABLE: A write of CK_FPLLm with EN = 1 (16, R451, R452). -/
  | fpllEnable (w : Who) (m : Fin 2) (v : BitVec 32)
  /-- FPLL_LOCK_LOSS: A fabric loop loses lock (16, R452). -/
  | fpllLockLoss (m : Fin 2)
  /-- FCLK_SWITCH: A write to CK_FCLKn (16, R453, R458). -/
  | fclkSwitch (w : Who) (n : Fin 8) (v : BitVec 32)
  /-- CLOCK_SWITCH_TIMEOUT: The old clock of a switch gives no edge (16, R459). -/
  | clockSwitchTimeout (n : Fin 9)
  /-- GATE_HANDSHAKE: A block answers the idle handshake (16, R460, R600). -/
  | gateHandshake (pg : Nat)
  /-- GATE_HANDSHAKE_TIMEOUT: No handshake came in time (16, R460). -/
  | gateHandshakeTimeout (pg : Nat)
  /-- EPOCH: An epoch ends, with the energies of its counters and of the loose laps in nJ (17, R475 to R477, R482). -/
  | epoch (energy : List Nat) (loose : List Nat)
  /-- SENSOR_READING: A sensor reading in quarters of a degree (17, R483, R485, R486). -/
  | sensorReading (n : Fin 72) (temp : BitVec 10)
  /-- SENSOR_CALIBRATION: The check of a sensor passes or fails (17, R487). -/
  | sensorCalibration (n : Fin 72) (pass : Bool)
  /-- AGEING_READING: The ageing margin of a group is read (17, R488). -/
  | ageingReading (g : Fin 64) (marg : BitVec 8)
  /-- BIAS_APPLY: A body bias code comes into force (17, R488). -/
  | biasApply (g : Fin 64)
  /-- COLD_START: Monitors 0 and 23 read good: AON begins the cold start with these straps (18, R492 to R494; 21, R561). -/
  | coldStart (dev : BitVec 6) (mode : BitVec 2) (pudc : Bool)
  /-- RESET_N: RESET_N has been low for 1 us, or is high again (18, R498). -/
  | resetN (low : Bool)
  /-- WARM_RESET_REQUEST: A write of GL_RSTCTL with WARM = 1 (18, R501). -/
  | warmResetRequest (w : Who) (v : BitVec 32)
  /-- WARM_RESET_RELEASE: The warm reset is released (18, R498, R499). -/
  | warmResetRelease (dev : BitVec 6) (mode : BitVec 2) (pudc : Bool)
  /-- WATCHDOG_CONTROL: A write to GL_WDCTL (19, R521). -/
  | watchdogControl (w : Who) (v : BitVec 32)
  /-- WATCHDOG_KICK: A write to GL_WDKICK (19, R520). -/
  | watchdogKick (w : Who) (v : BitVec 32)
  /-- BROKEN_PAIR: The rails of a pair stay equal for 4 AON cycles (19, R509). -/
  | brokenPair (pg : Nat) (b : Fin 32)
  /-- FAULT_ACK: A write of FC_ACK.ACK = 1 (19, R513). -/
  | faultAck (w : Who)
  /-- EXTEST: The TAP instruction EXTEST, with the levels of boundary cells 1,440 to 1,491 (20, R526; 22, R593). -/
  | extest (pins : BitVec 52)
  /-- SAMPLE_PRELOAD: The TAP instruction SAMPLE/PRELOAD, with the values shifted in and the levels of boundary cells 1,440 to 1,491 (20, R526; 22, R593). -/
  | samplePreload (cells : BitVec 1492) (pins : BitVec 52)
  /-- DBACC_UPDATE: Update-DR of DBACC (20, R527, R528). -/
  | dbaccUpdate (x : BitVec 45)
  /-- CHALLENGE: A write of DB_AUTHCMD with OP = CHALLENGE (20, R528, R529). -/
  | challenge (w : Who) (level : BitVec 2)
  /-- VERIFY: A write of DB_AUTHCMD with OP = VERIFY (20, R529, R530). -/
  | verify (w : Who)
  /-- DROP: A write of DB_AUTHCMD with OP = DROP (20, R531). -/
  | drop (w : Who)
  /-- DEBUG_REQUEST: A write of DB_CMD with GO = 1 (20, R532, R533). -/
  | debugRequest (w : Who) (v : BitVec 32)
  /-- HALT: A write of DB_HALTL or DB_HALTH (20, R536). -/
  | halt (w : Who) (high : Bool) (v : BitVec 32)
  /-- HALT_EFFECT: A halt takes effect at a step edge (20, R536). -/
  | haltEffect (g : Fin 64)
  /-- RELEASE: A write of DB_RELL or DB_RELH (20, R538). -/
  | release (w : Who) (high : Bool) (v : BitVec 32)
  /-- STEP: A write of DB_STEPL or DB_STEPH (20, R539). -/
  | step (w : Who) (high : Bool) (v : BitVec 32)
  /-- SEQ_DEBUG_HALT: A write of DB_CTL with SEQ = HALT (20, R541). -/
  | seqDebugHalt (w : Who) (v : BitVec 32)
  /-- SEQ_DEBUG_STEP: A write of DB_CTL with SEQ = STEP (20, R541). -/
  | seqDebugStep (w : Who) (v : BitVec 32)
  /-- SEQ_DEBUG_RELEASE: A write of DB_CTL with SEQ = RELEASE (20, R541). -/
  | seqDebugRelease (w : Who) (v : BitVec 32)
  /-- FF_READBACK: A read of DB_FFVAL (20, R548). -/
  | ffReadback (w : Who) (peek : Bool)
  /-- FREEZE_PIN: FREEZE_N has been low for 1 us, or is high again (20, R544). -/
  | freezePin (low : Bool)
  /-- FREEZE_REQUEST: A write of GL_FRZ (20, R544). -/
  | freezeRequest (w : Who) (v : BitVec 32)
  /-- FLASH_READ: A write of EV_FLCMD with OP = READ and GO = 1 (21, R551, R553). -/
  | flashRead (w : Who)
  /-- FLASH_PROGRAM: A write of EV_FLCMD with OP = PROGRAM and GO = 1 (21, R551, R553). -/
  | flashProgram (w : Who)
  /-- FLASH_ERASE: A write of EV_FLCMD with OP = ERASE and GO = 1 (21, R551, R553). -/
  | flashErase (w : Who)
  /-- FLASH_REFRESH: The read-through of a sector (21, R555). -/
  | flashRefresh (sector : Fin 4096)
  /-- SOFTWARE_RECORD: A write of EV_SWCODE (21, R563). -/
  | softwareRecord (w : Who) (code : BitVec 16)
  /-- CLEAR_CHALLENGE: A write of EV_CLRCMD with OP = CHALLENGE (21, R564). -/
  | clearChallenge (w : Who)
  /-- CLEAR_VERIFY: A write of EV_CLRCMD with OP = VERIFY (21, R564). -/
  | clearVerify (w : Who)
  /-- RECORDER_CLEAR: A write of EV_CLRCMD with OP = CLEAR (21, R564, R565). -/
  | recorderClear (w : Who)
  /-- UART_RECORD: The UART sends a record while UART_RX is high (21, R566). -/
  | uartRecord (rx : Bool)
  /-- UART_ENABLE: A write of EV_UARTCTL with EN = 1 (21, R566). -/
  | uartEnable (w : Who) (v : BitVec 32)
  /-- I2C_SET_POINTER: An I2C write of 4 bytes (21, R567). -/
  | i2cSetPointer (off : BitVec 32)
  /-- I2C_REGISTER_WRITE: An I2C write of 8 bytes (21, R567, R569). -/
  | i2cRegisterWrite (off : BitVec 32) (v : BitVec 32)
  /-- I2C_REGISTER_READ: An I2C read takes the register at the pointer; `fresh` begins a transaction (21, R567, R569). -/
  | i2cRegisterRead (fresh : Bool)
  /-- SPI_WRITE: An SPI write frame (21, R568, R569). -/
  | spiWrite (off : BitVec 32) (v : BitVec 32)
  /-- SPI_READ: An SPI read frame (21, R568, R569). -/
  | spiRead (off : BitVec 32)
  /-- HOST_LINK_UP: The link reaches DL_Active (15, R442; 18, R496). -/
  | hostLinkUp (width : BitVec 4) (speed : BitVec 4)
  /-- HOST_CONFIG_REQUEST: A configuration request: Type 1, write, register number, byte enables, data (15, R436, R440). -/
  | hostConfigRequest (type1 : Bool) (write : Bool) (n : BitVec 10) (be : BitVec 4) (data : BitVec 32)
  /-- VCCO_RETURN: The VCCO of a bank is back (17, R468). -/
  | vccoReturn (b : Fin 20)
  /-- CLOCK_SWITCH_DONE: A clock switch completes: FCLK0 to FCLK7, or MAIN (16, R453, R458). -/
  | clockSwitchDone (n : Fin 9)
  /-- PAIR_RAILS_VALID: A broken pair is valid again (19, R509). -/
  | pairRailsValid (pg : Nat) (b : Fin 32)
  /-- ROOT_COPY_VOTE: A copy of the root of a port disagrees at a vote (14, R397, R398). -/
  | rootCopyVote (q : Fin 8) (failed : Bool)
  /-- SYNC_MARKER: A sync marker starts a new stream (10, R282, R294). -/
  | syncMarker
  /-- TILE: The TILE frame at the front of the buffer is taken (10, R283 to R286). -/
  | tile
  /-- SITE: The SITE frame at the front of the buffer is taken (10, R283 to R286). -/
  | site
  /-- BRDATA: The BRDATA frame at the front of the buffer is taken (10, R283 to R286). -/
  | brdata
  /-- IOBANK: The IOBANK frame at the front of the buffer is taken (10, R283 to R286). -/
  | iobank
  /-- DATA: The DATA frame at the front of the buffer is taken (10, R283 to R287). -/
  | data
  /-- REGW: The REGW frame at the front of the buffer is taken (10, R283 to R288). -/
  | regw
  /-- NOP: The NOP frame at the front of the buffer is taken (10, R283). -/
  | nop
  /-- CMD_END: END (10, R298, R302). -/
  | cmdEnd
  /-- CMD_PARTIAL: PARTIAL (10, R299 to R301). -/
  | cmdPartial
  /-- CMD_CLEAR: CLEAR (10, R304, R308). -/
  | cmdClear
  /-- CMD_WAITON: WAITON (10, R289). -/
  | cmdWaiton
  /-- CMD_DELAY: DELAY (10, R289). -/
  | cmdDelay
  /-- DELAY_EXPIRE: The DELAY time has passed (10, R289). -/
  | delayExpire
  /-- WAITON_TIMEOUT: A WAITON has lasted 10 ms (10, R289). -/
  | waitonTimeout
  /-- PARTIAL_TIMEOUT: A named group is not idle within 1 ms (10, R299). -/
  | partialTimeout
  /-- REMOTE_ERROR: CFG_ERR_N is sampled low on two edges (10, R295). -/
  | remoteError
  /-- SCRUB_FRAME: The pouncer scans a frame (11, R312 to R314). -/
  | scrubFrame
  /-- ENGINE_SCAN_START: The scan of the next engine begins (11, R318). -/
  | engineScanStart
  /-- ENGINE_SCAN_COMPLETE: An engine scan ends (11, R320, R322, R323). -/
  | engineScanComplete
  /-- PRIORITY_SCAN_START: The scan of a member detached in case C begins (11, R322). -/
  | priorityScanStart
  /-- RELOAD_COMPLETE: A reload verifies its regions (11, R321, R322, R324). -/
  | reloadComplete
  /-- HEARTBEAT_MISS: A heartbeat is missing (11, R327). -/
  | heartbeatMiss
  /-- TMR_CORRECTION: A triplicated copy is corrected (11, R326). -/
  | tmrCorrection
  /-- PERST: PERST_N is asserted (15, R442, R443). -/
  | perst
  /-- HOT_RESET: A hot reset (15, R442). -/
  | hotReset
  /-- FUNCTION_LEVEL_RESET: A Function Level Reset (15, R442). -/
  | functionLevelReset
  /-- HOST_LINK_DOWN: The link leaves DL_Active (15, R442). -/
  | hostLinkDown
  /-- REFCLK_WAIT_TIMEOUT: REFCLK has not been qualified in time (16, R449). -/
  | refclkWaitTimeout
  /-- REFCLK_LOSS: A loss of REFCLK is detected (16, R454, R455). -/
  | refclkLoss
  /-- ROUTE_RECORD_LOAD: The route record load completes (18, R495). -/
  | routeRecordLoad
  /-- DEVICE_READY: The device reaches READY (18, R492, R503). -/
  | deviceReady
  /-- WATCHDOG_WARN: The count reaches the warning point (19, R520). -/
  | watchdogWarn
  /-- WATCHDOG_EXPIRE: The count reaches 0 (19, R520). -/
  | watchdogExpire
  /-- FAULT_REPORT: The collector processes the next report (19, R512, R516, R518, R519; 21, R558). -/
  | faultReport
  /-- FLTP_WIDTH_EXPIRE: The minimum width of FLTP_N ends (19, R513). -/
  | fltpWidthExpire
  /-- TAP_RESET: TRST_N resets the TAP (20, R526). -/
  | tapReset
  /-- IDCODE: The TAP instruction IDCODE (20, R526). -/
  | idcode
  /-- CLAMP: The TAP instruction CLAMP (20, R526; 22, R593). -/
  | clamp
  /-- HIGHZ: The TAP instruction HIGHZ (20, R526; 22, R593). -/
  | highz
  /-- DBACC: The TAP instruction DBACC (20, R526; 20, R527). -/
  | dbacc
  /-- BYPASS: The TAP instruction BYPASS (20, R526). -/
  | bypass
  /-- FREEZE_BEGIN: The alignment edge A_F (20, R545). -/
  | freezeBegin
  /-- FREEZE_COMPLETE: Every clock outside the island has stopped (20, R545, R546). -/
  | freezeComplete
  /-- THAW: The alignment edge A_T (20, R549). -/
  | thaw
  /-- FLASH_COMMAND_DONE: The flash command in progress completes (21, R553). -/
  | flashCommandDone
  /-- RECORD_PROGRAM: A buffered record is programmed (21, R558, R559). -/
  | recordProgram
  /-- RATE_WINDOW_END: A rate window ends (21, R560). -/
  | rateWindowEnd
  /-- RECORD_SEARCH_DONE: The ring search of a cold start completes (21, R561, R565). -/
  | recordSearchDone
  /-- TIMEWRAP: TIME wraps (21, R561). -/
  | timewrap
  /-- CLEAR_ERASE_DONE: The erasure of the old ring ends (21, R565). -/
  | clearEraseDone
  /-- CLEAR_AUTH_LAPSE: A verified clear authorisation lapses (21, R564). -/
  | clearAuthLapse
  /-- I2C_STRETCH_TIMEOUT: An I2C register access has been outstanding for 1 ms (21, R567). -/
  | i2cStretchTimeout
  /-- I2C_BUS_TIMEOUT: SCL has been low for 25 ms (21, R567). -/
  | i2cBusTimeout
  /-- SPI_TIMEOUT: An SPI register access has been outstanding for 1 ms (21, R568). -/
  | spiTimeout
  /-- PERST_N_RELEASE: PERST_N is deasserted (15, R442). -/
  | perstNRelease
  /-- FLTP_HOLDOFF_EXPIRE: The deasserted time of FLTP_N ends (19, R513). -/
  | fltpHoldoffExpire
  deriving DecidableEq, Repr

end Sys2Proof
end

