-- ==== Sys2Proof/Config.lean ====
section
/-! DEFINITION. What the spec leaves free: values that nothing in the model constrains. Each is applied
to a counter that the state holds and a step advances, so that two uses are independent. -/
namespace Sys2Proof.Config

/-- An open value of up to 64 bits: which one, nothing says (log entry 3). -/
opaque freeWord : Nat → BitVec 64

/-- An open bit: which one, nothing says (log entry 3). -/
opaque freeBit : Nat → Bool

end Sys2Proof.Config
end

