-- ==== Sys2Proof/Machine/Bits.lean ====
section
/-! DEFINITION. Bit and byte helpers, the SEC-DED code of stored words (03, R83, R84), parity groups
and the CRC-32 of records and images (03, R94). -/
namespace Sys2Proof.Machine

/-- The exclusive or of the lowest `n` bits of a number. -/
def xorBits : Nat → Nat → Bool
  | 0, _ => false
  | n + 1, v => (v.testBit n) ^^ xorBits n v

/-- Bits `hi` to `lo` of a number. -/
def bitsOf (v hi lo : Nat) : Nat := (v >>> lo) % 2 ^ (hi + 1 - lo)

/-- A bit as a number. -/
def b2n (b : Bool) : Nat := if b then 1 else 0

/-- The number whose bit `i` is `f i`, over the lowest `n` bits. -/
def ofBits (f : Nat → Bool) : Nat → Nat
  | 0 => 0
  | n + 1 => ofBits f n + (if f n then 2 ^ n else 0)

/-- A number with bits `hi` to `lo` replaced. -/
def setBits (v hi lo x : Nat) : Nat :=
  let w := 2 ^ (hi + 1 - lo)
  v - ((v >>> lo) % w) * 2 ^ lo + (x % w) * 2 ^ lo

/-- A number with one bit replaced. -/
def setBit (v i : Nat) (b : Bool) : Nat := setBits v i i (b2n b)

/-- The positions 1 to 71 that are no powers of two, rising: instruction bit `d` takes the `d`-th
(03, before R83). -/
def dataPositions : List Nat :=
  (List.range 72).filter fun p => !(p == 0 || p == 1 || p == 2 || p == 4 || p == 8 || p == 16 || p == 32 || p == 64)

/-- Check bits C[6:0] of 64 instruction bits (03, R83). -/
def hammingBits (d : Nat) : Nat :=
  ofBits (fun j => (dataPositions.zipIdx).foldl
    (fun a pi => if pi.1.testBit j && d.testBit pi.2 then !a else a) false) 7

/-- The 8 check bits of a word, C[7] on top (03, R83). -/
def checkBits (d : Nat) : Nat :=
  let c := hammingBits d
  c + (if xorBits 64 d ^^ xorBits 7 c then 128 else 0)

/-- The stored 72-bit word of 64 data bits (03, R83). -/
def secded (d : BitVec 64) : BitVec 72 := BitVec.ofNat 72 (d.toNat + checkBits d.toNat * 2 ^ 64)

/-- What a stored word decodes to (03, R84): its data, corrected or not, or an uncorrectable word with
its data bits as stored. -/
inductive Ecc where
  | good (d : BitVec 64)
  | fixed (d : BitVec 64)
  | bad (d : BitVec 64)
  deriving DecidableEq, Repr

/-- Decoding a stored word (03, R84). -/
def eccDecode (w : BitVec 72) : Ecc :=
  let d := w.toNat % 2 ^ 64
  let s := hammingBits d ^^^ bitsOf w.toNat 70 64
  let p := xorBits 72 w.toNat
  if s = 0 then (if p then .fixed (BitVec.ofNat 64 d) else .good (BitVec.ofNat 64 d))
  else if !p then .bad (BitVec.ofNat 64 d)
  else if 71 < s then .bad (BitVec.ofNat 64 d)
  else match dataPositions.idxOf? s with
    | some i => .fixed (BitVec.ofNat 64 (d ^^^ 2 ^ i))
    | none => .fixed (BitVec.ofNat 64 d)

/-- The data bits that a decoding gives. -/
def Ecc.data : Ecc → BitVec 64
  | .good d => d
  | .fixed d => d
  | .bad d => d

/-- The decoding found an uncorrectable error. -/
def Ecc.isBad : Ecc → Bool
  | .bad _ => true
  | _ => false

/-- The decoding corrected a single-bit error. -/
def Ecc.isFixed : Ecc → Bool
  | .fixed _ => true
  | _ => false

/-- One byte into a CRC register: bit-reflected, polynomial `poly` reflected. -/
def crcByte (poly : Nat) (r b : Nat) : Nat :=
  (List.range 8).foldl (fun a _ => if a.testBit 0 then (a >>> 1) ^^^ poly else a >>> 1) (r ^^^ b)

/-- The CRC-32 of bytes in ascending address order (03, R94). -/
def crc32 (bs : List (BitVec 8)) : BitVec 32 :=
  BitVec.ofNat 32 ((bs.foldl (fun r b => crcByte 0xEDB88320 r b.toNat) 0xFFFFFFFF) ^^^ 0xFFFFFFFF)

/-- A number from bytes, the first least significant (00, R13). -/
def leNat : List (BitVec 8) → Nat
  | [] => 0
  | b :: bs => b.toNat + 256 * leNat bs

/-- The `n` bytes of a number, the least significant first (00, R13). -/
def natLe : Nat → Nat → List (BitVec 8)
  | 0, _ => []
  | n + 1, v => BitVec.ofNat 8 v :: natLe n (v / 256)

/-- The bytes `off` to `off + n - 1` of an image as a number. -/
def leAt (bs : List (BitVec 8)) (off n : Nat) : Nat := leNat ((bs.drop off).take n)

/-- The first `k` numbers of `n` bytes each, the lowest byte first; bytes that are missing read 0. -/
def leWords (n : Nat) : Nat → List (BitVec 8) → List Nat
  | 0, _ => []
  | k + 1, bs => leNat (bs.take n) :: leWords n k (bs.drop n)

/-- A count that stops at a limit. -/
def satInc (lim v : Nat) : Nat := if v < lim then v + 1 else lim

/-- A two's-complement reading of the lowest `w` bits. -/
def sgn (w v : Nat) : Int := if v % 2 ^ w < 2 ^ (w - 1) then (v % 2 ^ w : Nat) else (v % 2 ^ w : Nat) - (2 ^ w : Nat)

/-- The lowest `w` bits of an integer. -/
def ofInt (w : Nat) (i : Int) : Nat := (i % (2 ^ w : Nat)).toNat

/-- Rotation of 64 bits to the left (06, R174). -/
def rotl64 (x n : Nat) : Nat := ((x <<< (n % 64)) ||| (x >>> ((64 - n % 64) % 64))) % 2 ^ 64

/-- The numbers below 64 whose bit is set. -/
def setBitsOf (w v : Nat) : List Nat := (List.range w).filter fun i => v.testBit i

/-- A value put in its place in a list in rising order. -/
def insertBy {α : Type} (le : α → α → Bool) (x : α) : List α → List α
  | [] => [x]
  | y :: ys => if le x y then x :: y :: ys else y :: insertBy le x ys

/-- A list in rising order. -/
def sortBy {α : Type} (le : α → α → Bool) : List α → List α
  | [] => []
  | x :: xs => insertBy le x (sortBy le xs)

/-- A fold over the numbers below `n`, rising. -/
def forN {σ : Type} (n : Nat) (s : σ) (f : σ → Nat → σ) : σ := (List.range n).foldl f s

end Sys2Proof.Machine
end

