-- ==== Sys2Proof/Machine/RegMap.lean ====
section
/-! DEFINITION. The register map of the device: every named field of every register page, with its
place, its access type and its reset value, as the register tables of spec/01 to spec/21 give them. -/
namespace Sys2Proof.Machine

/-- The page types of Table 1-6 (01, R40), and the common page header (01). -/
inductive PageKind where
  | pg | gl | ck | pw | fc | ev | db | cf | sc | ncr | nci | mc | ml | ln | hp | sp | fb | br | as | eg | ee
  deriving DecidableEq, Repr

/-- The access types of Table 0-4 (00, R18). -/
inductive Acc where
  | rw | ro | wo | w1c | w1s | rc | rwl
  deriving DecidableEq, Repr

/-- One field of a register: page type, sub-page (255 when every page of the type has it), offset in
the page, highest and lowest bit, number of instances and their stride, access type, reset value. -/
structure Fld where
  kind : PageKind
  sub : Nat
  off : Nat
  hi : Nat
  lo : Nat
  cnt : Nat
  stride : Nat
  acc : Acc
  rst : Nat
  deriving DecidableEq, Repr

/-! Registers of 01_device_organisation.md -/

/-- PG_ID.TYPE [31:20] RO, reset Per page, Table 1-6 (01). -/
def PG_ID_TYPE : Fld := ⟨.pg, 255, 0x0, 31, 20, 1, 0x0, .ro, 0⟩
/-- PG_ID.INST [19:8] RO, reset Per page (01). -/
def PG_ID_INST : Fld := ⟨.pg, 255, 0x0, 19, 8, 1, 0x0, .ro, 0⟩
/-- PG_ID.LAYOUT [7:0] RO, reset 0x01 (01). -/
def PG_ID_LAYOUT : Fld := ⟨.pg, 255, 0x0, 7, 0, 1, 0x0, .ro, 0x01⟩
/-- PG_VER.LEVEL [7:0] RO, reset Per stepping, Table 1-7 (01). -/
def PG_VER_LEVEL : Fld := ⟨.pg, 255, 0x4, 7, 0, 1, 0x0, .ro, 0⟩
/-- PG_CTL.CLKEN [3:3] RW, reset 1 (01). -/
def PG_CTL_CLKEN : Fld := ⟨.pg, 255, 0x8, 3, 3, 1, 0x0, .rw, 1⟩
/-- PG_CTL.SRST [2:2] W1S, self-clearing, reset 0 (01). -/
def PG_CTL_SRST : Fld := ⟨.pg, 255, 0x8, 2, 2, 1, 0x0, .w1s, 0⟩
/-- PG_CTL.STOP_REQ [1:1] W1S, self-clearing, reset 0 (01). -/
def PG_CTL_STOP_REQ : Fld := ⟨.pg, 255, 0x8, 1, 1, 1, 0x0, .w1s, 0⟩
/-- PG_CTL.RUN [0:0] RW, reset 1 for GL, CK, PW, FC, EV, DB, CF, NC and HP pages; 0 for all others (01). -/
def PG_CTL_RUN : Fld := ⟨.pg, 255, 0x8, 0, 0, 1, 0x0, .rw, 0⟩
/-- PG_STS.PWRON [3:3] RO, reset 1 for AON and MAIN pages; 0 for others (01). -/
def PG_STS_PWRON : Fld := ⟨.pg, 255, 0xc, 3, 3, 1, 0x0, .ro, 0⟩
/-- PG_STS.WIGN [2:2] W1C, reset 0 (01). -/
def PG_STS_WIGN : Fld := ⟨.pg, 255, 0xc, 2, 2, 1, 0x0, .w1c, 0⟩
/-- PG_STS.IDLE [1:1] RO, reset 1 (01). -/
def PG_STS_IDLE : Fld := ⟨.pg, 255, 0xc, 1, 1, 1, 0x0, .ro, 1⟩
/-- PG_STS.RUNNING [0:0] RO, reset Equal to RUN (01). -/
def PG_STS_RUNNING : Fld := ⟨.pg, 255, 0xc, 0, 0, 1, 0x0, .ro, 0⟩
/-- PG_FSTK.FSTK [31:0] W1C, reset 0 (01). -/
def PG_FSTK_FSTK : Fld := ⟨.pg, 255, 0x10, 31, 0, 1, 0x0, .w1c, 0⟩
/-- PG_FFRC.FFRC [31:0] W1S, self-clearing, reset 0 (01). -/
def PG_FFRC_FFRC : Fld := ⟨.pg, 255, 0x14, 31, 0, 1, 0x0, .w1s, 0⟩
/-- PG_FCRIT.FCRIT [31:0] RW; RO for C3 sources, reset 1 for C3 sources; 0 for others (01). -/
def PG_FCRIT_FCRIT : Fld := ⟨.pg, 255, 0x18, 31, 0, 1, 0x0, .rw, 0⟩
/-- PG_FEN.FEN [31:0] RW; RO for C3 sources, reset 1 for every assigned bit (01). -/
def PG_FEN_FEN : Fld := ⟨.pg, 255, 0x1c, 31, 0, 1, 0x0, .rw, 0⟩
/-- PG_PWR.DOM [23:16] RO, reset Per page, Table 1-2 (01). -/
def PG_PWR_DOM : Fld := ⟨.pg, 255, 0x20, 23, 16, 1, 0x0, .ro, 0⟩
/-- PG_PWR.EMUL [8:8] RO, reset 0 (01). -/
def PG_PWR_EMUL : Fld := ⟨.pg, 255, 0x20, 8, 8, 1, 0x0, .ro, 0⟩
/-- PG_PWR.STATE [5:4] RO, reset 0b00 for switched domains; 0b01 for AON and MAIN (01). -/
def PG_PWR_STATE : Fld := ⟨.pg, 255, 0x20, 5, 4, 1, 0x0, .ro, 0⟩
/-- PG_PWR.REQ [1:0] RW; RO for AON and MAIN, reset 0b00 for switched domains; 0b01 for AON and MAIN (01). -/
def PG_PWR_REQ : Fld := ⟨.pg, 255, 0x20, 1, 0, 1, 0x0, .rw, 0⟩
/-- GL_OPTIN.OVRSYNC [1:1] RW, reset 0 (01). -/
def GL_OPTIN_OVRSYNC : Fld := ⟨.gl, 255, 0xf0, 1, 1, 1, 0x0, .rw, 0⟩
/-- GL_OPTIN.PACEDG [0:0] RW, reset 0 (01). -/
def GL_OPTIN_PACEDG : Fld := ⟨.gl, 255, 0xf0, 0, 0, 1, 0x0, .rw, 0⟩
/-- GL_WINSEL.GROUP [5:0] RW, reset 0 (01). -/
def GL_WINSEL_GROUP : Fld := ⟨.gl, 255, 0xf4, 5, 0, 1, 0x0, .rw, 0⟩
/-- GL_REGACC.FAB [0:0] RW, reset 0 (01). -/
def GL_REGACC_FAB : Fld := ⟨.gl, 255, 0xf8, 0, 0, 1, 0x0, .rw, 0⟩
/-! Registers of 02_boolean_processors_and_engines.md -/

/-- EE_BANK.CUR [0:0] RO, reset 0 (02). -/
def EE_BANK_CUR : Fld := ⟨.ee, 255, 0x100, 0, 0, 1, 0x0, .ro, 0⟩
/-- EG_GEOM.ENG0 [16:8] RO, reset 8 × g (02). -/
def EG_GEOM_ENG0 : Fld := ⟨.eg, 255, 0x104, 16, 8, 1, 0x0, .ro, 0⟩
/-- EG_GEOM.ROW [6:4] RO, reset g / 8 (02). -/
def EG_GEOM_ROW : Fld := ⟨.eg, 255, 0x104, 6, 4, 1, 0x0, .ro, 0⟩
/-- EG_GEOM.COL [2:0] RO, reset g mod 8 (02). -/
def EG_GEOM_COL : Fld := ⟨.eg, 255, 0x104, 2, 0, 1, 0x0, .ro, 0⟩
/-- EG_STEPCLK.LOCKED [16:16] RO, reset 0 (02). -/
def EG_STEPCLK_LOCKED : Fld := ⟨.eg, 255, 0x100, 16, 16, 1, 0x0, .ro, 0⟩
/-- EG_STEPCLK.DIV [3:0] RWL, reset 0x0 (02). -/
def EG_STEPCLK_DIV : Fld := ⟨.eg, 255, 0x100, 3, 0, 1, 0x0, .rwl, 0x0⟩
/-! Registers of 03_schedule_and_lap_image.md -/

/-- CF_JLADDR.ADDR [31:3] RW, reset 0 (03). -/
def CF_JLADDR_ADDR : Fld := ⟨.cf, 255, 0x400, 31, 3, 1, 0x0, .rw, 0⟩
/-- CF_JLADDRH.ADDR [11:0] RW, reset 0 (03). -/
def CF_JLADDRH_ADDR : Fld := ⟨.cf, 255, 0x404, 11, 0, 1, 0x0, .rw, 0⟩
/-- CF_JLLEN.LEN [31:0] RW, reset 0 (03). -/
def CF_JLLEN_LEN : Fld := ⟨.cf, 255, 0x408, 31, 0, 1, 0x0, .rw, 0⟩
/-- CF_JLCTL.KIDX [15:8] RW, reset 0 (03). -/
def CF_JLCTL_KIDX : Fld := ⟨.cf, 255, 0x40c, 15, 8, 1, 0x0, .rw, 0⟩
/-- CF_JLCTL.ABORT [2:2] W1S, self-clearing, reset 0 (03). -/
def CF_JLCTL_ABORT : Fld := ⟨.cf, 255, 0x40c, 2, 2, 1, 0x0, .w1s, 0⟩
/-- CF_JLCTL.CHKONLY [1:1] RW, reset 0 (03). -/
def CF_JLCTL_CHKONLY : Fld := ⟨.cf, 255, 0x40c, 1, 1, 1, 0x0, .rw, 0⟩
/-- CF_JLCTL.GO [0:0] W1S, self-clearing, reset 0 (03). -/
def CF_JLCTL_GO : Fld := ⟨.cf, 255, 0x40c, 0, 0, 1, 0x0, .w1s, 0⟩
/-- CF_JLSTS.UNITS [31:16] RO, reset 0 (03). -/
def CF_JLSTS_UNITS : Fld := ⟨.cf, 255, 0x410, 31, 16, 1, 0x0, .ro, 0⟩
/-- CF_JLSTS.REJ [9:9] W1C, reset 0 (03). -/
def CF_JLSTS_REJ : Fld := ⟨.cf, 255, 0x410, 9, 9, 1, 0x0, .w1c, 0⟩
/-- CF_JLSTS.DONE [8:8] W1C, reset 0 (03). -/
def CF_JLSTS_DONE : Fld := ⟨.cf, 255, 0x410, 8, 8, 1, 0x0, .w1c, 0⟩
/-- CF_JLSTS.PHASE [1:0] RO, reset 0b00 (03). -/
def CF_JLSTS_PHASE : Fld := ⟨.cf, 255, 0x410, 1, 0, 1, 0x0, .ro, 0b00⟩
/-- CF_JLCODE.CODE [7:0] RO, reset 0x00 (03). -/
def CF_JLCODE_CODE : Fld := ⟨.cf, 255, 0x414, 7, 0, 1, 0x0, .ro, 0x00⟩
/-- CF_JLOFFS.OFFS [31:0] RO, reset 0 (03). -/
def CF_JLOFFS_OFFS : Fld := ⟨.cf, 255, 0x418, 31, 0, 1, 0x0, .ro, 0⟩
/-- CF_JLWHERE.VALID [26:26] RO, reset 0 (03). -/
def CF_JLWHERE_VALID : Fld := ⟨.cf, 255, 0x41c, 26, 26, 1, 0x0, .ro, 0⟩
/-- CF_JLWHERE.INDEX [25:16] RO, reset 0 (03). -/
def CF_JLWHERE_INDEX : Fld := ⟨.cf, 255, 0x41c, 25, 16, 1, 0x0, .ro, 0⟩
/-- CF_JLWHERE.BP [15:9] RO, reset 0 (03). -/
def CF_JLWHERE_BP : Fld := ⟨.cf, 255, 0x41c, 15, 9, 1, 0x0, .ro, 0⟩
/-- CF_JLWHERE.ENG [8:6] RO, reset 0 (03). -/
def CF_JLWHERE_ENG : Fld := ⟨.cf, 255, 0x41c, 8, 6, 1, 0x0, .ro, 0⟩
/-- CF_JLWHERE.GROUP [5:0] RO, reset 0 (03). -/
def CF_JLWHERE_GROUP : Fld := ⟨.cf, 255, 0x41c, 5, 0, 1, 0x0, .ro, 0⟩
/-- EG_LDSTS.STATE [1:0] RO, reset 0b00 (03). -/
def EG_LDSTS_STATE : Fld := ⟨.eg, 255, 0x108, 1, 0, 1, 0x0, .ro, 0b00⟩
/-- EG_IMGID.IMGID [31:0] RO, reset 0 (03). -/
def EG_IMGID_IMGID : Fld := ⟨.eg, 255, 0x10c, 31, 0, 1, 0x0, .ro, 0⟩
/-! Registers of 04_laps_and_pacing.md -/

/-- EE_LAPCTL.CLASS [16:16] RWL, reset 0 (04). -/
def EE_LAPCTL_CLASS : Fld := ⟨.ee, 255, 0x40, 16, 16, 1, 0x0, .rwl, 0⟩
/-- EE_LAPCTL.LCOUNT [9:0] RWL, reset 0x000 (04). -/
def EE_LAPCTL_LCOUNT : Fld := ⟨.ee, 255, 0x40, 9, 0, 1, 0x0, .rwl, 0x000⟩
/-- EG_PACE.OVRPOL [11:8] RWL, reset 0x0 (04). -/
def EG_PACE_OVRPOL : Fld := ⟨.eg, 255, 0x110, 11, 8, 1, 0x0, .rwl, 0x0⟩
/-- EG_PACE.EDGE [7:4] RWL, reset 0x0 (04). -/
def EG_PACE_EDGE : Fld := ⟨.eg, 255, 0x110, 7, 4, 1, 0x0, .rwl, 0x0⟩
/-- EG_PACE.PIN [3:0] RWL, reset 0x0 (04). -/
def EG_PACE_PIN : Fld := ⟨.eg, 255, 0x110, 3, 0, 1, 0x0, .rwl, 0x0⟩
/-- EG_DLEARLY.EARLY [23:0] RWL, reset 0x00_0000 (04). -/
def EG_DLEARLY_EARLY : Fld := ⟨.eg, 255, 0x114, 23, 0, 1, 0x0, .rwl, 0x000000⟩
/-- EG_DLLATE.EN [31:31] RWL, reset 0 (04). -/
def EG_DLLATE_EN : Fld := ⟨.eg, 255, 0x118, 31, 31, 1, 0x0, .rwl, 0⟩
/-- EG_DLLATE.LATE [23:0] RWL, reset 0xFF_FFFF (04). -/
def EG_DLLATE_LATE : Fld := ⟨.eg, 255, 0x118, 23, 0, 1, 0x0, .rwl, 0xFFFFFF⟩
/-- EG_LAPSTS.OPTMIS [9:9] W1C, reset 0 (04). -/
def EG_LAPSTS_OPTMIS : Fld := ⟨.eg, 255, 0x11c, 9, 9, 1, 0x0, .w1c, 0⟩
/-- EG_LAPSTS.LMIS [8:8] W1C, reset 0 (04). -/
def EG_LAPSTS_LMIS : Fld := ⟨.eg, 255, 0x11c, 8, 8, 1, 0x0, .w1c, 0⟩
/-- EG_LAPSTS.WAIT [2:2] RO, reset 0 (04). -/
def EG_LAPSTS_WAIT : Fld := ⟨.eg, 255, 0x11c, 2, 2, 1, 0x0, .ro, 0⟩
/-- EG_LAPSTS.FIRST [1:1] RO, reset 0 (04). -/
def EG_LAPSTS_FIRST : Fld := ⟨.eg, 255, 0x11c, 1, 1, 1, 0x0, .ro, 0⟩
/-- EG_LAPSTS.PEND [0:0] RO, reset 0 (04). -/
def EG_LAPSTS_PEND : Fld := ⟨.eg, 255, 0x11c, 0, 0, 1, 0x0, .ro, 0⟩
/-- EG_OVRCNT.COUNT [15:0] RC, reset 0x0000 (04). -/
def EG_OVRCNT_COUNT : Fld := ⟨.eg, 255, 0x120, 15, 0, 1, 0x0, .rc, 0x0000⟩
/-- EG_LAPMARGIN.MIN [23:0] RC, reset 0xFF_FFFF (04). -/
def EG_LAPMARGIN_MIN : Fld := ⟨.eg, 255, 0x124, 23, 0, 1, 0x0, .rc, 0xFFFFFF⟩
/-- EG_LAPCNTL.COUNT [31:0] RO, reset 0 (04). -/
def EG_LAPCNTL_COUNT : Fld := ⟨.eg, 255, 0x128, 31, 0, 1, 0x0, .ro, 0⟩
/-- EG_LAPCNTH.COUNT [31:0] RO, reset 0 (04). -/
def EG_LAPCNTH_COUNT : Fld := ⟨.eg, 255, 0x12c, 31, 0, 1, 0x0, .ro, 0⟩
/-! Registers of 05_exchange_and_lockstep.md -/

/-- GL_LSCTL.NMEM [23:20] RW, reset 0x0 (05). -/
def GL_LSCTL_NMEM : Fld := ⟨.gl, 255, 0x200, 23, 20, 1, 0x0, .rw, 0x0⟩
/-- GL_LSCTL.MEMBER [19:16] RW, reset 0x0 (05). -/
def GL_LSCTL_MEMBER : Fld := ⟨.gl, 255, 0x200, 19, 16, 1, 0x0, .rw, 0x0⟩
/-- GL_LSCTL.STOP [3:3] W1S, self-clearing, reset 0 (05). -/
def GL_LSCTL_STOP : Fld := ⟨.gl, 255, 0x200, 3, 3, 1, 0x0, .w1s, 0⟩
/-- GL_LSCTL.SYNC [2:2] W1S, self-clearing, reset 0 (05). -/
def GL_LSCTL_SYNC : Fld := ⟨.gl, 255, 0x200, 2, 2, 1, 0x0, .w1s, 0⟩
/-- GL_LSCTL.MASTER [1:1] RW, reset 0 (05). -/
def GL_LSCTL_MASTER : Fld := ⟨.gl, 255, 0x200, 1, 1, 1, 0x0, .rw, 0⟩
/-- GL_LSCTL.EN [0:0] RW, reset 0 (05). -/
def GL_LSCTL_EN : Fld := ⟨.gl, 255, 0x200, 0, 0, 1, 0x0, .rw, 0⟩
/-- GL_LSLINK.LINK [15:0] RW, reset 0x0000 (05). -/
def GL_LSLINK_LINK : Fld := ⟨.gl, 255, 0x204, 15, 0, 1, 0x0, .rw, 0x0000⟩
/-- GL_LSPORTL.PORT [31:0] RW, reset 0 (05). -/
def GL_LSPORTL_PORT : Fld := ⟨.gl, 255, 0x208, 31, 0, 1, 0x0, .rw, 0⟩
/-- GL_LSPORTH.PORT [31:0] RW, reset 0 (05). -/
def GL_LSPORTH_PORT : Fld := ⟨.gl, 255, 0x20c, 31, 0, 1, 0x0, .rw, 0⟩
/-- GL_LSSTS.ORIG [11:8] RO, reset 0x0 (05). -/
def GL_LSSTS_ORIG : Fld := ⟨.gl, 255, 0x210, 11, 8, 1, 0x0, .ro, 0x0⟩
/-- GL_LSSTS.REMOTE [7:7] RO, reset 0 (05). -/
def GL_LSSTS_REMOTE : Fld := ⟨.gl, 255, 0x210, 7, 7, 1, 0x0, .ro, 0⟩
/-- GL_LSSTS.CAUSE [6:4] RO, reset 0x0 (05). -/
def GL_LSSTS_CAUSE : Fld := ⟨.gl, 255, 0x210, 6, 4, 1, 0x0, .ro, 0x0⟩
/-- GL_LSSTS.STATE [1:0] RO, reset 0b00 (05). -/
def GL_LSSTS_STATE : Fld := ⟨.gl, 255, 0x210, 1, 0, 1, 0x0, .ro, 0b00⟩
/-- GL_LSLAP.LAP [31:0] RO, reset 0 (05). -/
def GL_LSLAP_LAP : Fld := ⟨.gl, 255, 0x214, 31, 0, 1, 0x0, .ro, 0⟩
/-- GL_LSBASE.BASE [31:0] RW, reset 0 (05). -/
def GL_LSBASE_BASE : Fld := ⟨.gl, 255, 0x218, 31, 0, 1, 0x0, .rw, 0⟩
/-- EG_LSRT.EN [31:31] RWL, reset 0 (05). -/
def EG_LSRT_EN : Fld := ⟨.eg, 255, 0x180, 31, 31, 16, 0x4, .rwl, 0⟩
/-- EG_LSRT.DMEM [13:10] RWL, reset 0x0 (05). -/
def EG_LSRT_DMEM : Fld := ⟨.eg, 255, 0x180, 13, 10, 16, 0x4, .rwl, 0x0⟩
/-- EG_LSRT.DGRP [9:4] RWL, reset 0x00 (05). -/
def EG_LSRT_DGRP : Fld := ⟨.eg, 255, 0x180, 9, 4, 16, 0x4, .rwl, 0x00⟩
/-- EG_LSRT.DWORD [3:0] RWL, reset 0x0 (05). -/
def EG_LSRT_DWORD : Fld := ⟨.eg, 255, 0x180, 3, 0, 16, 0x4, .rwl, 0x0⟩
/-- EG_LSIMP.LSG [16:16] RWL, reset 0 (05). -/
def EG_LSIMP_LSG : Fld := ⟨.eg, 255, 0x1c0, 16, 16, 1, 0x0, .rwl, 0⟩
/-- EG_LSIMP.WEN [15:0] RWL, reset 0x0000 (05). -/
def EG_LSIMP_WEN : Fld := ⟨.eg, 255, 0x1c0, 15, 0, 1, 0x0, .rwl, 0x0000⟩
/-- EG_LSSTS.MISS [15:0] RO, reset 0x0000 (05). -/
def EG_LSSTS_MISS : Fld := ⟨.eg, 255, 0x1c4, 15, 0, 1, 0x0, .ro, 0x0000⟩
/-- EG_LSLAPC.LAP [31:0] RO, reset 0 (05). -/
def EG_LSLAPC_LAP : Fld := ⟨.eg, 255, 0x1c8, 31, 0, 1, 0x0, .ro, 0⟩
/-! Registers of 06_pairing_and_replay.md -/

/-- EE_PAIR.JOINPEND [9:9] RO, reset 0 (06). -/
def EE_PAIR_JOINPEND : Fld := ⟨.ee, 255, 0x104, 9, 9, 1, 0x0, .ro, 0⟩
/-- EE_PAIR.DETACHED [8:8] RO, reset 0 (06). -/
def EE_PAIR_DETACHED : Fld := ⟨.ee, 255, 0x104, 8, 8, 1, 0x0, .ro, 0⟩
/-- EE_PAIR.REJOIN [5:5] W1S, self-clearing, reset 0 (06). -/
def EE_PAIR_REJOIN : Fld := ⟨.ee, 255, 0x104, 5, 5, 1, 0x0, .w1s, 0⟩
/-- EE_PAIR.DETACH [4:4] W1S, self-clearing, reset 0 (06). -/
def EE_PAIR_DETACH : Fld := ⟨.ee, 255, 0x104, 4, 4, 1, 0x0, .w1s, 0⟩
/-- EE_PAIR.ROLE [1:0] RWL, reset 0b00 (06). -/
def EE_PAIR_ROLE : Fld := ⟨.ee, 255, 0x104, 1, 0, 1, 0x0, .rwl, 0b00⟩
/-- EE_PAIRSTS.RECOV [8:8] RO, reset 0 (06). -/
def EE_PAIRSTS_RECOV : Fld := ⟨.ee, 255, 0x108, 8, 8, 1, 0x0, .ro, 0⟩
/-- EE_PAIRSTS.CAUSE [2:0] RO, reset 0b000 (06). -/
def EE_PAIRSTS_CAUSE : Fld := ⟨.ee, 255, 0x108, 2, 0, 1, 0x0, .ro, 0b000⟩
/-- EE_SIGL.SIG [31:0] RO, reset 0 (06). -/
def EE_SIGL_SIG : Fld := ⟨.ee, 255, 0x10c, 31, 0, 1, 0x0, .ro, 0⟩
/-- EE_SIGH.SIG [31:0] RO, reset 0 (06). -/
def EE_SIGH_SIG : Fld := ⟨.ee, 255, 0x110, 31, 0, 1, 0x0, .ro, 0⟩
/-- EG_RPLCTL.BEN [0:0] RWL, reset 0 (06). -/
def EG_RPLCTL_BEN : Fld := ⟨.eg, 255, 0x130, 0, 0, 1, 0x0, .rwl, 0⟩
/-- EG_RPLSETL.SET [31:0] RWL, reset 0 (06). -/
def EG_RPLSETL_SET : Fld := ⟨.eg, 255, 0x134, 31, 0, 1, 0x0, .rwl, 0⟩
/-- EG_RPLSETH.SET [31:0] RWL, reset 0 (06). -/
def EG_RPLSETH_SET : Fld := ⟨.eg, 255, 0x138, 31, 0, 1, 0x0, .rwl, 0⟩
/-- EG_LINKPAIR.PAIR [15:0] RWL, reset 0x0000 (06). -/
def EG_LINKPAIR_PAIR : Fld := ⟨.eg, 255, 0x13c, 15, 0, 1, 0x0, .rwl, 0x0000⟩
/-- EG_RPLCNT.LOOSE [31:16] RC, reset 0x0000 (06). -/
def EG_RPLCNT_LOOSE : Fld := ⟨.eg, 255, 0x140, 31, 16, 1, 0x0, .rc, 0x0000⟩
/-- EG_RPLCNT.BOUND [15:0] RC, reset 0x0000 (06). -/
def EG_RPLCNT_BOUND : Fld := ⟨.eg, 255, 0x140, 15, 0, 1, 0x0, .rc, 0x0000⟩
/-- EG_RPLSTS.PMIS [16:16] W1C, reset 0 (06). -/
def EG_RPLSTS_PMIS : Fld := ⟨.eg, 255, 0x144, 16, 16, 1, 0x0, .w1c, 0⟩
/-- EG_RPLSTS.VALID [8:8] RO, reset 0 (06). -/
def EG_RPLSTS_VALID : Fld := ⟨.eg, 255, 0x144, 8, 8, 1, 0x0, .ro, 0⟩
/-- EG_RPLSTS.SRC [5:0] RO, reset 0x00 (06). -/
def EG_RPLSTS_SRC : Fld := ⟨.eg, 255, 0x144, 5, 0, 1, 0x0, .ro, 0x00⟩
/-! Registers of 07_engine_io_and_trace.md -/

/-- EG_LPINL.ADDR [31:7] RW, reset 0 (07). -/
def EG_LPINL_ADDR : Fld := ⟨.eg, 255, 0x150, 31, 7, 1, 0x0, .rw, 0⟩
/-- EG_LPINH.ADDR [11:0] RW, reset 0 (07). -/
def EG_LPINH_ADDR : Fld := ⟨.eg, 255, 0x154, 11, 0, 1, 0x0, .rw, 0⟩
/-- EG_LPOUTL.ADDR [31:7] RW, reset 0 (07). -/
def EG_LPOUTL_ADDR : Fld := ⟨.eg, 255, 0x158, 31, 7, 1, 0x0, .rw, 0⟩
/-- EG_LPOUTH.ADDR [11:0] RW, reset 0 (07). -/
def EG_LPOUTH_ADDR : Fld := ⟨.eg, 255, 0x15c, 11, 0, 1, 0x0, .rw, 0⟩
/-- EG_LPCNT.COUNT [23:0] RW, reset 0x00_0000 (07). -/
def EG_LPCNT_COUNT : Fld := ⟨.eg, 255, 0x160, 23, 0, 1, 0x0, .rw, 0x000000⟩
/-- EG_LPCTL.FIN [31:31] RO, reset 0 (07). -/
def EG_LPCTL_FIN : Fld := ⟨.eg, 255, 0x164, 31, 31, 1, 0x0, .ro, 0⟩
/-- EG_LPCTL.BUSY [30:30] RO, reset 0 (07). -/
def EG_LPCTL_BUSY : Fld := ⟨.eg, 255, 0x164, 30, 30, 1, 0x0, .ro, 0⟩
/-- EG_LPCTL.KIDX [15:8] RW, reset 0 (07). -/
def EG_LPCTL_KIDX : Fld := ⟨.eg, 255, 0x164, 15, 8, 1, 0x0, .rw, 0⟩
/-- EG_LPCTL.EN [0:0] RW, reset 0 (07). -/
def EG_LPCTL_EN : Fld := ⟨.eg, 255, 0x164, 0, 0, 1, 0x0, .rw, 0⟩
/-- EG_LPSTS.ERR [31:24] RO, reset 0x00 (07). -/
def EG_LPSTS_ERR : Fld := ⟨.eg, 255, 0x168, 31, 24, 1, 0x0, .ro, 0x00⟩
/-- EG_LPSTS.DONE [23:0] RO, reset 0x00_0000 (07). -/
def EG_LPSTS_DONE : Fld := ⟨.eg, 255, 0x168, 23, 0, 1, 0x0, .ro, 0x000000⟩
/-- EG_OBSCTL.NEW [8:8] W1C, reset 0 (07). -/
def EG_OBSCTL_NEW : Fld := ⟨.eg, 255, 0x1d0, 8, 8, 1, 0x0, .w1c, 0⟩
/-- EG_OBSCTL.CLASS [4:4] RW, reset 0 (07). -/
def EG_OBSCTL_CLASS : Fld := ⟨.eg, 255, 0x1d0, 4, 4, 1, 0x0, .rw, 0⟩
/-- EG_OBSCTL.MODE [1:0] RW, reset 0b00 (07). -/
def EG_OBSCTL_MODE : Fld := ⟨.eg, 255, 0x1d0, 1, 0, 1, 0x0, .rw, 0b00⟩
/-- EG_OBSVALL.VAL [31:0] RO, reset 0 (07). -/
def EG_OBSVALL_VAL : Fld := ⟨.eg, 255, 0x1d4, 31, 0, 1, 0x0, .ro, 0⟩
/-- EG_OBSVALH.VAL [31:0] RO, reset 0 (07). -/
def EG_OBSVALH_VAL : Fld := ⟨.eg, 255, 0x1d8, 31, 0, 1, 0x0, .ro, 0⟩
/-- EG_OBSLAP.LAP [31:0] RO, reset 0 (07). -/
def EG_OBSLAP_LAP : Fld := ⟨.eg, 255, 0x1dc, 31, 0, 1, 0x0, .ro, 0⟩
/-- EG_OBSSEL.EN [31:31] RW, reset 0 (07). -/
def EG_OBSSEL_EN : Fld := ⟨.eg, 255, 0x200, 31, 31, 64, 0x4, .rw, 0⟩
/-- EG_OBSSEL.SRC [19:19] RW, reset 0 (07). -/
def EG_OBSSEL_SRC : Fld := ⟨.eg, 255, 0x200, 19, 19, 64, 0x4, .rw, 0⟩
/-- EG_OBSSEL.ENG [18:16] RW, reset 0 (07). -/
def EG_OBSSEL_ENG : Fld := ⟨.eg, 255, 0x200, 18, 16, 64, 0x4, .rw, 0⟩
/-- EG_OBSSEL.BP [14:8] RW, reset 0x00 (07). -/
def EG_OBSSEL_BP : Fld := ⟨.eg, 255, 0x200, 14, 8, 64, 0x4, .rw, 0x00⟩
/-- EG_OBSSEL.ENTRY [7:0] RW, reset 0x00 (07). -/
def EG_OBSSEL_ENTRY : Fld := ⟨.eg, 255, 0x200, 7, 0, 64, 0x4, .rw, 0x00⟩
/-- EG_FRCSEL.EN [31:31] RW, reset 0 (07). -/
def EG_FRCSEL_EN : Fld := ⟨.eg, 255, 0x300, 31, 31, 16, 0x4, .rw, 0⟩
/-- EG_FRCSEL.PERSIST [30:30] RW, reset 0 (07). -/
def EG_FRCSEL_PERSIST : Fld := ⟨.eg, 255, 0x300, 30, 30, 16, 0x4, .rw, 0⟩
/-- EG_FRCSEL.VALUE [29:29] RW, reset 0 (07). -/
def EG_FRCSEL_VALUE : Fld := ⟨.eg, 255, 0x300, 29, 29, 16, 0x4, .rw, 0⟩
/-- EG_FRCSEL.KIND [28:28] RW, reset 0 (07). -/
def EG_FRCSEL_KIND : Fld := ⟨.eg, 255, 0x300, 28, 28, 16, 0x4, .rw, 0⟩
/-- EG_FRCSEL.ENG [18:16] RW, reset 0 (07). -/
def EG_FRCSEL_ENG : Fld := ⟨.eg, 255, 0x300, 18, 16, 16, 0x4, .rw, 0⟩
/-- EG_FRCSEL.BP [14:8] RW, reset 0x00 (07). -/
def EG_FRCSEL_BP : Fld := ⟨.eg, 255, 0x300, 14, 8, 16, 0x4, .rw, 0x00⟩
/-- EG_FRCSEL.ENTRY [7:0] RW, reset 0x00 (07). -/
def EG_FRCSEL_ENTRY : Fld := ⟨.eg, 255, 0x300, 7, 0, 16, 0x4, .rw, 0x00⟩
/-- EG_FRCSTS.APPLIED [15:0] RC, reset 0x0000 (07). -/
def EG_FRCSTS_APPLIED : Fld := ⟨.eg, 255, 0x340, 15, 0, 1, 0x0, .rc, 0x0000⟩
/-- EG_TRCCTL.KIDX [15:8] RW, reset 0 (07). -/
def EG_TRCCTL_KIDX : Fld := ⟨.eg, 255, 0x380, 15, 8, 1, 0x0, .rw, 0⟩
/-- EG_TRCCTL.FLUSH [4:4] W1S, self-clearing, reset 0 (07). -/
def EG_TRCCTL_FLUSH : Fld := ⟨.eg, 255, 0x380, 4, 4, 1, 0x0, .w1s, 0⟩
/-- EG_TRCCTL.CLASS [3:3] RW, reset 0 (07). -/
def EG_TRCCTL_CLASS : Fld := ⟨.eg, 255, 0x380, 3, 3, 1, 0x0, .rw, 0⟩
/-- EG_TRCCTL.OBS [2:2] RW, reset 0 (07). -/
def EG_TRCCTL_OBS : Fld := ⟨.eg, 255, 0x380, 2, 2, 1, 0x0, .rw, 0⟩
/-- EG_TRCCTL.WRAP [1:1] RW, reset 0 (07). -/
def EG_TRCCTL_WRAP : Fld := ⟨.eg, 255, 0x380, 1, 1, 1, 0x0, .rw, 0⟩
/-- EG_TRCCTL.EN [0:0] RW, reset 0 (07). -/
def EG_TRCCTL_EN : Fld := ⟨.eg, 255, 0x380, 0, 0, 1, 0x0, .rw, 0⟩
/-- EG_TRCMASK.IN [31:16] RW, reset 0x0000 (07). -/
def EG_TRCMASK_IN : Fld := ⟨.eg, 255, 0x384, 31, 16, 1, 0x0, .rw, 0x0000⟩
/-- EG_TRCMASK.OUT [15:0] RW, reset 0x0000 (07). -/
def EG_TRCMASK_OUT : Fld := ⟨.eg, 255, 0x384, 15, 0, 1, 0x0, .rw, 0x0000⟩
/-- EG_TRCBASEL.ADDR [31:6] RW, reset 0 (07). -/
def EG_TRCBASEL_ADDR : Fld := ⟨.eg, 255, 0x388, 31, 6, 1, 0x0, .rw, 0⟩
/-- EG_TRCBASEH.ADDR [11:0] RW, reset 0 (07). -/
def EG_TRCBASEH_ADDR : Fld := ⟨.eg, 255, 0x38c, 11, 0, 1, 0x0, .rw, 0⟩
/-- EG_TRCSIZE.SIZE [28:0] RW, reset 0 (07). -/
def EG_TRCSIZE_SIZE : Fld := ⟨.eg, 255, 0x390, 28, 0, 1, 0x0, .rw, 0⟩
/-- EG_TRCWPTR.WPTR [31:0] RO, reset 0 (07). -/
def EG_TRCWPTR_WPTR : Fld := ⟨.eg, 255, 0x394, 31, 0, 1, 0x0, .ro, 0⟩
/-- EG_TRCSTS.ERR [31:24] RO, reset 0x00 (07). -/
def EG_TRCSTS_ERR : Fld := ⟨.eg, 255, 0x398, 31, 24, 1, 0x0, .ro, 0x00⟩
/-- EG_TRCSTS.FULL [1:1] RO, reset 0 (07). -/
def EG_TRCSTS_FULL : Fld := ⟨.eg, 255, 0x398, 1, 1, 1, 0x0, .ro, 0⟩
/-- EG_TRCSTS.BUSY [0:0] RO, reset 0 (07). -/
def EG_TRCSTS_BUSY : Fld := ⟨.eg, 255, 0x398, 0, 0, 1, 0x0, .ro, 0⟩
/-- EG_TRCDROP.COUNT [31:0] RC, reset 0 (07). -/
def EG_TRCDROP_COUNT : Fld := ⟨.eg, 255, 0x39c, 31, 0, 1, 0x0, .rc, 0⟩
/-! Registers of 08_product_term_fabric.md -/

/-- FB_STATE.STARTED [0:0] RO, reset 0 (08). -/
def FB_STATE_STARTED : Fld := ⟨.fb, 255, 0x40, 0, 0, 1, 0x0, .ro, 0⟩
/-- FB_GCLKEN.EN [7:0] RW, reset 0xFF (08). -/
def FB_GCLKEN_EN : Fld := ⟨.fb, 255, 0x44, 7, 0, 1, 0x0, .rw, 0xFF⟩
/-- FB_GSRCTL.MASK [11:8] RW, reset 0x0 (08). -/
def FB_GSRCTL_MASK : Fld := ⟨.fb, 255, 0x48, 11, 8, 1, 0x0, .rw, 0x0⟩
/-- FB_GSRCTL.FRC [3:0] RW, reset 0x0 (08). -/
def FB_GSRCTL_FRC : Fld := ⟨.fb, 255, 0x48, 3, 0, 1, 0x0, .rw, 0x0⟩
/-- FB_GSRSTS.DRV [11:8] RO, reset 0x0 (08). -/
def FB_GSRSTS_DRV : Fld := ⟨.fb, 255, 0x4c, 11, 8, 1, 0x0, .ro, 0x0⟩
/-- FB_GSRSTS.TREE [3:0] RO, reset 0x0 (08). -/
def FB_GSRSTS_TREE : Fld := ⟨.fb, 255, 0x4c, 3, 0, 1, 0x0, .ro, 0x0⟩
/-- FB_FMPCTL.MAXOUT [12:8] RWL, reset 0x1F (08). -/
def FB_FMPCTL_MAXOUT : Fld := ⟨.fb, 255, 0x60, 12, 8, 4, 0x10, .rwl, 0x1F⟩
/-- FB_FMPCTL.CKSEL [6:4] RWL, reset 0x0 (08). -/
def FB_FMPCTL_CKSEL : Fld := ⟨.fb, 255, 0x60, 6, 4, 4, 0x10, .rwl, 0x0⟩
/-- FB_FMPCTL.EN [0:0] RWL, reset 0 (08). -/
def FB_FMPCTL_EN : Fld := ⟨.fb, 255, 0x60, 0, 0, 4, 0x10, .rwl, 0⟩
/-- FB_FMPSTS.BUSY [16:16] RO, reset 0 (08). -/
def FB_FMPSTS_BUSY : Fld := ⟨.fb, 255, 0x64, 16, 16, 4, 0x10, .ro, 0⟩
/-- FB_FMPSTS.LASTERR [15:8] RO, reset 0x00 (08). -/
def FB_FMPSTS_LASTERR : Fld := ⟨.fb, 255, 0x64, 15, 8, 4, 0x10, .ro, 0x00⟩
/-- FB_FMPSTS.OUTST [5:0] RO, reset 0 (08). -/
def FB_FMPSTS_OUTST : Fld := ⟨.fb, 255, 0x64, 5, 0, 4, 0x10, .ro, 0⟩
/-- FB_FMPERRC.COUNT [15:0] RC, reset 0x0000 (08). -/
def FB_FMPERRC_COUNT : Fld := ⟨.fb, 255, 0x68, 15, 0, 4, 0x10, .rc, 0x0000⟩
/-! Registers of 09_block_ram_and_arithmetic_slices.md -/

/-- BR_WINCTL.PRIO [0:0] RW, reset 0 (09). -/
def BR_WINCTL_PRIO : Fld := ⟨.br, 255, 0x40, 0, 0, 1, 0x0, .rw, 0⟩
/-- BR_STS.PBLOST [0:0] W1C, reset 0 (09). -/
def BR_STS_PBLOST : Fld := ⟨.br, 255, 0x44, 0, 0, 1, 0x0, .w1c, 0⟩
/-- BR_CESTK.CE [31:0] W1C, reset 0 (09). -/
def BR_CESTK_CE : Fld := ⟨.br, 255, 0x80, 31, 0, 8, 0x4, .w1c, 0⟩
/-- BR_UESTK.UE [31:0] W1C, reset 0 (09). -/
def BR_UESTK_UE : Fld := ⟨.br, 255, 0xa0, 31, 0, 8, 0x4, .w1c, 0⟩
/-- BR_CECNT.COUNT [31:0] RC, reset 0 (09). -/
def BR_CECNT_COUNT : Fld := ⟨.br, 255, 0xc0, 31, 0, 1, 0x0, .rc, 0⟩
/-- AS_OVFSTK.OVF [31:0] W1C, reset 0 (09). -/
def AS_OVFSTK_OVF : Fld := ⟨.as, 255, 0x40, 31, 0, 8, 0x4, .w1c, 0⟩
/-- AS_SEQCTL.START [24:16] RW, reset 0x000 (09). -/
def AS_SEQCTL_START : Fld := ⟨.as, 255, 0x100, 24, 16, 16, 0x10, .rw, 0x000⟩
/-- AS_SEQCTL.EN [0:0] RW, reset 0 (09). -/
def AS_SEQCTL_EN : Fld := ⟨.as, 255, 0x100, 0, 0, 16, 0x10, .rw, 0⟩
/-- AS_SEQSTS.STATE [26:24] RO, reset 0b000 (09). -/
def AS_SEQSTS_STATE : Fld := ⟨.as, 255, 0x104, 26, 24, 16, 0x10, .ro, 0b000⟩
/-- AS_SEQSTS.ERR [19:16] RO, reset 0x0 (09). -/
def AS_SEQSTS_ERR : Fld := ⟨.as, 255, 0x104, 19, 16, 16, 0x10, .ro, 0x0⟩
/-- AS_SEQSTS.PC [8:0] RO, reset 0x000 (09). -/
def AS_SEQSTS_PC : Fld := ⟨.as, 255, 0x104, 8, 0, 16, 0x10, .ro, 0x000⟩
/-- AS_SEQDSH.CEXP [13:8] RO, reset 0 (09). -/
def AS_SEQDSH_CEXP : Fld := ⟨.as, 255, 0x108, 13, 8, 16, 0x10, .ro, 0⟩
/-- AS_SEQDSH.DSH [5:0] RO, reset 0 (09). -/
def AS_SEQDSH_DSH : Fld := ⟨.as, 255, 0x108, 5, 0, 16, 0x10, .ro, 0⟩
/-! Registers of 10_blocking_configuration.md -/

/-- CF_CTL.ABORT [8:8] W1S, self-clearing, reset 0 (10). -/
def CF_CTL_ABORT : Fld := ⟨.cf, 255, 0x40, 8, 8, 1, 0x0, .w1s, 0⟩
/-- CF_CTL.DONESYNC [3:3] RWL, reset S (10). -/
def CF_CTL_DONESYNC : Fld := ⟨.cf, 255, 0x40, 3, 3, 1, 0x0, .rwl, 0⟩
/-- CF_CTL.SRC [1:0] RWL, reset S (10). -/
def CF_CTL_SRC : Fld := ⟨.cf, 255, 0x40, 1, 0, 1, 0x0, .rwl, 0⟩
/-- CF_STS.ERRIN [12:12] RO, reset 0 (10). -/
def CF_STS_ERRIN : Fld := ⟨.cf, 255, 0x44, 12, 12, 1, 0x0, .ro, 0⟩
/-- CF_STS.DONEIN [11:11] RO, reset 0 (10). -/
def CF_STS_DONEIN : Fld := ⟨.cf, 255, 0x44, 11, 11, 1, 0x0, .ro, 0⟩
/-- CF_STS.DONEREL [10:10] RO, reset 0 (10). -/
def CF_STS_DONEREL : Fld := ⟨.cf, 255, 0x44, 10, 10, 1, 0x0, .ro, 0⟩
/-- CF_STS.AUTHOK [9:9] RO, reset 0 (10). -/
def CF_STS_AUTHOK : Fld := ⟨.cf, 255, 0x44, 9, 9, 1, 0x0, .ro, 0⟩
/-- CF_STS.PEND [8:8] RO, reset 0 (10). -/
def CF_STS_PEND : Fld := ⟨.cf, 255, 0x44, 8, 8, 1, 0x0, .ro, 0⟩
/-- CF_STS.PARTIAL [7:7] RO, reset 0 (10). -/
def CF_STS_PARTIAL : Fld := ⟨.cf, 255, 0x44, 7, 7, 1, 0x0, .ro, 0⟩
/-- CF_STS.STATE [2:0] RO, reset 0b000 (10). -/
def CF_STS_STATE : Fld := ⟨.cf, 255, 0x44, 2, 0, 1, 0x0, .ro, 0b000⟩
/-- CF_SEQ.NEXT [15:0] RO, reset 0x0000 (10). -/
def CF_SEQ_NEXT : Fld := ⟨.cf, 255, 0x48, 15, 0, 1, 0x0, .ro, 0x0000⟩
/-- CF_FRCNT.COUNT [31:0] RO, reset 0 (10). -/
def CF_FRCNT_COUNT : Fld := ⟨.cf, 255, 0x4c, 31, 0, 1, 0x0, .ro, 0⟩
/-- CF_SERR.SEQ [31:16] RO, reset 0x0000 (10). -/
def CF_SERR_SEQ : Fld := ⟨.cf, 255, 0x50, 31, 16, 1, 0x0, .ro, 0x0000⟩
/-- CF_SERR.NETERR [15:8] RO, reset 0x00 (10). -/
def CF_SERR_NETERR : Fld := ⟨.cf, 255, 0x50, 15, 8, 1, 0x0, .ro, 0x00⟩
/-- CF_SERR.CODE [7:0] RO, reset 0x00 (10). -/
def CF_SERR_CODE : Fld := ⟨.cf, 255, 0x50, 7, 0, 1, 0x0, .ro, 0x00⟩
/-- CF_SRCADDRL.ADDR [31:3] RW, reset 0 (10). -/
def CF_SRCADDRL_ADDR : Fld := ⟨.cf, 255, 0x54, 31, 3, 1, 0x0, .rw, 0⟩
/-- CF_SRCADDRH.ADDR [11:0] RW, reset 0 (10). -/
def CF_SRCADDRH_ADDR : Fld := ⟨.cf, 255, 0x58, 11, 0, 1, 0x0, .rw, 0⟩
/-- CF_SRCLEN.LEN [31:0] RW, reset 0 (10). -/
def CF_SRCLEN_LEN : Fld := ⟨.cf, 255, 0x5c, 31, 0, 1, 0x0, .rw, 0⟩
/-- CF_SRCCTL.KIDX [15:8] RW, reset 0 (10). -/
def CF_SRCCTL_KIDX : Fld := ⟨.cf, 255, 0x60, 15, 8, 1, 0x0, .rw, 0⟩
/-- CF_SRCCTL.GO [0:0] W1S, self-clearing, reset 0 (10). -/
def CF_SRCCTL_GO : Fld := ⟨.cf, 255, 0x60, 0, 0, 1, 0x0, .w1s, 0⟩
/-- CF_STGL.ADDR [31:9] RW, reset 0 (10). -/
def CF_STGL_ADDR : Fld := ⟨.cf, 255, 0x64, 31, 9, 1, 0x0, .rw, 0⟩
/-- CF_STGH.KIDX [23:16] RW, reset 0 (10). -/
def CF_STGH_KIDX : Fld := ⟨.cf, 255, 0x68, 23, 16, 1, 0x0, .rw, 0⟩
/-- CF_STGH.ADDR [11:0] RW, reset 0 (10). -/
def CF_STGH_ADDR : Fld := ⟨.cf, 255, 0x68, 11, 0, 1, 0x0, .rw, 0⟩
/-- CF_STGSIZE.SIZE [31:0] RW, reset 0 (10). -/
def CF_STGSIZE_SIZE : Fld := ⟨.cf, 255, 0x6c, 31, 0, 1, 0x0, .rw, 0⟩
/-- CF_AUTHCTL.KEYEN [7:4] RO, reset F (10). -/
def CF_AUTHCTL_KEYEN : Fld := ⟨.cf, 255, 0x70, 7, 4, 1, 0x0, .ro, 0⟩
/-- CF_AUTHCTL.REQ [0:0] RO, reset F (10). -/
def CF_AUTHCTL_REQ : Fld := ⟨.cf, 255, 0x70, 0, 0, 1, 0x0, .ro, 0⟩
/-- CF_RFNC.CODE [31:0] RW, reset 0 (10). -/
def CF_RFNC_CODE : Fld := ⟨.cf, 255, 0x100, 31, 0, 8, 0x4, .rw, 0⟩
/-- CF_GFNC.CODE [31:0] RW, reset 0 (10). -/
def CF_GFNC_CODE : Fld := ⟨.cf, 255, 0x120, 31, 0, 4, 0x4, .rw, 0⟩
/-- CF_RFUP.UP [31:0] RO, reset 0 (10). -/
def CF_RFUP_UP : Fld := ⟨.cf, 255, 0x130, 31, 0, 4, 0x4, .ro, 0⟩
/-- CF_GFUPL.UP [31:0] RO, reset 0 (10). -/
def CF_GFUPL_UP : Fld := ⟨.cf, 255, 0x140, 31, 0, 1, 0x0, .ro, 0⟩
/-- CF_GFUPH.UP [31:0] RO, reset 0 (10). -/
def CF_GFUPH_UP : Fld := ⟨.cf, 255, 0x144, 31, 0, 1, 0x0, .ro, 0⟩
/-! Registers of 11_scrubbing.md -/

/-- SC_CTL.FRGAP [23:16] RWL, reset 0x00 (11). -/
def SC_CTL_FRGAP : Fld := ⟨.sc, 255, 0x40, 23, 16, 1, 0x0, .rwl, 0x00⟩
/-- SC_CTL.KIDX [15:8] RWL, reset 0x00 (11). -/
def SC_CTL_KIDX : Fld := ⟨.sc, 255, 0x40, 15, 8, 1, 0x0, .rwl, 0x00⟩
/-- SC_CTL.UNPOL [5:4] RWL, reset 0b00 (11). -/
def SC_CTL_UNPOL : Fld := ⟨.sc, 255, 0x40, 5, 4, 1, 0x0, .rwl, 0b00⟩
/-- SC_CTL.SIGSRC [2:2] RWL, reset 0 (11). -/
def SC_CTL_SIGSRC : Fld := ⟨.sc, 255, 0x40, 2, 2, 1, 0x0, .rwl, 0⟩
/-- SC_CTL.ENGEN [1:1] RWL, reset 1 (11). -/
def SC_CTL_ENGEN : Fld := ⟨.sc, 255, 0x40, 1, 1, 1, 0x0, .rwl, 1⟩
/-- SC_CTL.FABEN [0:0] RWL, reset 1 (11). -/
def SC_CTL_FABEN : Fld := ⟨.sc, 255, 0x40, 0, 0, 1, 0x0, .rwl, 1⟩
/-- SC_SCHINT.INT [15:0] RWL, reset 0x0063 (11). -/
def SC_SCHINT_INT : Fld := ⟨.sc, 255, 0x44, 15, 0, 1, 0x0, .rwl, 0x0063⟩
/-- SC_HBTO.TO [7:0] RWL, reset 0x3F (11). -/
def SC_HBTO_TO : Fld := ⟨.sc, 255, 0x48, 7, 0, 1, 0x0, .rwl, 0x3F⟩
/-- SC_SIGBASEL.ADDR [31:21] RWL, reset 0 (11). -/
def SC_SIGBASEL_ADDR : Fld := ⟨.sc, 255, 0x50, 31, 21, 1, 0x0, .rwl, 0⟩
/-- SC_SIGBASEH.ADDR [11:0] RWL, reset 0 (11). -/
def SC_SIGBASEH_ADDR : Fld := ⟨.sc, 255, 0x54, 11, 0, 1, 0x0, .rwl, 0⟩
/-- SC_MCBASEL.ADDR [31:30] RWL, reset 0 (11). -/
def SC_MCBASEL_ADDR : Fld := ⟨.sc, 255, 0x58, 31, 30, 1, 0x0, .rwl, 0⟩
/-- SC_MCBASEH.ADDR [11:0] RWL, reset 0 (11). -/
def SC_MCBASEH_ADDR : Fld := ⟨.sc, 255, 0x5c, 11, 0, 1, 0x0, .rwl, 0⟩
/-- SC_RLSTS.ENG [24:16] RO, reset 0x000 (11). -/
def SC_RLSTS_ENG : Fld := ⟨.sc, 255, 0x60, 24, 16, 1, 0x0, .ro, 0x000⟩
/-- SC_RLSTS.PRIO [4:4] RO, reset 0 (11). -/
def SC_RLSTS_PRIO : Fld := ⟨.sc, 255, 0x60, 4, 4, 1, 0x0, .ro, 0⟩
/-- SC_RLSTS.STATE [2:0] RO, reset 0b000 (11). -/
def SC_RLSTS_STATE : Fld := ⟨.sc, 255, 0x60, 2, 0, 1, 0x0, .ro, 0b000⟩
/-- SC_POS.EVALID [31:31] RO, reset 0 (11). -/
def SC_POS_EVALID : Fld := ⟨.sc, 255, 0x64, 31, 31, 1, 0x0, .ro, 0⟩
/-- SC_POS.ENG [28:20] RO, reset 0x000 (11). -/
def SC_POS_ENG : Fld := ⟨.sc, 255, 0x64, 28, 20, 1, 0x0, .ro, 0x000⟩
/-- SC_POS.FRAME [16:0] RO, reset 0x0_0000 (11). -/
def SC_POS_FRAME : Fld := ⟨.sc, 255, 0x64, 16, 0, 1, 0x0, .ro, 0x00000⟩
/-- SC_FUEADDR.VALID [31:31] RO, reset 0 (11). -/
def SC_FUEADDR_VALID : Fld := ⟨.sc, 255, 0x68, 31, 31, 1, 0x0, .ro, 0⟩
/-- SC_FUEADDR.WORD [22:17] RO, reset 0 (11). -/
def SC_FUEADDR_WORD : Fld := ⟨.sc, 255, 0x68, 22, 17, 1, 0x0, .ro, 0⟩
/-- SC_FUEADDR.FRAME [16:0] RO, reset 0x0_0000 (11). -/
def SC_FUEADDR_FRAME : Fld := ⟨.sc, 255, 0x68, 16, 0, 1, 0x0, .ro, 0x00000⟩
/-- SC_PASS.ENG [31:16] RO, reset 0x0000 (11). -/
def SC_PASS_ENG : Fld := ⟨.sc, 255, 0x6c, 31, 16, 1, 0x0, .ro, 0x0000⟩
/-- SC_PASS.FAB [15:0] RO, reset 0x0000 (11). -/
def SC_PASS_FAB : Fld := ⟨.sc, 255, 0x6c, 15, 0, 1, 0x0, .ro, 0x0000⟩
/-- SC_CECNT.SCH [31:16] RC, reset 0x0000 (11). -/
def SC_CECNT_SCH : Fld := ⟨.sc, 255, 0x70, 31, 16, 1, 0x0, .rc, 0x0000⟩
/-- SC_CECNT.FAB [15:0] RC, reset 0x0000 (11). -/
def SC_CECNT_FAB : Fld := ⟨.sc, 255, 0x70, 15, 0, 1, 0x0, .rc, 0x0000⟩
/-- SC_EVCNT.RESTART [31:24] RC, reset 0x00 (11). -/
def SC_EVCNT_RESTART : Fld := ⟨.sc, 255, 0x74, 31, 24, 1, 0x0, .rc, 0x00⟩
/-- SC_EVCNT.TMR [23:16] RC, reset 0x00 (11). -/
def SC_EVCNT_TMR : Fld := ⟨.sc, 255, 0x74, 23, 16, 1, 0x0, .rc, 0x00⟩
/-- SC_EVCNT.SIGERR [15:8] RC, reset 0x00 (11). -/
def SC_EVCNT_SIGERR : Fld := ⟨.sc, 255, 0x74, 15, 8, 1, 0x0, .rc, 0x00⟩
/-- SC_EVCNT.RELFAIL [7:0] RC, reset 0x00 (11). -/
def SC_EVCNT_RELFAIL : Fld := ⟨.sc, 255, 0x74, 7, 0, 1, 0x0, .rc, 0x00⟩
/-- SC_SCHEN.EN [31:0] RW, reset 0 (11). -/
def SC_SCHEN_EN : Fld := ⟨.sc, 255, 0x80, 31, 0, 16, 0x4, .rw, 0⟩
/-! Registers of 12_packet_network.md -/

/-- NC_RCTL.LOCEN [4:4] RWL; RO 0 without an NI, reset 1 where an NI is attached (12). -/
def NC_RCTL_LOCEN : Fld := ⟨.ncr, 255, 0x40, 4, 4, 1, 0x0, .rwl, 0⟩
/-- NC_RCTL.PORTEN [3:0] RWL; RO 0 for absent ports, reset 1 for every existing port (12). -/
def NC_RCTL_PORTEN : Fld := ⟨.ncr, 255, 0x40, 3, 0, 1, 0x0, .rwl, 0⟩
/-- NC_RSTS.HELD [2:2] RO, reset 0 (12). -/
def NC_RSTS_HELD : Fld := ⟨.ncr, 255, 0x44, 2, 2, 1, 0x0, .ro, 0⟩
/-- NC_RSTS.DROP [1:1] W1C, reset 0 (12). -/
def NC_RSTS_DROP : Fld := ⟨.ncr, 255, 0x44, 1, 1, 1, 0x0, .w1c, 0⟩
/-- NC_RSTS.ROUTE [0:0] W1C, reset 0 (12). -/
def NC_RSTS_ROUTE : Fld := ⟨.ncr, 255, 0x44, 0, 0, 1, 0x0, .w1c, 0⟩
/-- NC_RERRCNT.DROP [31:16] RC, reset 0x0000 (12). -/
def NC_RERRCNT_DROP : Fld := ⟨.ncr, 255, 0x48, 31, 16, 1, 0x0, .rc, 0x0000⟩
/-- NC_RERRCNT.ROUTE [15:0] RC, reset 0x0000 (12). -/
def NC_RERRCNT_ROUTE : Fld := ⟨.ncr, 255, 0x48, 15, 0, 1, 0x0, .rc, 0x0000⟩
/-- NC_RCECNT.UE [31:16] RC, reset 0x0000 (12). -/
def NC_RCECNT_UE : Fld := ⟨.ncr, 255, 0x4c, 31, 16, 1, 0x0, .rc, 0x0000⟩
/-- NC_RCECNT.CE [15:0] RC, reset 0x0000 (12). -/
def NC_RCECNT_CE : Fld := ⟨.ncr, 255, 0x4c, 15, 0, 1, 0x0, .rc, 0x0000⟩
/-- NC_MODE.FREELOST [8:8] W1S, self-clearing, reset 0 (12). -/
def NC_MODE_FREELOST : Fld := ⟨.nci, 255, 0x40, 8, 8, 1, 0x0, .w1s, 0⟩
/-- NC_MODE.RSV [0:0] RW, reset 1 (12). -/
def NC_MODE_RSV : Fld := ⟨.nci, 255, 0x40, 0, 0, 1, 0x0, .rw, 1⟩
/-- NC_NITO.TO [15:0] RW, reset 0x03FF (12). -/
def NC_NITO_TO : Fld := ⟨.nci, 255, 0x44, 15, 0, 1, 0x0, .rw, 0x03FF⟩
/-- NC_NISTS.LOST [24:16] RO, reset 0 (12). -/
def NC_NISTS_LOST : Fld := ⟨.nci, 255, 0x48, 24, 16, 1, 0x0, .ro, 0⟩
/-- NC_NISTS.OUTST [8:0] RO, reset 0 (12). -/
def NC_NISTS_OUTST : Fld := ⟨.nci, 255, 0x48, 8, 0, 1, 0x0, .ro, 0⟩
/-- NC_TOCNT.COUNT [15:0] RC, reset 0x0000 (12). -/
def NC_TOCNT_COUNT : Fld := ⟨.nci, 255, 0x4c, 15, 0, 1, 0x0, .rc, 0x0000⟩
/-- NC_RTEL.ROUTE [31:0] RW, reset 0 (12). -/
def NC_RTEL_ROUTE : Fld := ⟨.nci, 255, 0x50, 31, 0, 1, 0x0, .rw, 0⟩
/-- NC_RTEH.VALID [16:16] RW, reset 0 (12). -/
def NC_RTEH_VALID : Fld := ⟨.nci, 255, 0x54, 16, 16, 1, 0x0, .rw, 0⟩
/-- NC_RTEH.ROUTE [15:0] RW, reset 0 (12). -/
def NC_RTEH_ROUTE : Fld := ⟨.nci, 255, 0x54, 15, 0, 1, 0x0, .rw, 0⟩
/-- NC_RTECMD.ERR [14:12] RO, reset 0b000 (12). -/
def NC_RTECMD_ERR : Fld := ⟨.nci, 255, 0x58, 14, 12, 1, 0x0, .ro, 0b000⟩
/-- NC_RTECMD.BUSY [11:11] RO, reset 0 (12). -/
def NC_RTECMD_BUSY : Fld := ⟨.nci, 255, 0x58, 11, 11, 1, 0x0, .ro, 0⟩
/-- NC_RTECMD.ORDER [10:10] RW, reset 0 (12). -/
def NC_RTECMD_ORDER : Fld := ⟨.nci, 255, 0x58, 10, 10, 1, 0x0, .rw, 0⟩
/-- NC_RTECMD.RD [9:9] W1S, self-clearing, reset 0 (12). -/
def NC_RTECMD_RD : Fld := ⟨.nci, 255, 0x58, 9, 9, 1, 0x0, .w1s, 0⟩
/-- NC_RTECMD.WR [8:8] W1S, self-clearing, reset 0 (12). -/
def NC_RTECMD_WR : Fld := ⟨.nci, 255, 0x58, 8, 8, 1, 0x0, .w1s, 0⟩
/-- NC_RTECMD.INDEX [7:0] RW, reset 0x00 (12). -/
def NC_RTECMD_INDEX : Fld := ⟨.nci, 255, 0x58, 7, 0, 1, 0x0, .rw, 0x00⟩
/-- NC_BRG.PRESENT [26:26] RO, reset Per Table 12-1 (12). -/
def NC_BRG_PRESENT : Fld := ⟨.nci, 255, 0x80, 26, 26, 8, 0x4, .ro, 0⟩
/-- NC_BRG.FENCED [25:25] RO, reset 1 for switched domains; 0 otherwise (12). -/
def NC_BRG_FENCED : Fld := ⟨.nci, 255, 0x80, 25, 25, 8, 0x4, .ro, 0⟩
/-- NC_BRG.KSRC [24:24] RO, reset Per unit (12). -/
def NC_BRG_KSRC : Fld := ⟨.nci, 255, 0x80, 24, 24, 8, 0x4, .ro, 0⟩
/-- NC_BRG.KIDX [23:16] RW, reset 0x00 (12). -/
def NC_BRG_KIDX : Fld := ⟨.nci, 255, 0x80, 23, 16, 8, 0x4, .rw, 0x00⟩
/-- NC_BRG.RVAR [10:8] RW, reset 0b000 (12). -/
def NC_BRG_RVAR : Fld := ⟨.nci, 255, 0x80, 10, 8, 8, 0x4, .rw, 0b000⟩
/-- NC_BRG.CLASS [2:0] RO, reset Per Table 12-1 (12). -/
def NC_BRG_CLASS : Fld := ⟨.nci, 255, 0x80, 2, 0, 8, 0x4, .ro, 0⟩
/-! Registers of 13_scratchpad.md -/

/-- SP_RET.RET [31:0] RW, reset 0 (13). -/
def SP_RET_RET : Fld := ⟨.sp, 0, 0x40, 31, 0, 4, 0x4, .rw, 0⟩
/-- SP_AWAKE.AWAKE [31:0] RO, reset 0xFFFF_FFFF (13). -/
def SP_AWAKE_AWAKE : Fld := ⟨.sp, 0, 0x50, 31, 0, 4, 0x4, .ro, 0xFFFFFFFF⟩
/-- SP_CECNT.COUNT [31:0] RC, reset 0 (13). -/
def SP_CECNT_COUNT : Fld := ⟨.sp, 0, 0x60, 31, 0, 1, 0x0, .rc, 0⟩
/-- SP_UEADDR.VALID [31:31] RO, reset 0 (13). -/
def SP_UEADDR_VALID : Fld := ⟨.sp, 0, 0x64, 31, 31, 1, 0x0, .ro, 0⟩
/-- SP_UEADDR.WORD [21:0] RO, reset 0x00_0000 (13). -/
def SP_UEADDR_WORD : Fld := ⟨.sp, 0, 0x64, 21, 0, 1, 0x0, .ro, 0x000000⟩
/-- SP_OWN.CLR [31:31] W1S, self-clearing, reset 0 (13). -/
def SP_OWN_CLR : Fld := ⟨.sp, 1, 0x40, 31, 31, 128, 0x4, .w1s, 0⟩
/-- SP_OWN.BUSY [30:30] RO, reset 0 (13). -/
def SP_OWN_BUSY : Fld := ⟨.sp, 1, 0x40, 30, 30, 128, 0x4, .ro, 0⟩
/-- SP_OWN.DMAOK [8:8] RW, reset 0 (13). -/
def SP_OWN_DMAOK : Fld := ⟨.sp, 1, 0x40, 8, 8, 128, 0x4, .rw, 0⟩
/-- SP_OWN.OWNER [7:0] RW, reset 0xFF (13). -/
def SP_OWN_OWNER : Fld := ⟨.sp, 1, 0x40, 7, 0, 128, 0x4, .rw, 0xFF⟩
/-- SP_DMADESCL.ADDR [31:5] RW, reset 0 (13). -/
def SP_DMADESCL_ADDR : Fld := ⟨.sp, 2, 0x40, 31, 5, 4, 0x20, .rw, 0⟩
/-- SP_DMADESCH.ADDR [11:0] RW, reset 0 (13). -/
def SP_DMADESCH_ADDR : Fld := ⟨.sp, 2, 0x44, 11, 0, 4, 0x20, .rw, 0⟩
/-- SP_DMACTL.KIDX [15:8] RW, reset 0x00 (13). -/
def SP_DMACTL_KIDX : Fld := ⟨.sp, 2, 0x48, 15, 8, 4, 0x20, .rw, 0x00⟩
/-- SP_DMACTL.GO [0:0] W1S, self-clearing, reset 0 (13). -/
def SP_DMACTL_GO : Fld := ⟨.sp, 2, 0x48, 0, 0, 4, 0x20, .w1s, 0⟩
/-- SP_DMASTS.ERR [15:8] RO, reset 0x00 (13). -/
def SP_DMASTS_ERR : Fld := ⟨.sp, 2, 0x4c, 15, 8, 4, 0x20, .ro, 0x00⟩
/-- SP_DMASTS.STATE [1:0] RO, reset 0b00 (13). -/
def SP_DMASTS_STATE : Fld := ⟨.sp, 2, 0x4c, 1, 0, 4, 0x20, .ro, 0b00⟩
/-- SP_DMAREM.REM [31:0] RO, reset 0 (13). -/
def SP_DMAREM_REM : Fld := ⟨.sp, 2, 0x50, 31, 0, 4, 0x20, .ro, 0⟩
/-! Registers of 14_memory_ports_and_encryption.md -/

/-- MC_CTL.SAVE [1:1] W1S, self-clearing, reset 0 (14). -/
def MC_CTL_SAVE : Fld := ⟨.mc, 0, 0x40, 1, 1, 1, 0x0, .w1s, 0⟩
/-- MC_CTL.PERSIST [0:0] RW, reset 0 (14). -/
def MC_CTL_PERSIST : Fld := ⟨.mc, 0, 0x40, 0, 0, 1, 0x0, .rw, 0⟩
/-- MC_KDATA.KEY [31:0] WO, reset 0 (14). -/
def MC_KDATA_KEY : Fld := ⟨.mc, 0, 0x80, 31, 0, 8, 0x4, .wo, 0⟩
/-- MC_KCMD.ERR [23:20] RO, reset 0x0 (14). -/
def MC_KCMD_ERR : Fld := ⟨.mc, 0, 0xa0, 23, 20, 1, 0x0, .ro, 0x0⟩
/-- MC_KCMD.BUSY [18:18] RO, reset 0 (14). -/
def MC_KCMD_BUSY : Fld := ⟨.mc, 0, 0xa0, 18, 18, 1, 0x0, .ro, 0⟩
/-- MC_KCMD.GO [16:16] W1S, self-clearing, reset 0 (14). -/
def MC_KCMD_GO : Fld := ⟨.mc, 0, 0xa0, 16, 16, 1, 0x0, .w1s, 0⟩
/-- MC_KCMD.OP [11:8] RW, reset 0x0 (14). -/
def MC_KCMD_OP : Fld := ⟨.mc, 0, 0xa0, 11, 8, 1, 0x0, .rw, 0x0⟩
/-- MC_KCMD.SLOT [7:0] RW, reset 0x00 (14). -/
def MC_KCMD_SLOT : Fld := ⟨.mc, 0, 0xa0, 7, 0, 1, 0x0, .rw, 0x00⟩
/-- MC_TREECTL.INIT [3:0] W1S, self-clearing, reset 0x0 (14). -/
def MC_TREECTL_INIT : Fld := ⟨.mc, 0, 0xb0, 3, 0, 1, 0x0, .w1s, 0x0⟩
/-- MC_TREESTS.KEYOK [16:16] RO, reset 0 (14). -/
def MC_TREESTS_KEYOK : Fld := ⟨.mc, 0, 0xb4, 16, 16, 1, 0x0, .ro, 0⟩
/-- MC_TREESTS.STATE [7:0] RO, reset 0x00 (14). -/
def MC_TREESTS_STATE : Fld := ⟨.mc, 0, 0xb4, 7, 0, 1, 0x0, .ro, 0x00⟩
/-- MC_RKCTL.RATE [21:16] RW, reset 0x03 (14). -/
def MC_RKCTL_RATE : Fld := ⟨.mc, 0, 0xc0, 21, 16, 1, 0x0, .rw, 0x03⟩
/-- MC_RKCTL.GO [8:8] W1S, self-clearing, reset 0 (14). -/
def MC_RKCTL_GO : Fld := ⟨.mc, 0, 0xc0, 8, 8, 1, 0x0, .w1s, 0⟩
/-- MC_RKCTL.SLOT [7:0] RW, reset 0x00 (14). -/
def MC_RKCTL_SLOT : Fld := ⟨.mc, 0, 0xc0, 7, 0, 1, 0x0, .rw, 0x00⟩
/-- MC_RKSTARTL.ADDR [31:12] RW, reset 0 (14). -/
def MC_RKSTARTL_ADDR : Fld := ⟨.mc, 0, 0xc4, 31, 12, 1, 0x0, .rw, 0⟩
/-- MC_RKSTARTH.ADDR [9:0] RW, reset 0 (14). -/
def MC_RKSTARTH_ADDR : Fld := ⟨.mc, 0, 0xc8, 9, 0, 1, 0x0, .rw, 0⟩
/-- MC_RKLEN.GROUPS [29:0] RW, reset 0 (14). -/
def MC_RKLEN_GROUPS : Fld := ⟨.mc, 0, 0xcc, 29, 0, 1, 0x0, .rw, 0⟩
/-- MC_RKBNDL.ADDR [31:6] RO, reset 0 (14). -/
def MC_RKBNDL_ADDR : Fld := ⟨.mc, 0, 0xd0, 31, 6, 1, 0x0, .ro, 0⟩
/-- MC_RKBNDH.ADDR [9:0] RO, reset 0 (14). -/
def MC_RKBNDH_ADDR : Fld := ⟨.mc, 0, 0xd4, 9, 0, 1, 0x0, .ro, 0⟩
/-- MC_RKSTS.STATE [9:8] RO, reset 0b00 (14). -/
def MC_RKSTS_STATE : Fld := ⟨.mc, 0, 0xd8, 9, 8, 1, 0x0, .ro, 0b00⟩
/-- MC_RKSTS.SLOT [7:0] RO, reset 0x00 (14). -/
def MC_RKSTS_SLOT : Fld := ⟨.mc, 0, 0xd8, 7, 0, 1, 0x0, .ro, 0x00⟩
/-- MC_RKSKIP.COUNT [31:0] RC, reset 0 (14). -/
def MC_RKSKIP_COUNT : Fld := ⟨.mc, 0, 0xdc, 31, 0, 1, 0x0, .rc, 0⟩
/-- MC_BGSKIP.COUNT [31:0] RC, reset 0 (14). -/
def MC_BGSKIP_COUNT : Fld := ⟨.mc, 0, 0xe0, 31, 0, 1, 0x0, .rc, 0⟩
/-- MC_PSNA.VALID [31:31] W1C, reset 0 (14). -/
def MC_PSNA_VALID : Fld := ⟨.mc, 0, 0x100, 31, 31, 16, 0x8, .w1c, 0⟩
/-- MC_PSNA.LEVEL [30:27] RO, reset 0 (14). -/
def MC_PSNA_LEVEL : Fld := ⟨.mc, 0, 0x100, 30, 27, 16, 0x8, .ro, 0⟩
/-- MC_PSNA.PORT [25:24] RO, reset 0 (14). -/
def MC_PSNA_PORT : Fld := ⟨.mc, 0, 0x100, 25, 24, 16, 0x8, .ro, 0⟩
/-- MC_PSNB.GROUP [26:0] RO, reset 0 (14). -/
def MC_PSNB_GROUP : Fld := ⟨.mc, 0, 0x104, 26, 0, 16, 0x8, .ro, 0⟩
/-- MC_KSLOT.STATE [31:30] RO, reset 0b00; 0b01 for slot 0 (14). -/
def MC_KSLOT_STATE : Fld := ⟨.mc, 1, 0x40, 31, 30, 256, 0x4, .ro, 0⟩
/-- MC_KSLOT.GEN [23:16] RO, reset 0x00 (14). -/
def MC_KSLOT_GEN : Fld := ⟨.mc, 1, 0x40, 23, 16, 256, 0x4, .ro, 0x00⟩
/-- MC_KSLOT.RIGHTS [15:0] RW, reset 0xFFFF for slot 0; 0x0000 otherwise (14). -/
def MC_KSLOT_RIGHTS : Fld := ⟨.mc, 1, 0x40, 15, 0, 256, 0x4, .rw, 0⟩
/-- ML_CTL.POS [14:12] RWL, reset 0 (14). -/
def ML_CTL_POS : Fld := ⟨.ml, 255, 0x40, 14, 12, 1, 0x0, .rwl, 0⟩
/-- ML_CTL.WAYS [10:8] RWL, reset 0 (14). -/
def ML_CTL_WAYS : Fld := ⟨.ml, 255, 0x40, 10, 8, 1, 0x0, .rwl, 0⟩
/-- ML_CTL.LPORT [7:4] RWL, reset 0x0 (14). -/
def ML_CTL_LPORT : Fld := ⟨.ml, 255, 0x40, 7, 4, 1, 0x0, .rwl, 0x0⟩
/-- ML_CTL.MAPEN [0:0] RWL, reset 0 (14). -/
def ML_CTL_MAPEN : Fld := ⟨.ml, 255, 0x40, 0, 0, 1, 0x0, .rwl, 0⟩
/-- ML_BASE.GIB [11:0] RWL, reset 0x000 (14). -/
def ML_BASE_GIB : Fld := ⟨.ml, 255, 0x44, 11, 0, 1, 0x0, .rwl, 0x000⟩
/-- ML_SIZE.GIB [8:0] RWL, reset 0x000 (14). -/
def ML_SIZE_GIB : Fld := ⟨.ml, 255, 0x48, 8, 0, 1, 0x0, .rwl, 0x000⟩
/-- ML_PTO.TO [15:0] RWL, reset 0x0063 (14). -/
def ML_PTO_TO : Fld := ⟨.ml, 255, 0x4c, 15, 0, 1, 0x0, .rwl, 0x0063⟩
/-- ML_STS.OUTST [26:16] RO, reset 0 (14). -/
def ML_STS_OUTST : Fld := ⟨.ml, 255, 0x50, 26, 16, 1, 0x0, .ro, 0⟩
/-- ML_STS.CAPERR [2:2] W1C, reset 0 (14). -/
def ML_STS_CAPERR : Fld := ⟨.ml, 255, 0x50, 2, 2, 1, 0x0, .w1c, 0⟩
/-- ML_STS.MAPERR [1:1] W1C, reset 0 (14). -/
def ML_STS_MAPERR : Fld := ⟨.ml, 255, 0x50, 1, 1, 1, 0x0, .w1c, 0⟩
/-- ML_STS.LINKUP [0:0] RO, reset 0 (14). -/
def ML_STS_LINKUP : Fld := ⟨.ml, 255, 0x50, 0, 0, 1, 0x0, .ro, 0⟩
/-- ML_ERRCNT.PROTO [31:16] RC, reset 0x0000 (14). -/
def ML_ERRCNT_PROTO : Fld := ⟨.ml, 255, 0x54, 31, 16, 1, 0x0, .rc, 0x0000⟩
/-- ML_ERRCNT.CE [15:0] RC, reset 0x0000 (14). -/
def ML_ERRCNT_CE : Fld := ⟨.ml, 255, 0x54, 15, 0, 1, 0x0, .rc, 0x0000⟩
/-! Registers of 15_serial_lanes_links_host_port.md -/

/-- LN_QCTL.MH [8:0] RWL, reset 0x000 (15). -/
def LN_QCTL_MH : Fld := ⟨.ln, 255, 0x40, 8, 0, 1, 0x0, .rwl, 0x000⟩
/-- LN_QSTS.RANGE [1:1] W1C, reset 0 (15). -/
def LN_QSTS_RANGE : Fld := ⟨.ln, 255, 0x44, 1, 1, 1, 0x0, .w1c, 0⟩
/-- LN_QSTS.LOCKED [0:0] RO, reset 0 (15). -/
def LN_QSTS_LOCKED : Fld := ⟨.ln, 255, 0x44, 0, 0, 1, 0x0, .ro, 0⟩
/-- LN_LCFG.RXINV [14:14] RWL, reset F (15). -/
def LN_LCFG_RXINV : Fld := ⟨.ln, 255, 0x80, 14, 14, 4, 0x20, .rwl, 0⟩
/-- LN_LCFG.TXINV [13:13] RWL, reset F (15). -/
def LN_LCFG_TXINV : Fld := ⟨.ln, 255, 0x80, 13, 13, 4, 0x20, .rwl, 0⟩
/-- LN_LCFG.PROF [12:8] RO, reset F (15). -/
def LN_LCFG_PROF : Fld := ⟨.ln, 255, 0x80, 12, 8, 4, 0x20, .ro, 0⟩
/-- LN_LCFG.OD [6:4] RWL, reset 0 (15). -/
def LN_LCFG_OD : Fld := ⟨.ln, 255, 0x80, 6, 4, 4, 0x20, .rwl, 0⟩
/-- LN_LCFG.MODE [2:0] RWL, reset 0 (15). -/
def LN_LCFG_MODE : Fld := ⟨.ln, 255, 0x80, 2, 0, 4, 0x20, .rwl, 0⟩
/-- LN_LEQ.CTLE [27:24] RWL, reset F (15). -/
def LN_LEQ_CTLE : Fld := ⟨.ln, 255, 0x84, 27, 24, 4, 0x20, .rwl, 0⟩
/-- LN_LEQ.POST [21:16] RWL, reset F (15). -/
def LN_LEQ_POST : Fld := ⟨.ln, 255, 0x84, 21, 16, 4, 0x20, .rwl, 0⟩
/-- LN_LEQ.MAIN [13:8] RWL, reset F (15). -/
def LN_LEQ_MAIN : Fld := ⟨.ln, 255, 0x84, 13, 8, 4, 0x20, .rwl, 0⟩
/-- LN_LEQ.PRE [5:0] RWL, reset F (15). -/
def LN_LEQ_PRE : Fld := ⟨.ln, 255, 0x84, 5, 0, 4, 0x20, .rwl, 0⟩
/-- LN_LDFE.TAP [29:0] RWL, reset F (15). -/
def LN_LDFE_TAP : Fld := ⟨.ln, 255, 0x88, 29, 0, 4, 0x20, .rwl, 0⟩
/-- LN_LPWR.STATE [5:4] RO, reset 0b10 (15). -/
def LN_LPWR_STATE : Fld := ⟨.ln, 255, 0x8c, 5, 4, 4, 0x20, .ro, 0b10⟩
/-- LN_LPWR.REQ [1:0] RW, reset 0b10 (15). -/
def LN_LPWR_REQ : Fld := ⟨.ln, 255, 0x8c, 1, 0, 4, 0x20, .rw, 0b10⟩
/-- LN_LSTS.EQERR [3:3] W1C, reset 0 (15). -/
def LN_LSTS_EQERR : Fld := ⟨.ln, 255, 0x90, 3, 3, 4, 0x20, .w1c, 0⟩
/-- LN_LSTS.TXBADK [2:2] W1C, reset 0 (15). -/
def LN_LSTS_TXBADK : Fld := ⟨.ln, 255, 0x90, 2, 2, 4, 0x20, .w1c, 0⟩
/-- LN_LSTS.LOSS [1:1] W1C, reset 0 (15). -/
def LN_LSTS_LOSS : Fld := ⟨.ln, 255, 0x90, 1, 1, 4, 0x20, .w1c, 0⟩
/-- LN_LSTS.LOCK [0:0] RO, reset 0 (15). -/
def LN_LSTS_LOCK : Fld := ⟨.ln, 255, 0x90, 0, 0, 4, 0x20, .ro, 0⟩
/-- LN_LERR.COUNT [31:0] RC, reset 0 (15). -/
def LN_LERR_COUNT : Fld := ⟨.ln, 255, 0x94, 31, 0, 4, 0x20, .rc, 0⟩
/-- LN_RXBASEL.ADDR [31:12] RW, reset 0 (15). -/
def LN_RXBASEL_ADDR : Fld := ⟨.ln, 255, 0x100, 31, 12, 4, 0x40, .rw, 0⟩
/-- LN_TXBASEL.ADDR [31:12] RW, reset 0 (15). -/
def LN_TXBASEL_ADDR : Fld := ⟨.ln, 255, 0x114, 31, 12, 4, 0x40, .rw, 0⟩
/-- LN_RXBASEH.ADDR [11:0] RW, reset 0 (15). -/
def LN_RXBASEH_ADDR : Fld := ⟨.ln, 255, 0x104, 11, 0, 4, 0x40, .rw, 0⟩
/-- LN_TXBASEH.ADDR [11:0] RW, reset 0 (15). -/
def LN_TXBASEH_ADDR : Fld := ⟨.ln, 255, 0x118, 11, 0, 4, 0x40, .rw, 0⟩
/-- LN_RXSIZE.SIZE [19:0] RW, reset 0 (15). -/
def LN_RXSIZE_SIZE : Fld := ⟨.ln, 255, 0x108, 19, 0, 4, 0x40, .rw, 0⟩
/-- LN_TXSIZE.SIZE [19:0] RW, reset 0 (15). -/
def LN_TXSIZE_SIZE : Fld := ⟨.ln, 255, 0x11c, 19, 0, 4, 0x40, .rw, 0⟩
/-- LN_RXWP.PTR [25:0] RO, reset 0 (15). -/
def LN_RXWP_PTR : Fld := ⟨.ln, 255, 0x10c, 25, 0, 4, 0x40, .ro, 0⟩
/-- LN_TXRP.PTR [25:0] RO, reset 0 (15). -/
def LN_TXRP_PTR : Fld := ⟨.ln, 255, 0x124, 25, 0, 4, 0x40, .ro, 0⟩
/-- LN_RXRP.PTR [25:0] RW, reset 0 (15). -/
def LN_RXRP_PTR : Fld := ⟨.ln, 255, 0x110, 25, 0, 4, 0x40, .rw, 0⟩
/-- LN_TXWP.PTR [25:0] RW, reset 0 (15). -/
def LN_TXWP_PTR : Fld := ⟨.ln, 255, 0x120, 25, 0, 4, 0x40, .rw, 0⟩
/-- LN_RINGCTL.ERR [15:8] RO, reset 0x00 (15). -/
def LN_RINGCTL_ERR : Fld := ⟨.ln, 255, 0x128, 15, 8, 4, 0x40, .ro, 0x00⟩
/-- LN_RINGCTL.TXEN [1:1] RW, reset 0 (15). -/
def LN_RINGCTL_TXEN : Fld := ⟨.ln, 255, 0x128, 1, 1, 4, 0x40, .rw, 0⟩
/-- LN_RINGCTL.RXEN [0:0] RW, reset 0 (15). -/
def LN_RINGCTL_RXEN : Fld := ⟨.ln, 255, 0x128, 0, 0, 4, 0x40, .rw, 0⟩
/-- LN_RXDROP.COUNT [31:0] RC, reset 0 (15). -/
def LN_RXDROP_COUNT : Fld := ⟨.ln, 255, 0x12c, 31, 0, 4, 0x40, .rc, 0⟩
/-- LN_PCFG.AUTOGLIDE [24:24] RWL, reset 0 (15). -/
def LN_PCFG_AUTOGLIDE : Fld := ⟨.ln, 255, 0x300, 24, 24, 1, 0x0, .rwl, 0⟩
/-- LN_PCFG.GLIDEIDLE [23:16] RWL, reset 0x0F (15). -/
def LN_PCFG_GLIDEIDLE : Fld := ⟨.ln, 255, 0x300, 23, 16, 1, 0x0, .rwl, 0x0F⟩
/-- LN_PCFG.BASE [13:8] RWL, reset 0x00 (15). -/
def LN_PCFG_BASE : Fld := ⟨.ln, 255, 0x300, 13, 8, 1, 0x0, .rwl, 0x00⟩
/-- LN_PCFG.WIDTH [5:4] RWL, reset 0b00 (15). -/
def LN_PCFG_WIDTH : Fld := ⟨.ln, 255, 0x300, 5, 4, 1, 0x0, .rwl, 0b00⟩
/-- LN_PCFG.USE [1:0] RWL, reset 0b00 (15). -/
def LN_PCFG_USE : Fld := ⟨.ln, 255, 0x300, 1, 0, 1, 0x0, .rwl, 0b00⟩
/-- LN_PCTL.REWIDEN [1:1] W1S, self-clearing, reset 0 (15). -/
def LN_PCTL_REWIDEN : Fld := ⟨.ln, 255, 0x304, 1, 1, 1, 0x0, .w1s, 0⟩
/-- LN_PCTL.EN [0:0] RW, reset 0 (15). -/
def LN_PCTL_EN : Fld := ⟨.ln, 255, 0x304, 0, 0, 1, 0x0, .rw, 0⟩
/-- LN_PSTS.RDEV [23:18] RO, reset 0 (15). -/
def LN_PSTS_RDEV : Fld := ⟨.ln, 255, 0x308, 23, 18, 1, 0x0, .ro, 0⟩
/-- LN_PSTS.CFGERR [17:17] W1C, reset 0 (15). -/
def LN_PSTS_CFGERR : Fld := ⟨.ln, 255, 0x308, 17, 17, 1, 0x0, .w1c, 0⟩
/-- LN_PSTS.SHED [16:16] W1C, reset 0 (15). -/
def LN_PSTS_SHED : Fld := ⟨.ln, 255, 0x308, 16, 16, 1, 0x0, .w1c, 0⟩
/-- LN_PSTS.CURBASE [13:8] RO, reset 0 (15). -/
def LN_PSTS_CURBASE : Fld := ⟨.ln, 255, 0x308, 13, 8, 1, 0x0, .ro, 0⟩
/-- LN_PSTS.CURW [5:4] RO, reset 0b00 (15). -/
def LN_PSTS_CURW : Fld := ⟨.ln, 255, 0x308, 5, 4, 1, 0x0, .ro, 0b00⟩
/-- LN_PSTS.STATE [1:0] RO, reset 0b00 (15). -/
def LN_PSTS_STATE : Fld := ⟨.ln, 255, 0x308, 1, 0, 1, 0x0, .ro, 0b00⟩
/-- LN_PERRCNT.REPLAY [31:16] RC, reset 0x0000 (15). -/
def LN_PERRCNT_REPLAY : Fld := ⟨.ln, 255, 0x30c, 31, 16, 1, 0x0, .rc, 0x0000⟩
/-- LN_PERRCNT.CRC [15:0] RC, reset 0x0000 (15). -/
def LN_PERRCNT_CRC : Fld := ⟨.ln, 255, 0x30c, 15, 0, 1, 0x0, .rc, 0x0000⟩
/-- HP_CTL.ERRCPL [0:0] RW, reset 0 (15). -/
def HP_CTL_ERRCPL : Fld := ⟨.hp, 255, 0x40, 0, 0, 1, 0x0, .rw, 0⟩
/-- HP_WIN.BASE [13:0] RW, reset 0x0000 (15). -/
def HP_WIN_BASE : Fld := ⟨.hp, 255, 0x44, 13, 0, 1, 0x0, .rw, 0x0000⟩
/-- HP_LINK.INRESET [9:9] RO, reset 0 (15). -/
def HP_LINK_INRESET : Fld := ⟨.hp, 255, 0x48, 9, 9, 1, 0x0, .ro, 0⟩
/-- HP_LINK.DLUP [8:8] RO, reset 0 (15). -/
def HP_LINK_DLUP : Fld := ⟨.hp, 255, 0x48, 8, 8, 1, 0x0, .ro, 0⟩
/-- HP_LINK.WIDTH [7:4] RO, reset 0x0 (15). -/
def HP_LINK_WIDTH : Fld := ⟨.hp, 255, 0x48, 7, 4, 1, 0x0, .ro, 0x0⟩
/-- HP_LINK.SPEED [3:0] RO, reset 0x0 (15). -/
def HP_LINK_SPEED : Fld := ⟨.hp, 255, 0x48, 3, 0, 1, 0x0, .ro, 0x0⟩
/-- HP_ERRSTS.VALID [31:31] W1C, reset 0 (15). -/
def HP_ERRSTS_VALID : Fld := ⟨.hp, 255, 0x4c, 31, 31, 1, 0x0, .w1c, 0⟩
/-- HP_ERRSTS.KIND [9:8] RO, reset 0b00 (15). -/
def HP_ERRSTS_KIND : Fld := ⟨.hp, 255, 0x4c, 9, 8, 1, 0x0, .ro, 0b00⟩
/-- HP_ERRSTS.CODE [7:0] RO, reset 0x00 (15). -/
def HP_ERRSTS_CODE : Fld := ⟨.hp, 255, 0x4c, 7, 0, 1, 0x0, .ro, 0x00⟩
/-- HP_ERRADDRL.ADDR [31:0] RO, reset 0 (15). -/
def HP_ERRADDRL_ADDR : Fld := ⟨.hp, 255, 0x50, 31, 0, 1, 0x0, .ro, 0⟩
/-- HP_ERRADDRH.ADDR [11:0] RO, reset 0 (15). -/
def HP_ERRADDRH_ADDR : Fld := ⟨.hp, 255, 0x54, 11, 0, 1, 0x0, .ro, 0⟩
/-- HP_ERRCNT.WR [31:16] RC, reset 0x0000 (15). -/
def HP_ERRCNT_WR : Fld := ⟨.hp, 255, 0x58, 31, 16, 1, 0x0, .rc, 0x0000⟩
/-- HP_ERRCNT.RD [15:0] RC, reset 0x0000 (15). -/
def HP_ERRCNT_RD : Fld := ⟨.hp, 255, 0x58, 15, 0, 1, 0x0, .rc, 0x0000⟩
/-- HP_MSIFRCL.FRC [31:0] W1S, self-clearing, reset 0 (15). -/
def HP_MSIFRCL_FRC : Fld := ⟨.hp, 255, 0x60, 31, 0, 1, 0x0, .w1s, 0⟩
/-- HP_MSIFRCH.FRC [31:0] W1S, self-clearing, reset 0 (15). -/
def HP_MSIFRCH_FRC : Fld := ⟨.hp, 255, 0x64, 31, 0, 1, 0x0, .w1s, 0⟩
/-! Registers of 16_clocks.md -/

/-- CK_REFCFG.FREQ [25:24] RO, reset F (16). -/
def CK_REFCFG_FREQ : Fld := ⟨.ck, 255, 0x40, 25, 24, 1, 0x0, .ro, 0⟩
/-- CK_REFCFG.TOL [20:16] RO, reset F (16). -/
def CK_REFCFG_TOL : Fld := ⟨.ck, 255, 0x40, 20, 16, 1, 0x0, .ro, 0⟩
/-- CK_REFCFG.VALID [12:12] RO, reset F (16). -/
def CK_REFCFG_VALID : Fld := ⟨.ck, 255, 0x40, 12, 12, 1, 0x0, .ro, 0⟩
/-- CK_REFCFG.REFDLY [11:0] RO, reset F (16). -/
def CK_REFCFG_REFDLY : Fld := ⟨.ck, 255, 0x40, 11, 0, 1, 0x0, .ro, 0⟩
/-- CK_STS.SWID [15:12] RO, reset 0x0 (16). -/
def CK_STS_SWID : Fld := ⟨.ck, 255, 0x44, 15, 12, 1, 0x0, .ro, 0x0⟩
/-- CK_STS.GATEFRC [10:10] W1C, reset 0 (16). -/
def CK_STS_GATEFRC : Fld := ⟨.ck, 255, 0x44, 10, 10, 1, 0x0, .w1c, 0⟩
/-- CK_STS.SWTO [9:9] W1C, reset 0 (16). -/
def CK_STS_SWTO : Fld := ⟨.ck, 255, 0x44, 9, 9, 1, 0x0, .w1c, 0⟩
/-- CK_STS.REFLOSS [8:8] W1C, reset 0 (16). -/
def CK_STS_REFLOSS : Fld := ⟨.ck, 255, 0x44, 8, 8, 1, 0x0, .w1c, 0⟩
/-- CK_STS.TICKSRC [5:5] RO, reset 0 (16). -/
def CK_STS_TICKSRC : Fld := ⟨.ck, 255, 0x44, 5, 5, 1, 0x0, .ro, 0⟩
/-- CK_STS.COAST [4:4] RO, reset 0 (16). -/
def CK_STS_COAST : Fld := ⟨.ck, 255, 0x44, 4, 4, 1, 0x0, .ro, 0⟩
/-- CK_STS.REFST [1:0] RO, reset 0b00 (16). -/
def CK_STS_REFST : Fld := ⟨.ck, 255, 0x44, 1, 0, 1, 0x0, .ro, 0b00⟩
/-- CK_LOOPSTS.HOST [4:4] RO, reset 0 (16). -/
def CK_LOOPSTS_HOST : Fld := ⟨.ck, 255, 0x48, 4, 4, 1, 0x0, .ro, 0⟩
/-- CK_LOOPSTS.FPLL1 [3:3] RO, reset 0 (16). -/
def CK_LOOPSTS_FPLL1 : Fld := ⟨.ck, 255, 0x48, 3, 3, 1, 0x0, .ro, 0⟩
/-- CK_LOOPSTS.FPLL0 [2:2] RO, reset 0 (16). -/
def CK_LOOPSTS_FPLL0 : Fld := ⟨.ck, 255, 0x48, 2, 2, 1, 0x0, .ro, 0⟩
/-- CK_LOOPSTS.NET [1:1] RO, reset 0 (16). -/
def CK_LOOPSTS_NET : Fld := ⟨.ck, 255, 0x48, 1, 1, 1, 0x0, .ro, 0⟩
/-- CK_LOOPSTS.ENG [0:0] RO, reset 0 (16). -/
def CK_LOOPSTS_ENG : Fld := ⟨.ck, 255, 0x48, 0, 0, 1, 0x0, .ro, 0⟩
/-- CK_FPLL.EN [31:31] RW, reset 0 (16). -/
def CK_FPLL_EN : Fld := ⟨.ck, 255, 0x50, 31, 31, 2, 0x4, .rw, 0⟩
/-- CK_FPLL.RANGE [16:16] W1C, reset 0 (16). -/
def CK_FPLL_RANGE : Fld := ⟨.ck, 255, 0x50, 16, 16, 2, 0x4, .w1c, 0⟩
/-- CK_FPLL.FM [7:0] RW, reset 0x00 (16). -/
def CK_FPLL_FM : Fld := ⟨.ck, 255, 0x50, 7, 0, 2, 0x4, .rw, 0x00⟩
/-- CK_GATEID.VALID [31:31] RO, reset 0 (16). -/
def CK_GATEID_VALID : Fld := ⟨.ck, 255, 0x58, 31, 31, 1, 0x0, .ro, 0⟩
/-- CK_GATEID.OFFS [26:12] RO, reset 0 (16). -/
def CK_GATEID_OFFS : Fld := ⟨.ck, 255, 0x58, 26, 12, 1, 0x0, .ro, 0⟩
/-- CK_FCLK.BUSY [31:31] RO, reset 0 (16). -/
def CK_FCLK_BUSY : Fld := ⟨.ck, 255, 0x60, 31, 31, 8, 0x4, .ro, 0⟩
/-- CK_FCLK.SRC [9:8] RW, reset 0b00 (16). -/
def CK_FCLK_SRC : Fld := ⟨.ck, 255, 0x60, 9, 8, 8, 0x4, .rw, 0b00⟩
/-- CK_FCLK.DIV [7:0] RW, reset 0x07 (16). -/
def CK_FCLK_DIV : Fld := ⟨.ck, 255, 0x60, 7, 0, 8, 0x4, .rw, 0x07⟩
/-! Registers of 17_power_and_governor.md -/

/-- PW_CAP.CAP [15:0] RW, reset 0x0671 (17). -/
def PW_CAP_CAP : Fld := ⟨.pw, 255, 0x40, 15, 0, 1, 0x0, .rw, 0x0671⟩
/-- PW_EPOCH.COUNT [31:0] RO, reset 0 (17). -/
def PW_EPOCH_COUNT : Fld := ⟨.pw, 255, 0x44, 31, 0, 1, 0x0, .ro, 0⟩
/-- PW_BUDGET.WORD [31:0] RO, reset 0 (17). -/
def PW_BUDGET_WORD : Fld := ⟨.pw, 255, 0x48, 31, 0, 1, 0x0, .ro, 0⟩
/-- PW_GOVSTS.TRIPPED [3:3] RO, reset 0 (17). -/
def PW_GOVSTS_TRIPPED : Fld := ⟨.pw, 255, 0x4c, 3, 3, 1, 0x0, .ro, 0⟩
/-- PW_GOVSTS.CAPEXC [2:2] W1C, reset 0 (17). -/
def PW_GOVSTS_CAPEXC : Fld := ⟨.pw, 255, 0x4c, 2, 2, 1, 0x0, .w1c, 0⟩
/-- PW_GOVSTS.THROT [1:1] RO, reset 0 (17). -/
def PW_GOVSTS_THROT : Fld := ⟨.pw, 255, 0x4c, 1, 1, 1, 0x0, .ro, 0⟩
/-- PW_GOVSTS.OVERCAP [0:0] RO, reset 0 (17). -/
def PW_GOVSTS_OVERCAP : Fld := ⟨.pw, 255, 0x4c, 0, 0, 1, 0x0, .ro, 0⟩
/-- PW_THERM.THROT [15:8] RW, reset 0x64 (17). -/
def PW_THERM_THROT : Fld := ⟨.pw, 255, 0x50, 15, 8, 1, 0x0, .rw, 0x64⟩
/-- PW_THERM.ALERT [7:0] RW, reset 0x5F (17). -/
def PW_THERM_ALERT : Fld := ⟨.pw, 255, 0x50, 7, 0, 1, 0x0, .rw, 0x5F⟩
/-- PW_TTRIP.TRIP [7:0] RW, reset 0x70 (17). -/
def PW_TTRIP_TRIP : Fld := ⟨.pw, 255, 0x54, 7, 0, 1, 0x0, .rw, 0x70⟩
/-- PW_HOT.INDEX [22:16] RO, reset 0x00 (17). -/
def PW_HOT_INDEX : Fld := ⟨.pw, 255, 0x58, 22, 16, 1, 0x0, .ro, 0x00⟩
/-- PW_HOT.TEMP [9:0] RO, reset 0x000 (17). -/
def PW_HOT_TEMP : Fld := ⟨.pw, 255, 0x58, 9, 0, 1, 0x0, .ro, 0x000⟩
/-- PW_LOOPCTL.HOST [1:1] RW, reset 0 (17). -/
def PW_LOOPCTL_HOST : Fld := ⟨.pw, 255, 0x5c, 1, 1, 1, 0x0, .rw, 0⟩
/-- PW_LOOPCTL.ENG [0:0] RW, reset 0 (17). -/
def PW_LOOPCTL_ENG : Fld := ⟨.pw, 255, 0x5c, 0, 0, 1, 0x0, .rw, 0⟩
/-- PW_AGEGB.GB [7:0] RW, reset 0x0A (17). -/
def PW_AGEGB_GB : Fld := ⟨.pw, 255, 0x60, 7, 0, 1, 0x0, .rw, 0x0A⟩
/-- PW_RAILSTS.GOOD [23:0] RO, reset 0 (17). -/
def PW_RAILSTS_GOOD : Fld := ⟨.pw, 255, 0x64, 23, 0, 1, 0x0, .ro, 0⟩
/-- PW_VCCOSTS.PRESENT [19:0] RO, reset 0 (17). -/
def PW_VCCOSTS_PRESENT : Fld := ⟨.pw, 255, 0x68, 19, 0, 1, 0x0, .ro, 0⟩
/-- PW_SENSFAIL.FAIL [31:0] RO, reset 0 (17). -/
def PW_SENSFAIL_FAIL : Fld := ⟨.pw, 255, 0x70, 31, 0, 3, 0x4, .ro, 0⟩
/-- PW_TEMP.TEMP [9:0] RO, reset 0x000 (17). -/
def PW_TEMP_TEMP : Fld := ⟨.pw, 255, 0x100, 9, 0, 72, 0x4, .ro, 0x000⟩
/-- PW_VMON.MV [11:0] RO, reset 0x000 (17). -/
def PW_VMON_MV : Fld := ⟨.pw, 255, 0x240, 11, 0, 24, 0x4, .ro, 0x000⟩
/-- PW_AGE.CODE [11:8] RO, reset 0x0 (17). -/
def PW_AGE_CODE : Fld := ⟨.pw, 255, 0x300, 11, 8, 64, 0x4, .ro, 0x0⟩
/-- PW_AGE.MARG [7:0] RO, reset 0x00 (17). -/
def PW_AGE_MARG : Fld := ⟨.pw, 255, 0x300, 7, 0, 64, 0x4, .ro, 0x00⟩
/-- PW_ENGL.COUNT [31:0] RO, reset 0 (17). -/
def PW_ENGL_COUNT : Fld := ⟨.pw, 255, 0x400, 31, 0, 82, 0x8, .ro, 0⟩
/-- PW_ENGH.COUNT [31:0] RO, reset 0 (17). -/
def PW_ENGH_COUNT : Fld := ⟨.pw, 255, 0x404, 31, 0, 82, 0x8, .ro, 0⟩
/-- EG_ADMCTL.FREE [8:8] RW, reset 0 (17). -/
def EG_ADMCTL_FREE : Fld := ⟨.eg, 255, 0x60, 8, 8, 1, 0x0, .rw, 0⟩
/-- EG_ADMCTL.WT [3:0] RW, reset 0x0 (17). -/
def EG_ADMCTL_WT : Fld := ⟨.eg, 255, 0x60, 3, 0, 1, 0x0, .rw, 0x0⟩
/-- EG_ADMBRSV.MW [15:0] RW, reset 0x0000 (17). -/
def EG_ADMBRSV_MW : Fld := ⟨.eg, 255, 0x64, 15, 0, 1, 0x0, .rw, 0x0000⟩
/-- EG_ADMTH.TLIM [7:0] RW, reset 0x5F (17). -/
def EG_ADMTH_TLIM : Fld := ⟨.eg, 255, 0x68, 7, 0, 1, 0x0, .rw, 0x5F⟩
/-- EG_ADMDEPTH.DEPTH [23:0] RW, reset 0x00_FFFF (17). -/
def EG_ADMDEPTH_DEPTH : Fld := ⟨.eg, 255, 0x6c, 23, 0, 1, 0x0, .rw, 0x00FFFF⟩
/-- EG_ADMCOST.INIT [23:0] RW, reset 0x00_03FF (17). -/
def EG_ADMCOST_INIT : Fld := ⟨.eg, 255, 0x70, 23, 0, 1, 0x0, .rw, 0x0003FF⟩
/-- EG_ADMLAST.LAST [23:0] RO, reset 0 (17). -/
def EG_ADMLAST_LAST : Fld := ⟨.eg, 255, 0x74, 23, 0, 1, 0x0, .ro, 0⟩
/-- EG_ADMBKT.BKT [31:0] RO, reset 0 (17). -/
def EG_ADMBKT_BKT : Fld := ⟨.eg, 255, 0x78, 31, 0, 1, 0x0, .ro, 0⟩
/-- EG_ADMSTS.HOT [25:16] RO, reset 0x000 (17). -/
def EG_ADMSTS_HOT : Fld := ⟨.eg, 255, 0x7c, 25, 16, 1, 0x0, .ro, 0x000⟩
/-- EG_ADMSTS.HOTSTOP [2:2] RO, reset 0 (17). -/
def EG_ADMSTS_HOTSTOP : Fld := ⟨.eg, 255, 0x7c, 2, 2, 1, 0x0, .ro, 0⟩
/-- EG_ADMSTS.DEMAND [1:1] RO, reset 0 (17). -/
def EG_ADMSTS_DEMAND : Fld := ⟨.eg, 255, 0x7c, 1, 1, 1, 0x0, .ro, 0⟩
/-- EG_ADMSTS.THROT [0:0] RO, reset 0 (17). -/
def EG_ADMSTS_THROT : Fld := ⟨.eg, 255, 0x7c, 0, 0, 1, 0x0, .ro, 0⟩
/-- EG_ADMCNT.COUNT [31:0] RC, reset 0 (17). -/
def EG_ADMCNT_COUNT : Fld := ⟨.eg, 255, 0x80, 31, 0, 1, 0x0, .rc, 0⟩
/-- EG_BIAS.CODE [3:0] RO, reset 0x0 (17). -/
def EG_BIAS_CODE : Fld := ⟨.eg, 255, 0x84, 3, 0, 1, 0x0, .ro, 0x0⟩
/-! Registers of 18_startup_and_reset.md -/

/-- GL_STS.STRAPMIS [8:8] RO, reset 0 (18). -/
def GL_STS_STRAPMIS : Fld := ⟨.gl, 255, 0x40, 8, 8, 1, 0x0, .ro, 0⟩
/-- GL_STS.ROUTES [6:5] RO, reset 0b00 (18). -/
def GL_STS_ROUTES : Fld := ⟨.gl, 255, 0x40, 6, 5, 1, 0x0, .ro, 0b00⟩
/-- GL_STS.IDREC [4:4] RO, reset 0 (18). -/
def GL_STS_IDREC : Fld := ⟨.gl, 255, 0x40, 4, 4, 1, 0x0, .ro, 0⟩
/-- GL_STS.PHASE [2:0] RO, reset 0b001 (18). -/
def GL_STS_PHASE : Fld := ⟨.gl, 255, 0x40, 2, 0, 1, 0x0, .ro, 0b001⟩
/-- GL_STRAPS.PUDC [12:12] RO, reset S (18). -/
def GL_STRAPS_PUDC : Fld := ⟨.gl, 255, 0x44, 12, 12, 1, 0x0, .ro, 0⟩
/-- GL_STRAPS.CFG_MODE [9:8] RO, reset S (18). -/
def GL_STRAPS_CFG_MODE : Fld := ⟨.gl, 255, 0x44, 9, 8, 1, 0x0, .ro, 0⟩
/-- GL_STRAPS.DEV_ID [5:0] RO, reset S (18). -/
def GL_STRAPS_DEV_ID : Fld := ⟨.gl, 255, 0x44, 5, 0, 1, 0x0, .ro, 0⟩
/-- GL_RSTCAUSE.WDOG [4:4] W1C, reset 0 (18). -/
def GL_RSTCAUSE_WDOG : Fld := ⟨.gl, 255, 0x48, 4, 4, 1, 0x0, .w1c, 0⟩
/-- GL_RSTCAUSE.SOFT [3:3] W1C, reset 0 (18). -/
def GL_RSTCAUSE_SOFT : Fld := ⟨.gl, 255, 0x48, 3, 3, 1, 0x0, .w1c, 0⟩
/-- GL_RSTCAUSE.PIN [2:2] W1C, reset 0 (18). -/
def GL_RSTCAUSE_PIN : Fld := ⟨.gl, 255, 0x48, 2, 2, 1, 0x0, .w1c, 0⟩
/-- GL_RSTCAUSE.MAINSUP [1:1] W1C, reset 0 (18). -/
def GL_RSTCAUSE_MAINSUP : Fld := ⟨.gl, 255, 0x48, 1, 1, 1, 0x0, .w1c, 0⟩
/-- GL_RSTCAUSE.COLD [0:0] W1C, reset 1 (18). -/
def GL_RSTCAUSE_COLD : Fld := ⟨.gl, 255, 0x48, 0, 0, 1, 0x0, .w1c, 1⟩
/-- GL_RSTCTL.KEY [15:8] WO, reset 0x00 (18). -/
def GL_RSTCTL_KEY : Fld := ⟨.gl, 255, 0x4c, 15, 8, 1, 0x0, .wo, 0x00⟩
/-- GL_RSTCTL.WARM [0:0] W1S, self-clearing, reset 0 (18). -/
def GL_RSTCTL_WARM : Fld := ⟨.gl, 255, 0x4c, 0, 0, 1, 0x0, .w1s, 0⟩
/-- GL_RSTCNT.COUNT [15:0] RO, reset 0x0000 (18). -/
def GL_RSTCNT_COUNT : Fld := ⟨.gl, 255, 0x50, 15, 0, 1, 0x0, .ro, 0x0000⟩
/-! Registers of 19_fault_collection.md -/

/-- FC_STS.DEVFAIL [3:3] RO, reset 0 (19). -/
def FC_STS_DEVFAIL : Fld := ⟨.fc, 255, 0x40, 3, 3, 1, 0x0, .ro, 0⟩
/-- FC_STS.FLTS [2:2] RO, reset 1 (19). -/
def FC_STS_FLTS : Fld := ⟨.fc, 255, 0x40, 2, 2, 1, 0x0, .ro, 1⟩
/-- FC_STS.FLTP [1:1] RO, reset 0 (19). -/
def FC_STS_FLTP : Fld := ⟨.fc, 255, 0x40, 1, 1, 1, 0x0, .ro, 0⟩
/-- FC_STS.PEND [0:0] RO, reset 0 (19). -/
def FC_STS_PEND : Fld := ⟨.fc, 255, 0x40, 0, 0, 1, 0x0, .ro, 0⟩
/-- FC_ACK.ACK [0:0] W1S, self-clearing, reset 0 (19). -/
def FC_ACK_ACK : Fld := ⟨.fc, 255, 0x44, 0, 0, 1, 0x0, .w1s, 0⟩
/-- FC_PWIDTH.WIDTH [15:0] RW, reset 0x0001 (19). -/
def FC_PWIDTH_WIDTH : Fld := ⟨.fc, 255, 0x48, 15, 0, 1, 0x0, .rw, 0x0001⟩
/-- FC_PAIRSRC.VALID [31:31] W1C, reset 0 (19). -/
def FC_PAIRSRC_VALID : Fld := ⟨.fc, 255, 0x50, 31, 31, 1, 0x0, .w1c, 0⟩
/-- FC_PAIRSRC.PAGE [19:5] RO, reset 0 (19). -/
def FC_PAIRSRC_PAGE : Fld := ⟨.fc, 255, 0x50, 19, 5, 1, 0x0, .ro, 0⟩
/-- FC_PAIRSRC.BIT [4:0] RO, reset 0 (19). -/
def FC_PAIRSRC_BIT : Fld := ⟨.fc, 255, 0x50, 4, 0, 1, 0x0, .ro, 0⟩
/-- FC_LAST.CLASS [23:22] RO, reset 0b00 (19). -/
def FC_LAST_CLASS : Fld := ⟨.fc, 255, 0x54, 23, 22, 1, 0x0, .ro, 0b00⟩
/-- FC_LAST.PAGE [19:5] RO, reset 0 (19). -/
def FC_LAST_PAGE : Fld := ⟨.fc, 255, 0x54, 19, 5, 1, 0x0, .ro, 0⟩
/-- FC_LAST.BIT [4:0] RO, reset 0 (19). -/
def FC_LAST_BIT : Fld := ⟨.fc, 255, 0x54, 4, 0, 1, 0x0, .ro, 0⟩
/-- FC_TYPESUM.SUM [19:0] RO, reset 0 (19). -/
def FC_TYPESUM_SUM : Fld := ⟨.fc, 255, 0x60, 19, 0, 1, 0x0, .ro, 0⟩
/-- FC_EGSUML.SUM [31:0] RO, reset 0 (19). -/
def FC_EGSUML_SUM : Fld := ⟨.fc, 255, 0x64, 31, 0, 1, 0x0, .ro, 0⟩
/-- FC_EGSUMH.SUM [31:0] RO, reset 0 (19). -/
def FC_EGSUMH_SUM : Fld := ⟨.fc, 255, 0x68, 31, 0, 1, 0x0, .ro, 0⟩
/-- FC_NCSUM.SUM [31:0] RO, reset 0 (19). -/
def FC_NCSUM_SUM : Fld := ⟨.fc, 255, 0x70, 31, 0, 4, 0x4, .ro, 0⟩
/-- FC_CLSCNT.COUNT [31:0] RC, reset 0 (19). -/
def FC_CLSCNT_COUNT : Fld := ⟨.fc, 255, 0x80, 31, 0, 4, 0x4, .rc, 0⟩
/-- FC_VMAP.C0EN [15:15] RW, reset 0 (19). -/
def FC_VMAP_C0EN : Fld := ⟨.fc, 255, 0x100, 15, 15, 20, 0x4, .rw, 0⟩
/-- FC_VMAP.VC0 [13:8] RW, reset 0x02 (19). -/
def FC_VMAP_VC0 : Fld := ⟨.fc, 255, 0x100, 13, 8, 20, 0x4, .rw, 0x02⟩
/-- FC_VMAP.VC12 [5:0] RW, reset 0x01 (19). -/
def FC_VMAP_VC12 : Fld := ⟨.fc, 255, 0x100, 5, 0, 20, 0x4, .rw, 0x01⟩
/-- FC_C3VEC.VEC [5:0] RW, reset 0x00 (19). -/
def FC_C3VEC_VEC : Fld := ⟨.fc, 255, 0x150, 5, 0, 1, 0x0, .rw, 0x00⟩
/-- GL_WDCTL.KEY [31:24] WO, reset 0x00 (19). -/
def GL_WDCTL_KEY : Fld := ⟨.gl, 255, 0x100, 31, 24, 1, 0x0, .wo, 0x00⟩
/-- GL_WDCTL.ACTION [9:8] RW, reset 0b00 (19). -/
def GL_WDCTL_ACTION : Fld := ⟨.gl, 255, 0x100, 9, 8, 1, 0x0, .rw, 0b00⟩
/-- GL_WDCTL.WEN [1:1] RW, reset 0 (19). -/
def GL_WDCTL_WEN : Fld := ⟨.gl, 255, 0x100, 1, 1, 1, 0x0, .rw, 0⟩
/-- GL_WDCTL.EN [0:0] RW, reset 0 (19). -/
def GL_WDCTL_EN : Fld := ⟨.gl, 255, 0x100, 0, 0, 1, 0x0, .rw, 0⟩
/-- GL_WDPER.WARN [31:16] RW, reset 0x0000 (19). -/
def GL_WDPER_WARN : Fld := ⟨.gl, 255, 0x104, 31, 16, 1, 0x0, .rw, 0x0000⟩
/-- GL_WDPER.PERIOD [15:0] RW, reset 0x03E7 (19). -/
def GL_WDPER_PERIOD : Fld := ⟨.gl, 255, 0x104, 15, 0, 1, 0x0, .rw, 0x03E7⟩
/-- GL_WDKICK.KICK [15:0] WO, reset 0x0000 (19). -/
def GL_WDKICK_KICK : Fld := ⟨.gl, 255, 0x108, 15, 0, 1, 0x0, .wo, 0x0000⟩
/-- GL_WDCNT.COUNT [31:0] RO, reset 0 (19). -/
def GL_WDCNT_COUNT : Fld := ⟨.gl, 255, 0x10c, 31, 0, 1, 0x0, .ro, 0⟩
/-- GL_WDSTS.HELD [2:2] RO, reset 0 (19). -/
def GL_WDSTS_HELD : Fld := ⟨.gl, 255, 0x110, 2, 2, 1, 0x0, .ro, 0⟩
/-- GL_WDSTS.EXP [1:1] W1C, reset 0 (19). -/
def GL_WDSTS_EXP : Fld := ⟨.gl, 255, 0x110, 1, 1, 1, 0x0, .w1c, 0⟩
/-- GL_WDSTS.RUNNING [0:0] RO, reset 0 (19). -/
def GL_WDSTS_RUNNING : Fld := ⟨.gl, 255, 0x110, 0, 0, 1, 0x0, .ro, 0⟩
/-! Registers of 20_debug_and_freeze.md -/

/-- DB_CTL.SEQALL [23:23] WO, reset 0 (20). -/
def DB_CTL_SEQALL : Fld := ⟨.db, 255, 0x40, 23, 23, 1, 0x0, .wo, 0⟩
/-- DB_CTL.SEQSECT [22:20] WO, reset 0 (20). -/
def DB_CTL_SEQSECT : Fld := ⟨.db, 255, 0x40, 22, 20, 1, 0x0, .wo, 0⟩
/-- DB_CTL.SEQCLU [19:16] WO, reset 0 (20). -/
def DB_CTL_SEQCLU : Fld := ⟨.db, 255, 0x40, 19, 16, 1, 0x0, .wo, 0⟩
/-- DB_CTL.SEQ [9:8] WO, reset 0b00 (20). -/
def DB_CTL_SEQ : Fld := ⟨.db, 255, 0x40, 9, 8, 1, 0x0, .wo, 0b00⟩
/-- DB_CTL.STEPCLS [2:2] RW, reset 0 (20). -/
def DB_CTL_STEPCLS : Fld := ⟨.db, 255, 0x40, 2, 2, 1, 0x0, .rw, 0⟩
/-- DB_CTL.PWREMU [1:1] RW, reset 1 (20). -/
def DB_CTL_PWREMU : Fld := ⟨.db, 255, 0x40, 1, 1, 1, 0x0, .rw, 1⟩
/-- DB_CTL.WDHOLD [0:0] RW, reset 0 (20). -/
def DB_CTL_WDHOLD : Fld := ⟨.db, 255, 0x40, 0, 0, 1, 0x0, .rw, 0⟩
/-- DB_AUTHCMD.LEVEL [9:8] WO, reset 0b00 (20). -/
def DB_AUTHCMD_LEVEL : Fld := ⟨.db, 255, 0x44, 9, 8, 1, 0x0, .wo, 0b00⟩
/-- DB_AUTHCMD.OP [1:0] WO, reset 0b00 (20). -/
def DB_AUTHCMD_OP : Fld := ⟨.db, 255, 0x44, 1, 0, 1, 0x0, .wo, 0b00⟩
/-- DB_AUTHSTS.CNT [31:28] RO, reset 0 (20). -/
def DB_AUTHSTS_CNT : Fld := ⟨.db, 255, 0x48, 31, 28, 1, 0x0, .ro, 0⟩
/-- DB_AUTHSTS.ERR [26:24] RO, reset 0b000 (20). -/
def DB_AUTHSTS_ERR : Fld := ⟨.db, 255, 0x48, 26, 24, 1, 0x0, .ro, 0b000⟩
/-- DB_AUTHSTS.KEYFULL [17:17] RO, reset F (20). -/
def DB_AUTHSTS_KEYFULL : Fld := ⟨.db, 255, 0x48, 17, 17, 1, 0x0, .ro, 0⟩
/-- DB_AUTHSTS.KEYOBS [16:16] RO, reset F (20). -/
def DB_AUTHSTS_KEYOBS : Fld := ⟨.db, 255, 0x48, 16, 16, 1, 0x0, .ro, 0⟩
/-- DB_AUTHSTS.LOCKOUT [9:9] RO, reset 0 (20). -/
def DB_AUTHSTS_LOCKOUT : Fld := ⟨.db, 255, 0x48, 9, 9, 1, 0x0, .ro, 0⟩
/-- DB_AUTHSTS.CHAL [8:8] RO, reset 0 (20). -/
def DB_AUTHSTS_CHAL : Fld := ⟨.db, 255, 0x48, 8, 8, 1, 0x0, .ro, 0⟩
/-- DB_AUTHSTS.OWNER [5:4] RO, reset 0b00 (20). -/
def DB_AUTHSTS_OWNER : Fld := ⟨.db, 255, 0x48, 5, 4, 1, 0x0, .ro, 0b00⟩
/-- DB_AUTHSTS.LEVEL [1:0] RO, reset 0b00 (20). -/
def DB_AUTHSTS_LEVEL : Fld := ⟨.db, 255, 0x48, 1, 0, 1, 0x0, .ro, 0b00⟩
/-- DB_NONCEL.NONCE [31:0] RO, reset 0 (20). -/
def DB_NONCEL_NONCE : Fld := ⟨.db, 255, 0x50, 31, 0, 1, 0x0, .ro, 0⟩
/-- DB_NONCEH.NONCE [31:0] RO, reset 0 (20). -/
def DB_NONCEH_NONCE : Fld := ⟨.db, 255, 0x54, 31, 0, 1, 0x0, .ro, 0⟩
/-- DB_RESP.RESP [31:0] WO, reset 0 (20). -/
def DB_RESP_RESP : Fld := ⟨.db, 255, 0x60, 31, 0, 4, 0x4, .wo, 0⟩
/-- DB_ADDRL.ADDR [31:0] RW, reset 0 (20). -/
def DB_ADDRL_ADDR : Fld := ⟨.db, 255, 0x80, 31, 0, 1, 0x0, .rw, 0⟩
/-- DB_ADDRH.ADDR [11:0] RW, reset 0 (20). -/
def DB_ADDRH_ADDR : Fld := ⟨.db, 255, 0x84, 11, 0, 1, 0x0, .rw, 0⟩
/-- DB_CMD.GO [8:8] W1S, self-clearing, reset 0 (20). -/
def DB_CMD_GO : Fld := ⟨.db, 255, 0x88, 8, 8, 1, 0x0, .w1s, 0⟩
/-- DB_CMD.PEEK [5:5] RW, reset 0 (20). -/
def DB_CMD_PEEK : Fld := ⟨.db, 255, 0x88, 5, 5, 1, 0x0, .rw, 0⟩
/-- DB_CMD.RSIZE [4:4] RW, reset 0 (20). -/
def DB_CMD_RSIZE : Fld := ⟨.db, 255, 0x88, 4, 4, 1, 0x0, .rw, 0⟩
/-- DB_CMD.OP [3:0] RW, reset 0x0 (20). -/
def DB_CMD_OP : Fld := ⟨.db, 255, 0x88, 3, 0, 1, 0x0, .rw, 0x0⟩
/-- DB_CMDSTS.ERR [15:8] RO, reset 0x00 (20). -/
def DB_CMDSTS_ERR : Fld := ⟨.db, 255, 0x8c, 15, 8, 1, 0x0, .ro, 0x00⟩
/-- DB_CMDSTS.BUSY [0:0] RO, reset 0 (20). -/
def DB_CMDSTS_BUSY : Fld := ⟨.db, 255, 0x8c, 0, 0, 1, 0x0, .ro, 0⟩
/-- DB_WMASKL.MASK [31:0] RW, reset 0 (20). -/
def DB_WMASKL_MASK : Fld := ⟨.db, 255, 0x90, 31, 0, 1, 0x0, .rw, 0⟩
/-- DB_WMASKH.MASK [31:0] RW, reset 0 (20). -/
def DB_WMASKH_MASK : Fld := ⟨.db, 255, 0x94, 31, 0, 1, 0x0, .rw, 0⟩
/-- DB_WINSEL.GROUP [5:0] RW, reset 0 (20). -/
def DB_WINSEL_GROUP : Fld := ⟨.db, 255, 0x98, 5, 0, 1, 0x0, .rw, 0⟩
/-- DB_DATA.DATA [31:0] RW, reset 0 (20). -/
def DB_DATA_DATA : Fld := ⟨.db, 255, 0x100, 31, 0, 16, 0x4, .rw, 0⟩
/-- DB_HALTL.HALT [31:0] W1S, reset 0 (20). -/
def DB_HALTL_HALT : Fld := ⟨.db, 255, 0x140, 31, 0, 1, 0x0, .w1s, 0⟩
/-- DB_HALTH.HALT [31:0] W1S, reset 0 (20). -/
def DB_HALTH_HALT : Fld := ⟨.db, 255, 0x144, 31, 0, 1, 0x0, .w1s, 0⟩
/-- DB_RELL.REL [31:0] W1S, self-clearing, reset 0 (20). -/
def DB_RELL_REL : Fld := ⟨.db, 255, 0x148, 31, 0, 1, 0x0, .w1s, 0⟩
/-- DB_RELH.REL [31:0] W1S, self-clearing, reset 0 (20). -/
def DB_RELH_REL : Fld := ⟨.db, 255, 0x14c, 31, 0, 1, 0x0, .w1s, 0⟩
/-- DB_STEPL.STEP [31:0] W1S, self-clearing, reset 0 (20). -/
def DB_STEPL_STEP : Fld := ⟨.db, 255, 0x150, 31, 0, 1, 0x0, .w1s, 0⟩
/-- DB_STEPH.STEP [31:0] W1S, self-clearing, reset 0 (20). -/
def DB_STEPH_STEP : Fld := ⟨.db, 255, 0x154, 31, 0, 1, 0x0, .w1s, 0⟩
/-- DB_HSTSL.HSTS [31:0] RO, reset 0 (20). -/
def DB_HSTSL_HSTS : Fld := ⟨.db, 255, 0x158, 31, 0, 1, 0x0, .ro, 0⟩
/-- DB_HSTSH.HSTS [31:0] RO, reset 0 (20). -/
def DB_HSTSH_HSTS : Fld := ⟨.db, 255, 0x15c, 31, 0, 1, 0x0, .ro, 0⟩
/-- DB_FFSEL.COL [13:8] RW, reset 0 (20). -/
def DB_FFSEL_COL : Fld := ⟨.db, 255, 0x170, 13, 8, 1, 0x0, .rw, 0⟩
/-- DB_FFSEL.ROW [7:3] RW, reset 0 (20). -/
def DB_FFSEL_ROW : Fld := ⟨.db, 255, 0x170, 7, 3, 1, 0x0, .rw, 0⟩
/-- DB_FFSEL.SECT [2:0] RW, reset 0 (20). -/
def DB_FFSEL_SECT : Fld := ⟨.db, 255, 0x170, 2, 0, 1, 0x0, .rw, 0⟩
/-- DB_FFVAL.VALID [31:31] RO, reset 0 (20). -/
def DB_FFVAL_VALID : Fld := ⟨.db, 255, 0x174, 31, 31, 1, 0x0, .ro, 0⟩
/-- DB_FFVAL.Q [15:0] RO, reset 0 (20). -/
def DB_FFVAL_Q : Fld := ⟨.db, 255, 0x174, 15, 0, 1, 0x0, .ro, 0⟩
/-- GL_FRZ.KEY [31:24] WO, reset 0x00 (20). -/
def GL_FRZ_KEY : Fld := ⟨.gl, 255, 0x140, 31, 24, 1, 0x0, .wo, 0x00⟩
/-- GL_FRZ.REQ [0:0] RW, reset 0 (20). -/
def GL_FRZ_REQ : Fld := ⟨.gl, 255, 0x140, 0, 0, 1, 0x0, .rw, 0⟩
/-- GL_FRZSTS.PIN [9:9] RO, reset 0 (20). -/
def GL_FRZSTS_PIN : Fld := ⟨.gl, 255, 0x144, 9, 9, 1, 0x0, .ro, 0⟩
/-- GL_FRZSTS.REG [8:8] RO, reset 0 (20). -/
def GL_FRZSTS_REG : Fld := ⟨.gl, 255, 0x144, 8, 8, 1, 0x0, .ro, 0⟩
/-- GL_FRZSTS.STATE [1:0] RO, reset 0b00 (20). -/
def GL_FRZSTS_STATE : Fld := ⟨.gl, 255, 0x144, 1, 0, 1, 0x0, .ro, 0b00⟩
/-! Registers of 21_event_recorder_and_flash.md -/

/-- EV_CTL.LIMIT [7:0] RW, reset 0x0F (21). -/
def EV_CTL_LIMIT : Fld := ⟨.ev, 255, 0x40, 7, 0, 1, 0x0, .rw, 0x0F⟩
/-- EV_HEAD.SEQ [31:0] RO, reset 0 (21). -/
def EV_HEAD_SEQ : Fld := ⟨.ev, 255, 0x44, 31, 0, 1, 0x0, .ro, 0⟩
/-- EV_TAIL.SEQ [31:0] RO, reset 0 (21). -/
def EV_TAIL_SEQ : Fld := ⟨.ev, 255, 0x48, 31, 0, 1, 0x0, .ro, 0⟩
/-- EV_STS.EMPTY [31:31] RO, reset 1 (21). -/
def EV_STS_EMPTY : Fld := ⟨.ev, 255, 0x4c, 31, 31, 1, 0x0, .ro, 1⟩
/-- EV_STS.CLRBUSY [30:30] RO, reset 0 (21). -/
def EV_STS_CLRBUSY : Fld := ⟨.ev, 255, 0x4c, 30, 30, 1, 0x0, .ro, 0⟩
/-- EV_STS.BUF [10:0] RO, reset 0 (21). -/
def EV_STS_BUF : Fld := ⟨.ev, 255, 0x4c, 10, 0, 1, 0x0, .ro, 0⟩
/-- EV_LOST.COUNT [31:0] RC, reset 0 (21). -/
def EV_LOST_COUNT : Fld := ⟨.ev, 255, 0x50, 31, 0, 1, 0x0, .rc, 0⟩
/-- EV_RDSEQ.SEQ [31:0] RW, reset 0 (21). -/
def EV_RDSEQ_SEQ : Fld := ⟨.ev, 255, 0x54, 31, 0, 1, 0x0, .rw, 0⟩
/-- EV_SWDATAL.DATA [31:0] RW, reset 0 (21). -/
def EV_SWDATAL_DATA : Fld := ⟨.ev, 255, 0x58, 31, 0, 1, 0x0, .rw, 0⟩
/-- EV_SWDATAH.DATA [31:0] RW, reset 0 (21). -/
def EV_SWDATAH_DATA : Fld := ⟨.ev, 255, 0x5c, 31, 0, 1, 0x0, .rw, 0⟩
/-- EV_SWCODE.CODE [15:0] WO, reset 0 (21). -/
def EV_SWCODE_CODE : Fld := ⟨.ev, 255, 0x60, 15, 0, 1, 0x0, .wo, 0⟩
/-- EV_CLRCMD.OP [1:0] WO, reset 0b00 (21). -/
def EV_CLRCMD_OP : Fld := ⟨.ev, 255, 0x70, 1, 0, 1, 0x0, .wo, 0b00⟩
/-- EV_CLRSTS.CNT [31:28] RO, reset 0 (21). -/
def EV_CLRSTS_CNT : Fld := ⟨.ev, 255, 0x74, 31, 28, 1, 0x0, .ro, 0⟩
/-- EV_CLRSTS.KEY [11:11] RO, reset F (21). -/
def EV_CLRSTS_KEY : Fld := ⟨.ev, 255, 0x74, 11, 11, 1, 0x0, .ro, 0⟩
/-- EV_CLRSTS.LOCKOUT [10:10] RO, reset 0 (21). -/
def EV_CLRSTS_LOCKOUT : Fld := ⟨.ev, 255, 0x74, 10, 10, 1, 0x0, .ro, 0⟩
/-- EV_CLRSTS.AUTH [9:9] RO, reset 0 (21). -/
def EV_CLRSTS_AUTH : Fld := ⟨.ev, 255, 0x74, 9, 9, 1, 0x0, .ro, 0⟩
/-- EV_CLRSTS.CHAL [8:8] RO, reset 0 (21). -/
def EV_CLRSTS_CHAL : Fld := ⟨.ev, 255, 0x74, 8, 8, 1, 0x0, .ro, 0⟩
/-- EV_CLRSTS.ERR [2:0] RO, reset 0b000 (21). -/
def EV_CLRSTS_ERR : Fld := ⟨.ev, 255, 0x74, 2, 0, 1, 0x0, .ro, 0b000⟩
/-- EV_CLRNONCEL.VALUE [31:0] RO, reset 0 (21). -/
def EV_CLRNONCEL_VALUE : Fld := ⟨.ev, 255, 0x78, 31, 0, 1, 0x0, .ro, 0⟩
/-- EV_CLRNONCEH.VALUE [31:0] RO, reset 0 (21). -/
def EV_CLRNONCEH_VALUE : Fld := ⟨.ev, 255, 0x7c, 31, 0, 1, 0x0, .ro, 0⟩
/-- EV_CLRRESP.VALUE [31:0] WO, reset 0 (21). -/
def EV_CLRRESP_VALUE : Fld := ⟨.ev, 255, 0x80, 31, 0, 4, 0x4, .wo, 0⟩
/-- EV_FLADDR.ADDR [23:0] RW, reset 0 (21). -/
def EV_FLADDR_ADDR : Fld := ⟨.ev, 255, 0xa0, 23, 0, 1, 0x0, .rw, 0⟩
/-- EV_FLCMD.ERR [11:8] RO, reset 0x0 (21). -/
def EV_FLCMD_ERR : Fld := ⟨.ev, 255, 0xa4, 11, 8, 1, 0x0, .ro, 0x0⟩
/-- EV_FLCMD.BUSY [7:7] RO, reset 0 (21). -/
def EV_FLCMD_BUSY : Fld := ⟨.ev, 255, 0xa4, 7, 7, 1, 0x0, .ro, 0⟩
/-- EV_FLCMD.GO [4:4] W1S, self-clearing, reset 0 (21). -/
def EV_FLCMD_GO : Fld := ⟨.ev, 255, 0xa4, 4, 4, 1, 0x0, .w1s, 0⟩
/-- EV_FLCMD.OP [1:0] RW, reset 0b00 (21). -/
def EV_FLCMD_OP : Fld := ⟨.ev, 255, 0xa4, 1, 0, 1, 0x0, .rw, 0b00⟩
/-- EV_FLINFO.MAXERASE [31:12] RO, reset 0 (21). -/
def EV_FLINFO_MAXERASE : Fld := ⟨.ev, 255, 0xa8, 31, 12, 1, 0x0, .ro, 0⟩
/-- EV_FLINFO.SECT [11:0] RO, reset 0 (21). -/
def EV_FLINFO_SECT : Fld := ⟨.ev, 255, 0xa8, 11, 0, 1, 0x0, .ro, 0⟩
/-- EV_FLDATA.DATA [31:0] RW, reset 0 (21). -/
def EV_FLDATA_DATA : Fld := ⟨.ev, 255, 0xc0, 31, 0, 8, 0x4, .rw, 0⟩
/-- EV_UARTCTL.BAUD [2:1] RW, reset 0b00 (21). -/
def EV_UARTCTL_BAUD : Fld := ⟨.ev, 255, 0xe0, 2, 1, 1, 0x0, .rw, 0b00⟩
/-- EV_UARTCTL.EN [0:0] RW, reset 1 (21). -/
def EV_UARTCTL_EN : Fld := ⟨.ev, 255, 0xe0, 0, 0, 1, 0x0, .rw, 1⟩
/-- EV_UARTSEQ.SEQ [31:0] RO, reset 0 (21). -/
def EV_UARTSEQ_SEQ : Fld := ⟨.ev, 255, 0xe4, 31, 0, 1, 0x0, .ro, 0⟩
/-- EV_MGMTSTS.SPI [15:8] RO, reset 0x00 (21). -/
def EV_MGMTSTS_SPI : Fld := ⟨.ev, 255, 0xf0, 15, 8, 1, 0x0, .ro, 0x00⟩
/-- EV_MGMTSTS.I2C [7:0] RO, reset 0x00 (21). -/
def EV_MGMTSTS_I2C : Fld := ⟨.ev, 255, 0xf0, 7, 0, 1, 0x0, .ro, 0x00⟩

/-- MSI-X table, message address low [31:2] (15, R441; the layout of the PCI Express specification). -/
def MSIX_ADDRL_ADDR : Fld := ⟨.hp, 255, 0x800, 31, 2, 64, 0x10, .rw, 0⟩
/-- MSI-X table, message address high (15, R441). -/
def MSIX_ADDRH_ADDR : Fld := ⟨.hp, 255, 0x804, 31, 0, 64, 0x10, .rw, 0⟩
/-- MSI-X table, message data (15, R441). -/
def MSIX_DATA_DATA : Fld := ⟨.hp, 255, 0x808, 31, 0, 64, 0x10, .rw, 0⟩
/-- MSI-X table, vector mask (15, R441). -/
def MSIX_CTL_MASK : Fld := ⟨.hp, 255, 0x80c, 0, 0, 64, 0x10, .rw, 1⟩
/-- MSI-X pending bits (15, R441). -/
def MSIX_PBA_PEND : Fld := ⟨.hp, 255, 0xc00, 31, 0, 2, 0x4, .ro, 0⟩

/-- Fields of the pg pages, part 0. -/
def flds_pg_0 : List Fld :=
  [PG_ID_TYPE, PG_ID_INST, PG_ID_LAYOUT, PG_VER_LEVEL,
   PG_CTL_CLKEN, PG_CTL_SRST, PG_CTL_STOP_REQ, PG_CTL_RUN,
   PG_STS_PWRON, PG_STS_WIGN, PG_STS_IDLE, PG_STS_RUNNING,
   PG_FSTK_FSTK, PG_FFRC_FFRC, PG_FCRIT_FCRIT, PG_FEN_FEN,
   PG_PWR_DOM, PG_PWR_EMUL, PG_PWR_STATE, PG_PWR_REQ]

/-- Every field of the pg pages. -/
def flds_pg : List Fld := flds_pg_0

/-- Fields of the gl pages, part 0. -/
def flds_gl_0 : List Fld :=
  [GL_OPTIN_OVRSYNC, GL_OPTIN_PACEDG, GL_WINSEL_GROUP, GL_REGACC_FAB,
   GL_LSCTL_NMEM, GL_LSCTL_MEMBER, GL_LSCTL_STOP, GL_LSCTL_SYNC,
   GL_LSCTL_MASTER, GL_LSCTL_EN, GL_LSLINK_LINK, GL_LSPORTL_PORT,
   GL_LSPORTH_PORT, GL_LSSTS_ORIG, GL_LSSTS_REMOTE, GL_LSSTS_CAUSE,
   GL_LSSTS_STATE, GL_LSLAP_LAP, GL_LSBASE_BASE, GL_STS_STRAPMIS,
   GL_STS_ROUTES, GL_STS_IDREC, GL_STS_PHASE, GL_STRAPS_PUDC,
   GL_STRAPS_CFG_MODE, GL_STRAPS_DEV_ID, GL_RSTCAUSE_WDOG, GL_RSTCAUSE_SOFT,
   GL_RSTCAUSE_PIN, GL_RSTCAUSE_MAINSUP, GL_RSTCAUSE_COLD, GL_RSTCTL_KEY,
   GL_RSTCTL_WARM, GL_RSTCNT_COUNT, GL_WDCTL_KEY, GL_WDCTL_ACTION,
   GL_WDCTL_WEN, GL_WDCTL_EN, GL_WDPER_WARN, GL_WDPER_PERIOD]

/-- Fields of the gl pages, part 1. -/
def flds_gl_1 : List Fld :=
  [GL_WDKICK_KICK, GL_WDCNT_COUNT, GL_WDSTS_HELD, GL_WDSTS_EXP,
   GL_WDSTS_RUNNING, GL_FRZ_KEY, GL_FRZ_REQ, GL_FRZSTS_PIN,
   GL_FRZSTS_REG, GL_FRZSTS_STATE]

/-- Every field of the gl pages. -/
def flds_gl : List Fld := flds_gl_0 ++ flds_gl_1

/-- Fields of the ee pages, part 0. -/
def flds_ee_0 : List Fld :=
  [EE_BANK_CUR, EE_LAPCTL_CLASS, EE_LAPCTL_LCOUNT, EE_PAIR_JOINPEND,
   EE_PAIR_DETACHED, EE_PAIR_REJOIN, EE_PAIR_DETACH, EE_PAIR_ROLE,
   EE_PAIRSTS_RECOV, EE_PAIRSTS_CAUSE, EE_SIGL_SIG, EE_SIGH_SIG]

/-- Every field of the ee pages. -/
def flds_ee : List Fld := flds_ee_0

/-- Fields of the eg pages, part 0. -/
def flds_eg_0 : List Fld :=
  [EG_GEOM_ENG0, EG_GEOM_ROW, EG_GEOM_COL, EG_STEPCLK_LOCKED,
   EG_STEPCLK_DIV, EG_LDSTS_STATE, EG_IMGID_IMGID, EG_PACE_OVRPOL,
   EG_PACE_EDGE, EG_PACE_PIN, EG_DLEARLY_EARLY, EG_DLLATE_EN,
   EG_DLLATE_LATE, EG_LAPSTS_OPTMIS, EG_LAPSTS_LMIS, EG_LAPSTS_WAIT,
   EG_LAPSTS_FIRST, EG_LAPSTS_PEND, EG_OVRCNT_COUNT, EG_LAPMARGIN_MIN,
   EG_LAPCNTL_COUNT, EG_LAPCNTH_COUNT, EG_LSRT_EN, EG_LSRT_DMEM,
   EG_LSRT_DGRP, EG_LSRT_DWORD, EG_LSIMP_LSG, EG_LSIMP_WEN,
   EG_LSSTS_MISS, EG_LSLAPC_LAP, EG_RPLCTL_BEN, EG_RPLSETL_SET,
   EG_RPLSETH_SET, EG_LINKPAIR_PAIR, EG_RPLCNT_LOOSE, EG_RPLCNT_BOUND,
   EG_RPLSTS_PMIS, EG_RPLSTS_VALID, EG_RPLSTS_SRC, EG_LPINL_ADDR]

/-- Fields of the eg pages, part 1. -/
def flds_eg_1 : List Fld :=
  [EG_LPINH_ADDR, EG_LPOUTL_ADDR, EG_LPOUTH_ADDR, EG_LPCNT_COUNT,
   EG_LPCTL_FIN, EG_LPCTL_BUSY, EG_LPCTL_KIDX, EG_LPCTL_EN,
   EG_LPSTS_ERR, EG_LPSTS_DONE, EG_OBSCTL_NEW, EG_OBSCTL_CLASS,
   EG_OBSCTL_MODE, EG_OBSVALL_VAL, EG_OBSVALH_VAL, EG_OBSLAP_LAP,
   EG_OBSSEL_EN, EG_OBSSEL_SRC, EG_OBSSEL_ENG, EG_OBSSEL_BP,
   EG_OBSSEL_ENTRY, EG_FRCSEL_EN, EG_FRCSEL_PERSIST, EG_FRCSEL_VALUE,
   EG_FRCSEL_KIND, EG_FRCSEL_ENG, EG_FRCSEL_BP, EG_FRCSEL_ENTRY,
   EG_FRCSTS_APPLIED, EG_TRCCTL_KIDX, EG_TRCCTL_FLUSH, EG_TRCCTL_CLASS,
   EG_TRCCTL_OBS, EG_TRCCTL_WRAP, EG_TRCCTL_EN, EG_TRCMASK_IN,
   EG_TRCMASK_OUT, EG_TRCBASEL_ADDR, EG_TRCBASEH_ADDR, EG_TRCSIZE_SIZE]

/-- Fields of the eg pages, part 2. -/
def flds_eg_2 : List Fld :=
  [EG_TRCWPTR_WPTR, EG_TRCSTS_ERR, EG_TRCSTS_FULL, EG_TRCSTS_BUSY,
   EG_TRCDROP_COUNT, EG_ADMCTL_FREE, EG_ADMCTL_WT, EG_ADMBRSV_MW,
   EG_ADMTH_TLIM, EG_ADMDEPTH_DEPTH, EG_ADMCOST_INIT, EG_ADMLAST_LAST,
   EG_ADMBKT_BKT, EG_ADMSTS_HOT, EG_ADMSTS_HOTSTOP, EG_ADMSTS_DEMAND,
   EG_ADMSTS_THROT, EG_ADMCNT_COUNT, EG_BIAS_CODE]

/-- Every field of the eg pages. -/
def flds_eg : List Fld := flds_eg_0 ++ flds_eg_1 ++ flds_eg_2

/-- Fields of the cf pages, part 0. -/
def flds_cf_0 : List Fld :=
  [CF_JLADDR_ADDR, CF_JLADDRH_ADDR, CF_JLLEN_LEN, CF_JLCTL_KIDX,
   CF_JLCTL_ABORT, CF_JLCTL_CHKONLY, CF_JLCTL_GO, CF_JLSTS_UNITS,
   CF_JLSTS_REJ, CF_JLSTS_DONE, CF_JLSTS_PHASE, CF_JLCODE_CODE,
   CF_JLOFFS_OFFS, CF_JLWHERE_VALID, CF_JLWHERE_INDEX, CF_JLWHERE_BP,
   CF_JLWHERE_ENG, CF_JLWHERE_GROUP, CF_CTL_ABORT, CF_CTL_DONESYNC,
   CF_CTL_SRC, CF_STS_ERRIN, CF_STS_DONEIN, CF_STS_DONEREL,
   CF_STS_AUTHOK, CF_STS_PEND, CF_STS_PARTIAL, CF_STS_STATE,
   CF_SEQ_NEXT, CF_FRCNT_COUNT, CF_SERR_SEQ, CF_SERR_NETERR,
   CF_SERR_CODE, CF_SRCADDRL_ADDR, CF_SRCADDRH_ADDR, CF_SRCLEN_LEN,
   CF_SRCCTL_KIDX, CF_SRCCTL_GO, CF_STGL_ADDR, CF_STGH_KIDX]

/-- Fields of the cf pages, part 1. -/
def flds_cf_1 : List Fld :=
  [CF_STGH_ADDR, CF_STGSIZE_SIZE, CF_AUTHCTL_KEYEN, CF_AUTHCTL_REQ,
   CF_RFNC_CODE, CF_GFNC_CODE, CF_RFUP_UP, CF_GFUPL_UP,
   CF_GFUPH_UP]

/-- Every field of the cf pages. -/
def flds_cf : List Fld := flds_cf_0 ++ flds_cf_1

/-- Fields of the fb pages, part 0. -/
def flds_fb_0 : List Fld :=
  [FB_STATE_STARTED, FB_GCLKEN_EN, FB_GSRCTL_MASK, FB_GSRCTL_FRC,
   FB_GSRSTS_DRV, FB_GSRSTS_TREE, FB_FMPCTL_MAXOUT, FB_FMPCTL_CKSEL,
   FB_FMPCTL_EN, FB_FMPSTS_BUSY, FB_FMPSTS_LASTERR, FB_FMPSTS_OUTST,
   FB_FMPERRC_COUNT]

/-- Every field of the fb pages. -/
def flds_fb : List Fld := flds_fb_0

/-- Fields of the br pages, part 0. -/
def flds_br_0 : List Fld :=
  [BR_WINCTL_PRIO, BR_STS_PBLOST, BR_CESTK_CE, BR_UESTK_UE,
   BR_CECNT_COUNT]

/-- Every field of the br pages. -/
def flds_br : List Fld := flds_br_0

/-- Fields of the as pages, part 0. -/
def flds_as_0 : List Fld :=
  [AS_OVFSTK_OVF, AS_SEQCTL_START, AS_SEQCTL_EN, AS_SEQSTS_STATE,
   AS_SEQSTS_ERR, AS_SEQSTS_PC, AS_SEQDSH_CEXP, AS_SEQDSH_DSH]

/-- Every field of the as pages. -/
def flds_as : List Fld := flds_as_0

/-- Fields of the sc pages, part 0. -/
def flds_sc_0 : List Fld :=
  [SC_CTL_FRGAP, SC_CTL_KIDX, SC_CTL_UNPOL, SC_CTL_SIGSRC,
   SC_CTL_ENGEN, SC_CTL_FABEN, SC_SCHINT_INT, SC_HBTO_TO,
   SC_SIGBASEL_ADDR, SC_SIGBASEH_ADDR, SC_MCBASEL_ADDR, SC_MCBASEH_ADDR,
   SC_RLSTS_ENG, SC_RLSTS_PRIO, SC_RLSTS_STATE, SC_POS_EVALID,
   SC_POS_ENG, SC_POS_FRAME, SC_FUEADDR_VALID, SC_FUEADDR_WORD,
   SC_FUEADDR_FRAME, SC_PASS_ENG, SC_PASS_FAB, SC_CECNT_SCH,
   SC_CECNT_FAB, SC_EVCNT_RESTART, SC_EVCNT_TMR, SC_EVCNT_SIGERR,
   SC_EVCNT_RELFAIL, SC_SCHEN_EN]

/-- Every field of the sc pages. -/
def flds_sc : List Fld := flds_sc_0

/-- Fields of the ncr pages, part 0. -/
def flds_ncr_0 : List Fld :=
  [NC_RCTL_LOCEN, NC_RCTL_PORTEN, NC_RSTS_HELD, NC_RSTS_DROP,
   NC_RSTS_ROUTE, NC_RERRCNT_DROP, NC_RERRCNT_ROUTE, NC_RCECNT_UE,
   NC_RCECNT_CE]

/-- Every field of the ncr pages. -/
def flds_ncr : List Fld := flds_ncr_0

/-- Fields of the nci pages, part 0. -/
def flds_nci_0 : List Fld :=
  [NC_MODE_FREELOST, NC_MODE_RSV, NC_NITO_TO, NC_NISTS_LOST,
   NC_NISTS_OUTST, NC_TOCNT_COUNT, NC_RTEL_ROUTE, NC_RTEH_VALID,
   NC_RTEH_ROUTE, NC_RTECMD_ERR, NC_RTECMD_BUSY, NC_RTECMD_ORDER,
   NC_RTECMD_RD, NC_RTECMD_WR, NC_RTECMD_INDEX, NC_BRG_PRESENT,
   NC_BRG_FENCED, NC_BRG_KSRC, NC_BRG_KIDX, NC_BRG_RVAR,
   NC_BRG_CLASS]

/-- Every field of the nci pages. -/
def flds_nci : List Fld := flds_nci_0

/-- Fields of the sp pages, part 0. -/
def flds_sp_0 : List Fld :=
  [SP_RET_RET, SP_AWAKE_AWAKE, SP_CECNT_COUNT, SP_UEADDR_VALID,
   SP_UEADDR_WORD, SP_OWN_CLR, SP_OWN_BUSY, SP_OWN_DMAOK,
   SP_OWN_OWNER, SP_DMADESCL_ADDR, SP_DMADESCH_ADDR, SP_DMACTL_KIDX,
   SP_DMACTL_GO, SP_DMASTS_ERR, SP_DMASTS_STATE, SP_DMAREM_REM]

/-- Every field of the sp pages. -/
def flds_sp : List Fld := flds_sp_0

/-- Fields of the mc pages, part 0. -/
def flds_mc_0 : List Fld :=
  [MC_CTL_SAVE, MC_CTL_PERSIST, MC_KDATA_KEY, MC_KCMD_ERR,
   MC_KCMD_BUSY, MC_KCMD_GO, MC_KCMD_OP, MC_KCMD_SLOT,
   MC_TREECTL_INIT, MC_TREESTS_KEYOK, MC_TREESTS_STATE, MC_RKCTL_RATE,
   MC_RKCTL_GO, MC_RKCTL_SLOT, MC_RKSTARTL_ADDR, MC_RKSTARTH_ADDR,
   MC_RKLEN_GROUPS, MC_RKBNDL_ADDR, MC_RKBNDH_ADDR, MC_RKSTS_STATE,
   MC_RKSTS_SLOT, MC_RKSKIP_COUNT, MC_BGSKIP_COUNT, MC_PSNA_VALID,
   MC_PSNA_LEVEL, MC_PSNA_PORT, MC_PSNB_GROUP, MC_KSLOT_STATE,
   MC_KSLOT_GEN, MC_KSLOT_RIGHTS]

/-- Every field of the mc pages. -/
def flds_mc : List Fld := flds_mc_0

/-- Fields of the ml pages, part 0. -/
def flds_ml_0 : List Fld :=
  [ML_CTL_POS, ML_CTL_WAYS, ML_CTL_LPORT, ML_CTL_MAPEN,
   ML_BASE_GIB, ML_SIZE_GIB, ML_PTO_TO, ML_STS_OUTST,
   ML_STS_CAPERR, ML_STS_MAPERR, ML_STS_LINKUP, ML_ERRCNT_PROTO,
   ML_ERRCNT_CE]

/-- Every field of the ml pages. -/
def flds_ml : List Fld := flds_ml_0

/-- Fields of the ln pages, part 0. -/
def flds_ln_0 : List Fld :=
  [LN_QCTL_MH, LN_QSTS_RANGE, LN_QSTS_LOCKED, LN_LCFG_RXINV,
   LN_LCFG_TXINV, LN_LCFG_PROF, LN_LCFG_OD, LN_LCFG_MODE,
   LN_LEQ_CTLE, LN_LEQ_POST, LN_LEQ_MAIN, LN_LEQ_PRE,
   LN_LDFE_TAP, LN_LPWR_STATE, LN_LPWR_REQ, LN_LSTS_EQERR,
   LN_LSTS_TXBADK, LN_LSTS_LOSS, LN_LSTS_LOCK, LN_LERR_COUNT,
   LN_RXBASEL_ADDR, LN_TXBASEL_ADDR, LN_RXBASEH_ADDR, LN_TXBASEH_ADDR,
   LN_RXSIZE_SIZE, LN_TXSIZE_SIZE, LN_RXWP_PTR, LN_TXRP_PTR,
   LN_RXRP_PTR, LN_TXWP_PTR, LN_RINGCTL_ERR, LN_RINGCTL_TXEN,
   LN_RINGCTL_RXEN, LN_RXDROP_COUNT, LN_PCFG_AUTOGLIDE, LN_PCFG_GLIDEIDLE,
   LN_PCFG_BASE, LN_PCFG_WIDTH, LN_PCFG_USE, LN_PCTL_REWIDEN]

/-- Fields of the ln pages, part 1. -/
def flds_ln_1 : List Fld :=
  [LN_PCTL_EN, LN_PSTS_RDEV, LN_PSTS_CFGERR, LN_PSTS_SHED,
   LN_PSTS_CURBASE, LN_PSTS_CURW, LN_PSTS_STATE, LN_PERRCNT_REPLAY,
   LN_PERRCNT_CRC]

/-- Every field of the ln pages. -/
def flds_ln : List Fld := flds_ln_0 ++ flds_ln_1

/-- Fields of the hp pages, part 0. -/
def flds_hp_0 : List Fld :=
  [HP_CTL_ERRCPL, HP_WIN_BASE, HP_LINK_INRESET, HP_LINK_DLUP,
   HP_LINK_WIDTH, HP_LINK_SPEED, HP_ERRSTS_VALID, HP_ERRSTS_KIND,
   HP_ERRSTS_CODE, HP_ERRADDRL_ADDR, HP_ERRADDRH_ADDR, HP_ERRCNT_WR,
   HP_ERRCNT_RD, HP_MSIFRCL_FRC, HP_MSIFRCH_FRC]

/-- Every field of the hp pages. -/
def flds_hp : List Fld := flds_hp_0

/-- Fields of the ck pages, part 0. -/
def flds_ck_0 : List Fld :=
  [CK_REFCFG_FREQ, CK_REFCFG_TOL, CK_REFCFG_VALID, CK_REFCFG_REFDLY,
   CK_STS_SWID, CK_STS_GATEFRC, CK_STS_SWTO, CK_STS_REFLOSS,
   CK_STS_TICKSRC, CK_STS_COAST, CK_STS_REFST, CK_LOOPSTS_HOST,
   CK_LOOPSTS_FPLL1, CK_LOOPSTS_FPLL0, CK_LOOPSTS_NET, CK_LOOPSTS_ENG,
   CK_FPLL_EN, CK_FPLL_RANGE, CK_FPLL_FM, CK_GATEID_VALID,
   CK_GATEID_OFFS, CK_FCLK_BUSY, CK_FCLK_SRC, CK_FCLK_DIV]

/-- Every field of the ck pages. -/
def flds_ck : List Fld := flds_ck_0

/-- Fields of the pw pages, part 0. -/
def flds_pw_0 : List Fld :=
  [PW_CAP_CAP, PW_EPOCH_COUNT, PW_BUDGET_WORD, PW_GOVSTS_TRIPPED,
   PW_GOVSTS_CAPEXC, PW_GOVSTS_THROT, PW_GOVSTS_OVERCAP, PW_THERM_THROT,
   PW_THERM_ALERT, PW_TTRIP_TRIP, PW_HOT_INDEX, PW_HOT_TEMP,
   PW_LOOPCTL_HOST, PW_LOOPCTL_ENG, PW_AGEGB_GB, PW_RAILSTS_GOOD,
   PW_VCCOSTS_PRESENT, PW_SENSFAIL_FAIL, PW_TEMP_TEMP, PW_VMON_MV,
   PW_AGE_CODE, PW_AGE_MARG, PW_ENGL_COUNT, PW_ENGH_COUNT]

/-- Every field of the pw pages. -/
def flds_pw : List Fld := flds_pw_0

/-- Fields of the fc pages, part 0. -/
def flds_fc_0 : List Fld :=
  [FC_STS_DEVFAIL, FC_STS_FLTS, FC_STS_FLTP, FC_STS_PEND,
   FC_ACK_ACK, FC_PWIDTH_WIDTH, FC_PAIRSRC_VALID, FC_PAIRSRC_PAGE,
   FC_PAIRSRC_BIT, FC_LAST_CLASS, FC_LAST_PAGE, FC_LAST_BIT,
   FC_TYPESUM_SUM, FC_EGSUML_SUM, FC_EGSUMH_SUM, FC_NCSUM_SUM,
   FC_CLSCNT_COUNT, FC_VMAP_C0EN, FC_VMAP_VC0, FC_VMAP_VC12,
   FC_C3VEC_VEC]

/-- Every field of the fc pages. -/
def flds_fc : List Fld := flds_fc_0

/-- Fields of the db pages, part 0. -/
def flds_db_0 : List Fld :=
  [DB_CTL_SEQALL, DB_CTL_SEQSECT, DB_CTL_SEQCLU, DB_CTL_SEQ,
   DB_CTL_STEPCLS, DB_CTL_PWREMU, DB_CTL_WDHOLD, DB_AUTHCMD_LEVEL,
   DB_AUTHCMD_OP, DB_AUTHSTS_CNT, DB_AUTHSTS_ERR, DB_AUTHSTS_KEYFULL,
   DB_AUTHSTS_KEYOBS, DB_AUTHSTS_LOCKOUT, DB_AUTHSTS_CHAL, DB_AUTHSTS_OWNER,
   DB_AUTHSTS_LEVEL, DB_NONCEL_NONCE, DB_NONCEH_NONCE, DB_RESP_RESP,
   DB_ADDRL_ADDR, DB_ADDRH_ADDR, DB_CMD_GO, DB_CMD_PEEK,
   DB_CMD_RSIZE, DB_CMD_OP, DB_CMDSTS_ERR, DB_CMDSTS_BUSY,
   DB_WMASKL_MASK, DB_WMASKH_MASK, DB_WINSEL_GROUP, DB_DATA_DATA,
   DB_HALTL_HALT, DB_HALTH_HALT, DB_RELL_REL, DB_RELH_REL,
   DB_STEPL_STEP, DB_STEPH_STEP, DB_HSTSL_HSTS, DB_HSTSH_HSTS]

/-- Fields of the db pages, part 1. -/
def flds_db_1 : List Fld :=
  [DB_FFSEL_COL, DB_FFSEL_ROW, DB_FFSEL_SECT, DB_FFVAL_VALID,
   DB_FFVAL_Q]

/-- Every field of the db pages. -/
def flds_db : List Fld := flds_db_0 ++ flds_db_1

/-- Fields of the ev pages, part 0. -/
def flds_ev_0 : List Fld :=
  [EV_CTL_LIMIT, EV_HEAD_SEQ, EV_TAIL_SEQ, EV_STS_EMPTY,
   EV_STS_CLRBUSY, EV_STS_BUF, EV_LOST_COUNT, EV_RDSEQ_SEQ,
   EV_SWDATAL_DATA, EV_SWDATAH_DATA, EV_SWCODE_CODE, EV_CLRCMD_OP,
   EV_CLRSTS_CNT, EV_CLRSTS_KEY, EV_CLRSTS_LOCKOUT, EV_CLRSTS_AUTH,
   EV_CLRSTS_CHAL, EV_CLRSTS_ERR, EV_CLRNONCEL_VALUE, EV_CLRNONCEH_VALUE,
   EV_CLRRESP_VALUE, EV_FLADDR_ADDR, EV_FLCMD_ERR, EV_FLCMD_BUSY,
   EV_FLCMD_GO, EV_FLCMD_OP, EV_FLINFO_MAXERASE, EV_FLINFO_SECT,
   EV_FLDATA_DATA, EV_UARTCTL_BAUD, EV_UARTCTL_EN, EV_UARTSEQ_SEQ,
   EV_MGMTSTS_SPI, EV_MGMTSTS_I2C]

/-- Every field of the ev pages. -/
def flds_ev : List Fld := flds_ev_0

/-- The fields that the pages of a type have beside the common header. -/
def fldsOf : PageKind → List Fld
  | .pg => flds_pg
  | .gl => flds_gl
  | .ee => flds_ee
  | .eg => flds_eg
  | .cf => flds_cf
  | .fb => flds_fb
  | .br => flds_br
  | .as => flds_as
  | .sc => flds_sc
  | .ncr => flds_ncr
  | .nci => flds_nci
  | .sp => flds_sp
  | .mc => flds_mc
  | .ml => flds_ml
  | .ln => flds_ln
  | .hp => flds_hp ++ [MSIX_ADDRL_ADDR, MSIX_ADDRH_ADDR, MSIX_DATA_DATA, MSIX_CTL_MASK, MSIX_PBA_PEND]
  | .ck => flds_ck
  | .pw => flds_pw
  | .fc => flds_fc
  | .db => flds_db
  | .ev => flds_ev

end Sys2Proof.Machine
end

