-- ==== Sys2Proof/Machine/StMem.lean ====
section
/-! DEFINITION. The state of the memory ports, the crypto engines, the scratchpad and its DMA beside
their registers (13, 14). -/
namespace Sys2Proof.Machine

/-- The map of a memory port in use (14, R376): GiB of base and size, ways and position. -/
structure PortMap where
  base : Nat
  size : Nat
  ways : Nat
  pos : Nat
  deriving DecidableEq, Repr

/-- The keys of a slot; state, generation and rights stand in MC_KSLOT (14, R386, R387). -/
structure KeySlot where
  key : BitVec 256 := 0
  new : Option (BitVec 256) := none
  deriving DecidableEq, Repr

/-- A trusted line of the counter cache (14, R397). -/
structure CacheLine where
  data : BitVec 512
  /-- the line has changed since it was read -/
  dirty : Bool := false
  deriving DecidableEq, Repr

/-- A line operation of a crypto engine (14, R394, R398, R401 to R406). -/
inductive LineKind where
  /-- a read for a request; a write with its data and byte mask -/
  | read (spec : Bool)
  | write (data : BitVec 512) (mask : BitVec 64)
  /-- the rekey engine at the boundary; a background re-encryption -/
  | rekey
  | bg
  /-- one group of a GRPFREE, or of a GRPINIT -/
  | grp (init : Bool)
  deriving DecidableEq, Repr

/-- A line operation in progress: who asked (requesting NI, tag, answering NI, line of the part), the line and
its slot, and what has been read so far. -/
structure LineOp where
  id : Nat
  kind : LineKind
  ni : Nat := 0
  tag : Nat := 0
  dst : Nat := 0
  line : Nat := 0
  /-- device address of the line; its port -/
  addr : Nat
  port : Nat
  slot : Nat
  /-- a PMP request of it is outstanding -/
  asked : Bool := false
  /-- the data line as corrected: 64 bytes and tag -/
  got : Option (BitVec 512 × BitVec 36) := none
  /-- the data line could not be read or corrected -/
  ecc : Bool := false
  /-- a line of the counter path has failed; the lines below it that a SPEC read has fetched, by level -/
  fail : Bool := false
  raw : List (Nat × BitVec 512) := []
  deriving DecidableEq, Repr

/-- What a PMP request is for (14, R379 to R381). -/
inductive PmpUse where
  /-- the data line of an operation; its write -/
  | data (op : Nat)
  | store (op : Nat)
  /-- a counter line or node of a port, read for an operation: level and index -/
  | node (op level index : Nat)
  /-- the write-back of a counter line or node -/
  | back (level index : Nat)
  /-- lines of a tree initialisation -/
  | init (level index : Nat)
  | info
  deriving DecidableEq, Repr

/-- A PMP request outstanding at a port. -/
structure PmpReq where
  port : Nat
  tag : Nat
  /-- packet TYPE: 1 RD, 2 WR, 5 INFOREQ -/
  type : Nat
  count : Nat := 1
  use : PmpUse
  /-- answered with ERR_LINK already; the tag is held, until the link is up again where the link was lost -/
  dead : Bool := false
  tillUp : Bool := false
  deriving DecidableEq, Repr

/-- A group under background re-encryption (14, R393). -/
structure BgGroup where
  port : Nat
  group : Nat
  /-- counters before -/
  oldMajor : Nat
  oldMinors : BitVec 448
  slot : Nat
  /-- lines not yet re-encrypted -/
  left : List Nat
  deriving DecidableEq, Repr

/-- A rekey in progress (14, R404 to R409). -/
structure Rekey where
  slot : Nat
  /-- range in device line addresses, and the boundary -/
  first : Nat
  last : Nat
  bnd : Nat
  /-- end of the uncertain part; 0 outside RESUME -/
  sure : Nat := 0
  deriving DecidableEq, Repr

/-- The state record of a crypto engine, as flash holds it (14, R408). -/
structure CryptoRec where
  seq : Nat
  valid : Bool := true
  treeKey : Option (BitVec 256)
  slots : List (Nat × KeySlot)
  /-- MC_KSLOT of each slot -/
  regs : List (Nat × Nat)
  root : List (Nat × BitVec 64)
  tree : Nat
  rekey : Option Rekey
  deriving DecidableEq, Repr

/-- A GRPFREE or GRPINIT in progress: device addresses of the next and of the last group. -/
structure GrpCmd where
  init : Bool
  next : Nat
  last : Nat
  deriving DecidableEq, Repr

/-- A crypto engine beside its MC pages. -/
structure CryptoSt where
  treeKey : Option (BitVec 256) := none
  slots : List (Nat × KeySlot) := []
  /-- root entries, key `8 * port + i` with local port 0 to 3 (14, R395) -/
  root : List (Nat × BitVec 64) := []
  /-- counter cache, key `(port * 16 + level) * 2 ^ 27 + index` -/
  cache : List (Nat × CacheLine) := []
  bg : List BgGroup := []
  rekey : Option Rekey := none
  grp : Option GrpCmd := none
  /-- a record is to be saved when re-encryptions and write-backs are done, and the rekey that starts then (14,
  R404, R408) -/
  saving : Bool := false
  begins : Option Rekey := none
  deriving DecidableEq, Repr

/-- The memory ports and crypto engines. -/
structure MemSt where
  maps : List (Nat × PortMap) := []
  crypto : List (Nat × CryptoSt) := []
  /-- line operations in progress, oldest first -/
  ops : List LineOp := []
  nextOp : Nat := 0
  pmp : List PmpReq := []
  /-- ports whose page waits for INFO (14, R381) -/
  starting : List Nat := []
  /-- PMP flits on their way into a link port, oldest first: link port, payload -/
  out : List (Nat × BitVec 512) := []
  /-- state records in flash, key `2 * engine + copy`; checkpoints of each engine's rekey log, newest last: slot,
  generation, boundary (14, R407, R408) -/
  recs : List (Nat × CryptoRec) := []
  log : List (Nat × List (Nat × Nat × Nat)) := []
  deriving DecidableEq, Repr

/-- A DMA channel inside a descriptor (13, R368 to R371). -/
structure DmaCh where
  /-- answers of requests made before the last start or stop carry another number -/
  gen : Nat := 0
  /-- a descriptor is being read; a copy runs -/
  fetching : Bool := false
  active : Bool := false
  src : Nat := 0
  dst : Nat := 0
  /-- bytes -/
  len : Nat := 0
  skidx : Nat := 0
  dkidx : Nat := 0
  chain : Bool := false
  notify : Bool := false
  next : Nat := 0
  /-- descending order -/
  down : Bool := false
  /-- destination lines whose write has been sent -/
  sent : Nat := 0
  /-- source lines read and held: line address, data -/
  held : List (Nat × BitVec 512) := []
  /-- reads outstanding, by source line; writes outstanding, by destination line -/
  reads : List Nat := []
  writes : List Nat := []
  /-- bytes not yet written and acknowledged -/
  rem : Nat := 0
  /-- the code of the first failed line -/
  err : Option Nat := none
  deriving DecidableEq, Repr

/-- The scratchpad beside the SP pages. -/
structure ScratchSt where
  /-- stored words with check bits, key: offset / 8 -/
  word : List (Nat × BitVec 72) := []
  dma : List (Nat × DmaCh) := []
  /-- offsets / 8 of words corrected in a read whose write-back waits (13, R365) -/
  fix : List Nat := []
  deriving DecidableEq, Repr

end Sys2Proof.Machine
end

