-- ==== Sys2Proof/Machine/StPower.lean ====
section
/-! DEFINITION. The state of power, clocks, reset, faults and debug beside their registers (16 to 20). -/
namespace Sys2Proof.Machine

/-- Where a switched domain stands (17, Table 17-4 and R471). -/
inductive DomPhase where
  | off
  /-- on requested; waits at step 1 of Table 17-4 -/
  | waiting
  /-- in steps 2 to 7 of Table 17-4 -/
  | rising
  | on
  /-- in steps 1 to 5 of R471, towards off or retention -/
  | falling
  | retention
  deriving DecidableEq, Repr

/-- One switched domain. -/
structure DomSt where
  phase : DomPhase := .off
  /-- PG_PWR.REQ, one per domain (01, R41) -/
  req : Nat := 0
  /-- the fall leads to retention (17, R471) -/
  toRet : Bool := false
  /-- PW_RAILWAIT has been reported for the held request (17, R466) -/
  told : Bool := false
  /-- the power-off is emulated for the debugger (20, R542) -/
  emul : Bool := false
  /-- the emulation ends: the domain is to complete its power-off for real (20, R543) -/
  ends : Bool := false
  /-- the rise began from an emulated off, or from retention -/
  fromEmul : Bool := false
  fromRet : Bool := false
  deriving DecidableEq, Repr

/-- The power controller and the governor. -/
structure PowerSt where
  dom : List (Nat × DomSt) := []
  /-- domains that wait at step 1, in the order of their REQ writes (17, R470) -/
  queue : List Nat := []
  /-- domains whose REQ was written during a freeze, in order (20, R546) -/
  later : List Nat := []
  /-- energy counters in nJ, key n = 0 to 81 (17, R474) -/
  energy : List (Nat × BitVec 64) := []
  /-- consecutive epochs above the cap (17, R482) -/
  overRun : Nat := 0
  /-- PW_OVERCAP has been reported for the present condition (17, R476) -/
  overTold : Bool := false
  /-- sensors that have given a reading (18, Table 18-5) -/
  seen : List Nat := []
  /-- THERM_N is asserted (17, R485) -/
  therm : Bool := false
  /-- a thermal trip has cut the device: no domain is switched on again (17, R486) -/
  tripped : Bool := false
  /-- banks whose loss has been reported since VCCO was last present (17, R468) -/
  vccoTold : List Nat := []
  deriving DecidableEq, Repr

/-- A clock gate (16, R460, R461). -/
inductive GateSt where
  | opened
  /-- the idle handshake has been asked -/
  | asked
  /-- closed after its handshake -/
  | closed
  /-- closed without its handshake -/
  | forced
  deriving DecidableEq, Repr

/-- Clock generation and supervision beside the CK page. -/
structure ClockSt where
  /-- restarts of the main-path count (16, R448) -/
  restarts : Nat := 0
  /-- CK_REFWAIT has been reported for this wait -/
  waitTold : Bool := false
  /-- the code in whose band the last windows fell, and how many in a row (16, R449) -/
  runCode : Nat := 0
  run : Nat := 0
  /-- windows in a row outside the band after qualification (16, R454) -/
  badRun : Nat := 0
  /-- REF_EN is driven high (16, R450) -/
  refEn : Bool := false
  /-- FCLK switches in progress: n, the SRC that it leaves, and whether the old clock has been left (16, R458, R459) -/
  switching : List (Nat × Nat × Bool) := []
  /-- MAIN runs from the network loop, or switches to it -/
  onNet : Bool := false
  /-- loops that stand still because no domain needs them (17, R473): 0 engine, 4 host port -/
  parked : List Nat := []
  /-- MAIN is switching from MON to the network loop -/
  mainSwitch : Bool := false
  /-- loops that coast or relock (16, R454): 0 engine, 1 network, 2 fabric 0, 3 fabric 1, 4 host port -/
  coasting : List Nat := []
  /-- gates by page number -/
  gate : List (Nat × GateSt) := []
  deriving DecidableEq, Repr

/-- A report on its way to the collector (19, R508). -/
structure Report where
  page : Nat
  bit : Nat
  forced : Bool := false
  broken : Bool := false
  deriving DecidableEq, Repr

/-- The fault collector beside the FC page. -/
structure FaultSt where
  /-- reports not yet processed, oldest first -/
  waiting : List Report := []
  /-- sources whose pair is broken: page and bit (19, R509) -/
  brokenPairs : List (Nat × Nat) := []
  /-- FLTP_N is asserted; its width runs; FC_ACK has been written since the last report (19, R513) -/
  fltp : Bool := false
  width : Bool := false
  acked : Bool := false
  /-- the 1 us after a release runs, and a report has come in it -/
  holdoff : Bool := false
  heldReport : Bool := false
  /-- C3 actions taken: FC_STS.DEVFAIL is derived from the C3 sticky bits -/
  failed : Bool := false
  deriving DecidableEq, Repr

/-- Phases of start-up and of a warm reset (18, Table 18-2, R498). -/
inductive ResetPhase where
  /-- monitors 0 and 23 are not both good: AON is held in reset -/
  | held
  /-- steps 1 and 2 -/
  | records
  /-- steps 3 to 5 -/
  | mainup
  | ready
  /-- a warm reset between its cause and its release -/
  | warm
  deriving DecidableEq, Repr

/-- Reset, straps, the host watchdog, freeze control and debug authorisation beside the GL and DB pages. -/
structure ResetSt where
  phase : ResetPhase := .held
  /-- the flash has been read in step 2 -/
  recordsRead : Bool := false
  /-- MAIN has been released in step 3 of this start -/
  mainRel : Bool := false
  /-- the start in progress follows a warm reset: step 6 does not wait for the network loop (18, R498) -/
  afterWarm : Bool := false
  /-- RESET_N is low -/
  pin : Bool := false
  /-- the warm reset in progress was caused by a bad VDD_MAIN -/
  mainBad : Bool := false
  /-- Subsystem Vendor ID and Subsystem ID, and HPOFF, of the identity record (18, R494) -/
  ssvid : Nat := 0
  ssid : Nat := 0
  hpoff : Bool := false
  /-- GL_WDWARN has been reported since the last load (19, R520) -/
  warned : Bool := false
  /-- FREEZE_N requests a freeze (20, R544) -/
  freezePin : Bool := false
  /-- LEVEL that the outstanding debug challenge asks for (20, R529) -/
  askLevel : Nat := 0
  deriving DecidableEq, Repr

/-- The pins that the board drives, as last sampled or as they stand (22, Table 22-4). -/
structure PinSt where
  devId : BitVec 6 := 0
  cfgMode : BitVec 2 := 0
  pudcN : Bool := false
  /-- PERST_N is asserted (low) -/
  perst : Bool := true
  /-- levels of the user I/O pins as the board drives them, key 24 * bank + index -/
  io : List (Nat × Bool) := []
  /-- what the boundary register does with the pins: 0 nothing, 1 it drives them, 2 they are high-impedance (20,
  R526); the values in its cells (22, R593) -/
  scan : Nat := 0
  cells : BitVec 1492 := 0
  deriving DecidableEq, Repr

/-- The test access port (20, R526, R527). -/
structure TapSt where
  /-- the instruction register -/
  ir : BitVec 6 := 1
  /-- what the selected data register has captured, bit 0 nearest TDO -/
  dr : BitVec 1492 := 0
  /-- data of the last read through DBACC, 0 after a write; the last access was refused -/
  data : BitVec 32 := 0
  err : Bool := false
  deriving DecidableEq, Repr

end Sys2Proof.Machine
end

