-- ==== Sys2Proof/Machine/Store.lean ====
section
/-! DEFINITION. Sparse stores: a list of key and value pairs with strictly rising keys, no pair
holding what an unlisted key reads as. Every store, register file and table of the model is one. -/
namespace Sys2Proof.Machine

/-- What a key of a sparse store holds; `d` is what an unlisted key holds. -/
def Store.get {α : Type} (d : α) : List (Nat × α) → Nat → α
  | [], _ => d
  | (k, v) :: m, a => if k = a then v else Store.get d m a

/-- The store without a key. -/
def Store.erase {α : Type} : List (Nat × α) → Nat → List (Nat × α)
  | [], _ => []
  | (k, v) :: m, a => if k = a then Store.erase m a else (k, v) :: Store.erase m a

/-- The store with a pair put in its place; the key is not listed. -/
def Store.insert {α : Type} : List (Nat × α) → Nat → α → List (Nat × α)
  | [], a, v => [(a, v)]
  | (k, w) :: m, a, v =>
    if a < k then (a, v) :: (k, w) :: m
    else if a = k then (a, v) :: m
    else (k, w) :: Store.insert m a v

/-- A write: the value an unlisted key holds anyway removes the key's pair. -/
def Store.put {α : Type} [DecidableEq α] (d : α) (m : List (Nat × α)) (a : Nat) (v : α) :
    List (Nat × α) :=
  if v = d then Store.erase m a else Store.insert m a v

/-- Values written to the keys that follow one another from `a`. -/
def Store.load {α : Type} [DecidableEq α] (d : α) (m : List (Nat × α)) (a : Nat) (vs : List α) : List (Nat × α) :=
  m.filter (fun kv => decide (kv.1 < a)) ++ ((vs.zipIdx a).filter fun p => decide (p.1 ≠ d)).map (fun p => (p.2, p.1)) ++
    m.filter (fun kv => decide (a + vs.length ≤ kv.1))

/-- The canonical form: keys strictly rising from a bound, no pair equal to the default. -/
def Store.wfFrom {α : Type} [DecidableEq α] (d : Nat → α) : Nat → List (Nat × α) → Bool
  | _, [] => true
  | n, (k, v) :: m => decide (n ≤ k) && decide (v ≠ d k) && Store.wfFrom d (k + 1) m

/-- The store is in canonical form; `d k` is what key `k` holds when it is not listed. -/
def Store.wf {α : Type} [DecidableEq α] (d : Nat → α) (m : List (Nat × α)) : Bool :=
  Store.wfFrom d 0 m

/-- The store without the keys that a test names. -/
def Store.drop {α : Type} (p : Nat → Bool) (m : List (Nat × α)) : List (Nat × α) :=
  m.filter fun kv => !p kv.1

end Sys2Proof.Machine
end

