-- ==== Sys2Proof/Machine/Chip.lean ====
section
/-! DEFINITION. The whole device beside its test access port and its command queue. -/
namespace Sys2Proof.Machine

/-- The steppings of the device (01, Table 1-7). -/
inductive Stepping where
  | a0 | a1 | b0
  deriving DecidableEq, Repr

/-- The device: its register fields and the state of its units. -/
structure Chip where
  stepping : Stepping := .b0
  /-- register fields that differ from their reset value, key `(instance * 2 ^ 16 + page) * 2 ^ 17 + 32 * offset + low bit` -/
  regs : List (Nat × Nat) := []
  eng : EngineSt := {}
  fab : FabricSt := {}
  stream : StreamSt := {}
  loader : LoaderSt := {}
  scrub : ScrubSt := {}
  net : NetSt := {}
  mem : MemSt := {}
  sp : ScratchSt := {}
  pow : PowerSt := {}
  clk : ClockSt := {}
  flt : FaultSt := {}
  rst : ResetSt := {}
  pin : PinSt := {}
  ev : RecSt := {}
  link : LinkSt := {}
  /-- peek holding values plus 1, by register-space offset of the high register (20, R534); 0 while nothing fills one -/
  peeks : List (Nat × Nat) := []
  /-- pages whose orderly stop has begun and is not complete (01, R44, R45) -/
  stopping : List Nat := []
  /-- the model's own: how many open values have been drawn (log entry 3) -/
  free : Nat := 0
  deriving DecidableEq, Repr

end Sys2Proof.Machine
end

