-- ==== Sys2Proof/Machine/Ops.lean ====
section
/-! DEFINITION. The named operations over register fields, pages, domains and fault sources. -/
namespace Sys2Proof.Machine

/-! ## Pages (01, Table 1-6) -/

/-- Page numbers: the register-space offset of a page divided by 0x1000. -/
def pgGL : Nat := 0x00
def pgCK : Nat := 0x10
def pgPW : Nat := 0x20
def pgFC : Nat := 0x30
def pgEV : Nat := 0x40
def pgDB : Nat := 0x50
def pgCF : Nat := 0x60
def pgSC : Nat := 0x70
def pgRouter (n : Nat) : Nat := 0x80 + n
def pgNI (n : Nat) : Nat := 0xC0 + n
def pgMC (m p : Nat) : Nat := 0x100 + 16 * m + p
def pgML (q : Nat) : Nat := 0x120 + q
def pgLN (q : Nat) : Nat := 0x140 + q
def pgHP : Nat := 0x170
def pgSP (p : Nat) : Nat := 0x180 + p
def pgFB (s : Nat) : Nat := 0x1C0 + s
def pgBR (s : Nat) : Nat := 0x1D0 + s
def pgAS (s : Nat) : Nat := 0x1E0 + s
def pgEG (g : Nat) : Nat := 0x200 + g
def pgEE (e : Nat) : Nat := 0x400 + e

/-- The block type and the instance of a page; none where no page is mapped (01, R40). -/
def pageKind (pg : Nat) : Option (PageKind × Nat) :=
  if pg = 0x00 then some (.gl, 0) else if pg = 0x10 then some (.ck, 0)
  else if pg = 0x20 then some (.pw, 0) else if pg = 0x30 then some (.fc, 0)
  else if pg = 0x40 then some (.ev, 0) else if pg = 0x50 then some (.db, 0)
  else if pg = 0x60 then some (.cf, 0) else if pg = 0x70 then some (.sc, 0)
  else if 0x80 ≤ pg ∧ pg < 0xE0 then some (.ncr, pg - 0x80)
  else if 0xE0 ≤ pg ∧ pg < 0x100 then some (.nci, pg - 0xC0)
  else if 0x100 ≤ pg ∧ pg < 0x120 then some (.mc, pg - 0x100)
  else if 0x120 ≤ pg ∧ pg < 0x128 then some (.ml, pg - 0x120)
  else if 0x140 ≤ pg ∧ pg < 0x150 then some (.ln, pg - 0x140)
  else if pg = 0x170 then some (.hp, 0)
  else if 0x180 ≤ pg ∧ pg < 0x184 then some (.sp, pg - 0x180)
  else if 0x1C0 ≤ pg ∧ pg < 0x1C8 then some (.fb, pg - 0x1C0)
  else if 0x1D0 ≤ pg ∧ pg < 0x1D8 then some (.br, pg - 0x1D0)
  else if 0x1E0 ≤ pg ∧ pg < 0x1E8 then some (.as, pg - 0x1E0)
  else if 0x200 ≤ pg ∧ pg < 0x240 then some (.eg, pg - 0x200)
  else if 0x400 ≤ pg ∧ pg < 0x600 then some (.ee, pg - 0x400)
  else none

/-- The block type number of PG_ID (01, Table 1-6). -/
def typeOf : PageKind → Nat
  | .pg => 0 | .gl => 1 | .ck => 2 | .pw => 3 | .fc => 4 | .ev => 5 | .db => 6 | .cf => 7 | .sc => 8
  | .ncr => 9 | .nci => 10 | .mc => 11 | .ml => 12 | .ln => 13 | .hp => 14 | .sp => 15 | .fb => 16
  | .br => 17 | .as => 18 | .eg => 19 | .ee => 20

/-- The domain of a page (01, Table 1-2): 0 to 79, 0xFE MAIN, 0xFF AON. -/
def domOf (pg : Nat) : Nat :=
  match pageKind pg with
  | some (.eg, g) => g
  | some (.ee, e) => e / 8
  | some (.fb, s) => 64 + s
  | some (.br, s) => 64 + s
  | some (.as, s) => 64 + s
  | some (.ln, q) => 72 + q / 4
  | some (.mc, i) => 76 + i / 16
  | some (.ml, q) => 76 + q / 4
  | some (.sp, _) => 78
  | some (.hp, _) => 79
  | some (.gl, _) => 0xFF
  | some (.ck, _) => 0xFF
  | some (.pw, _) => 0xFF
  | some (.ev, _) => 0xFF
  | _ => 0xFE

/-- The pages of a switched domain. -/
def pagesOf (d : Nat) : List Nat :=
  if d < 64 then pgEG d :: (List.range 8).map fun k => pgEE (8 * d + k)
  else if d < 72 then [pgFB (d - 64), pgBR (d - 64), pgAS (d - 64)]
  else if d < 76 then (List.range 4).map fun i => pgLN (4 * (d - 72) + i)
  else if d < 78 then ((List.range 16).map fun p => pgMC (d - 76) p) ++ (List.range 4).map fun q => pgML (4 * (d - 76) + q)
  else if d = 78 then (List.range 4).map pgSP
  else if d = 79 then [pgHP]
  else []

/-- The pages of AON and MAIN whose PG_CTL.RUN is 1 after reset (01, PG_CTL). -/
def runAtReset : PageKind → Bool
  | .gl | .ck | .pw | .fc | .ev | .db | .cf | .ncr | .nci | .hp => true
  | _ => false

/-! ## Fault sources (19, Table 19-7) -/

/-- The classes of the sources of a page, in bit order. -/
def faultClasses (k : PageKind) (inst : Nat) : List Nat :=
  match k with
  | .gl => [2, 0, 0, 0, 0, 1, 1, 0]
  | .ck => [0, 1, 1, 1, 1]
  | .pw => [0, 2, 0, 1, 1, 1, 0, 3, 1, 1]
  | .fc => [1]
  | .ev => [1, 0, 1, 0, 0, 0]
  | .db => [0, 1]
  | .cf => [0, 0, 0, 1]
  | .sc => [1, 2, 1, 0, 1, 2, 2, 0, 1, 1]
  | .ncr => [0, 0, 1, 0, 0]
  | .nci => [1]
  | .mc => if inst % 16 = 0 then [1, 0, 0, 2, 1, 2, 1, 2, 3, 0, 0, 0] else []
  | .ml => [1, 1, 0]
  | .ln => [0, 0, 1, 0, 1, 1, 1]
  | .hp => [1, 0, 0]
  | .sp => if inst = 0 then [1, 0] else if inst = 2 then [1, 0] else []
  | .fb => [0]
  | .br => [1, 0]
  | .as => [1, 2]
  | .eg => [0, 1, 2, 0, 1, 0, 2, 0, 0, 2, 0, 1]
  | .ee => [1, 0, 1, 0, 0, 2, 1, 1, 0]
  | .pg => []

/-- The class of a source; none for a bit that is reserved. -/
def faultClass (pg b : Nat) : Option Nat :=
  match pageKind pg with
  | some (k, i) => (faultClasses k i)[b]?
  | none => none

/-- The C3 bits of a page. -/
def c3Bits (pg : Nat) : Nat :=
  match pageKind pg with
  | some (k, i) => ofBits (fun b => (faultClasses k i)[b]? == some 3) 32
  | none => 0

/-- The assigned bits of a page. -/
def assignedBits (pg : Nat) : Nat :=
  match pageKind pg with
  | some (k, i) => 2 ^ (faultClasses k i).length - 1
  | none => 0

/-! ## Register fields -/

/-- The width of a field. -/
def Fld.width (F : Fld) : Nat := F.hi + 1 - F.lo

/-- The ports that exist at a router (12, R329): north, east, south, west. -/
def routerPorts (n : Nat) : Nat := 10 + b2n (12 ≤ n) + 4 * b2n (n < 84)

/-- The router of an NI (12, Table 12-1). -/
def niRouter (n : Nat) : Nat :=
  if n < 48 then 12 * ((n - 32) / 2) + (if n % 2 = 0 then 3 else 8)
  else if n < 52 then 12 * (2 * (n - 48)) + 10
  else if n < 56 then 12 * (2 * (n - 52) + 1) + 11
  else if n = 56 then 24 else if n = 57 then 60 else if n = 58 then 11
  else if n = 59 then 36 else if n = 60 then 48 else if n = 61 then 72
  else if n = 62 then 84 else 0

/-- The NI at a router. -/
def routerNi (r : Nat) : Option Nat :=
  ((List.range 32).map (· + 32)).find? fun n => niRouter n == r

/-- The bridges of an NI: which exist, and their domain and master class (12, Table 12-1). -/
def bridgeInfo (n b : Nat) : Option (Nat × Nat) :=
  if n < 48 then (if b < 4 then some (8 * ((n - 32) / 2) + 4 * (n % 2) + b, 4) else none)
  else if n < 52 then (if b < 4 then some (64 + 2 * (n - 48) + b / 2, 5) else none)
  else if n < 56 then
    (if b < 2 then some (76 + (2 * (n - 52) + b) / 4, 2) else if b = 2 ∧ n % 2 = 0 then some (76 + (n - 52) / 2, 2) else none)
  else if n = 56 then (if b < 3 then some (78, 6) else none)
  else if n = 57 then (if b = 0 then some (78, 6) else none)
  else if n = 58 then (if b < 4 then some (72 + b, 7) else none)
  else if n = 59 then (if b = 0 then some (79, 0) else none)
  else if n = 60 then (if b = 0 then some (0xFE, 2) else none)
  else if n = 61 then (if b = 0 then some (0xFE, 2) else none)
  else if n = 62 then (if b = 0 then some (0xFE, 1) else none)
  else if n = 63 then (if b < 3 then some (0xFE, 3) else none)
  else none

/-- The reset value of a field in a page and instance: the value of its table, or the value that the
table derives from the page (01, PG_ID to PG_PWR; 02, EG_GEOM; 12, NC_RCTL, NC_BRG; 14, MC_KSLOT). -/
def Fld.resetAt (F : Fld) (pg i : Nat) : Nat :=
  match pageKind pg with
  | none => F.rst
  | some (k, n) =>
    if F = PG_ID_TYPE then typeOf k
    else if F = PG_ID_INST then n
    else if F = PG_CTL_RUN then b2n (runAtReset k)
    else if F = PG_STS_RUNNING then b2n (runAtReset k)
    else if F = PG_FCRIT_FCRIT then c3Bits pg
    else if F = PG_FEN_FEN then assignedBits pg
    else if F = PG_PWR_DOM then domOf pg
    else if F = EG_GEOM_ENG0 then 8 * n
    else if F = EG_GEOM_ROW then n / 8
    else if F = EG_GEOM_COL then n % 8
    else if F = NC_RCTL_LOCEN then b2n (routerNi n).isSome
    else if F = NC_RCTL_PORTEN then routerPorts n
    else if F = NC_BRG_PRESENT then b2n (bridgeInfo n i).isSome
    else if F = NC_BRG_FENCED then (match bridgeInfo n i with | some (d, _) => b2n (d < 80) | none => 0)
    else if F = NC_BRG_KSRC then b2n ((bridgeInfo n i).isSome && (n < 48 || (48 ≤ n && n < 52 && i % 2 == 1) || n == 60 || n == 61 || (n == 56 && i == 2)))
    else if F = NC_BRG_CLASS then (match bridgeInfo n i with | some (_, m) => m | none => 0)
    else if F = MC_KSLOT_STATE then b2n (i == 0)
    else if F = MC_KSLOT_RIGHTS then (if i = 0 then 0xFFFF else 0)
    else F.rst

/-- The place of a field in its page: offset of its first instance, and lowest bit. -/
def Fld.code (F : Fld) : Nat := F.off * 32 + F.lo

/-- The key of a field in the register store: its instance, its page and its place. -/
def Fld.key (F : Fld) (pg i : Nat) : Nat := (i * 0x10000 + pg) * 0x20000 + F.code

/-- The page of a key, and the offset of its field's first instance. -/
def keyPage (k : Nat) : Nat := k / 0x20000 % 0x10000
def keyOff (k : Nat) : Nat := k % 0x20000 / 32

/-- The value of a register field. -/
def Chip.get (c : Chip) (F : Fld) (pg : Nat) (i : Nat := 0) : Nat :=
  Store.get (F.resetAt pg i) c.regs (F.key pg i)

/-- A register field takes a value, cut to its width. -/
def Chip.set (c : Chip) (F : Fld) (pg : Nat) (v : Nat) (i : Nat := 0) : Chip :=
  { c with regs := Store.put (F.resetAt pg i) c.regs (F.key pg i) (v % 2 ^ F.width) }

/-- A one-bit field reads 1. -/
def Chip.bit (c : Chip) (F : Fld) (pg : Nat) (i : Nat := 0) : Bool := c.get F pg i == 1

/-- A one-bit field takes a value. -/
def Chip.setB (c : Chip) (F : Fld) (pg : Nat) (b : Bool) (i : Nat := 0) : Chip := c.set F pg (b2n b) i

/-- A plain count of a field rises by one and stops at its largest value (04, EG_OVRCNT). -/
def Chip.count (c : Chip) (F : Fld) (pg : Nat) (i : Nat := 0) : Chip :=
  c.set F pg (satInc (2 ^ F.width - 1) (c.get F pg i)) i

/-- Bits are set in a field. -/
def Chip.orBits (c : Chip) (F : Fld) (pg v : Nat) (i : Nat := 0) : Chip :=
  c.set F pg (c.get F pg i ||| v) i

/-- Register fields of a page at offsets 0x040 and above return to their reset values (01, R31, R47). -/
def Chip.clearBlock (c : Chip) (pg : Nat) : Chip :=
  { c with regs := Store.drop (fun k => keyPage k == pg && 0x40 ≤ keyOff k) c.regs,
           peeks := Store.drop (fun k => k / 0x1000 == pg) c.peeks }

/-- PG_STS.WIGN of a page is set (00, R18; 01). -/
def Chip.wign (c : Chip) (pg : Nat) : Chip := c.set PG_STS_WIGN pg 1

/-! ## Domains, gates and fault reports -/

/-- A switched domain's state. -/
def Chip.dom (c : Chip) (d : Nat) : DomSt := Store.get {} c.pow.dom d

/-- A switched domain takes a state. -/
def Chip.setDom (c : Chip) (d : Nat) (s : DomSt) : Chip :=
  { c with pow := { c.pow with dom := Store.put {} c.pow.dom d s } }

/-- The domain is in the on state; AON and MAIN always are (01, R28). -/
def Chip.domOn (c : Chip) (d : Nat) : Bool :=
  if d < 80 then (c.dom d).phase == .on else true

/-- PG_PWR.STATE (01, R42; 17, R466). -/
def Chip.domState (c : Chip) (d : Nat) : Nat :=
  if d < 80 then
    match (c.dom d).phase with
    | .off => 0
    | .on => 1
    | .retention => 2
    | _ => 3
  else 1

/-- The gate of a page's clock (16, R460). -/
def Chip.gate (c : Chip) (pg : Nat) : GateSt := Store.get .opened c.clk.gate pg

/-- A gate takes a state. -/
def Chip.setGate (c : Chip) (pg : Nat) (g : GateSt) : Chip :=
  { c with clk := { c.clk with gate := Store.put .opened c.clk.gate pg g } }

/-- The gate of a page is closed. -/
def Chip.gated (c : Chip) (pg : Nat) : Bool := c.gate pg == .closed || c.gate pg == .forced

/-- A report joins those that wait; one of the same source that still waits absorbs it (19, R508). -/
def addReport (rs : List Report) (r : Report) : List Report :=
  if rs.any fun q => q.page == r.page && q.bit == r.bit && q.broken == r.broken then
    rs.map fun q => if q.page == r.page && q.bit == r.bit && q.broken == r.broken then { q with forced := q.forced && r.forced } else q
  else rs ++ [r]

/-- A fault source detects its fault: the report is on its way to the collector, unless the source's
pair is broken or its domain is not on (19, R508, R509). -/
def Chip.report (c : Chip) (pg b : Nat) (forced : Bool := false) : Chip :=
  if c.flt.brokenPairs.contains (pg, b) || !c.domOn (domOf pg) then c
  else { c with flt := { c.flt with waiting := addReport c.flt.waiting { page := pg, bit := b, forced := forced } } }

/-- A fault is reported when a condition holds. -/
def Chip.reportIf (c : Chip) (p : Bool) (pg b : Nat) : Chip := if p then c.report pg b else c

/-- An open bit is drawn (log entry 3). -/
def Chip.drawBit (c : Chip) : Bool × Chip := (Config.freeBit c.free, { c with free := c.free + 1 })

/-- An open word is drawn (log entry 3). -/
def Chip.drawWord (c : Chip) : BitVec 64 × Chip := (Config.freeWord c.free, { c with free := c.free + 1 })

/-- A unit wishes to make a request (12, R348). -/
def Chip.ask (c : Chip) (r : Req) : Chip := { c with net := { c.net with want := c.net.want ++ [r] } }

/-- RUN of a page. -/
def Chip.run (c : Chip) (pg : Nat) : Bool := c.bit PG_CTL_RUN pg

/-- The function of a page is running. -/
def Chip.running (c : Chip) (pg : Nat) : Bool := c.bit PG_STS_RUNNING pg

/-- The engine loop gives the step clocks: it is locked, or coasts (16, R451, R455). -/
def Chip.engineLoop (c : Chip) : Bool := c.bit CK_LOOPSTS_ENG pgCK || c.clk.coasting.contains 0

/-- The function of a page takes new work: RUN is 1, no orderly stop is in progress, and no idle handshake has been
asked (01, R44, R45; 16, R460, R600). -/
def Chip.accepts (c : Chip) (pg : Nat) : Bool := c.run pg && !c.stopping.contains pg && c.gate pg == .opened

/-- The function of a page is running and has its clock. -/
def Chip.works (c : Chip) (pg : Nat) : Bool := c.running pg && !c.gated pg

/-- An orderly stop of a page begins, or is over. -/
def Chip.setStopping (c : Chip) (pg : Nat) (b : Bool) : Chip :=
  let l := c.stopping.filter (· != pg)
  { c with stopping := if b then l ++ [pg] else l }

/-- The frozen part of the device has its clocks: GL_FRZSTS.STATE is RUN or DRAIN (20, R545, R549). -/
def Chip.stepsRun (c : Chip) : Bool := c.get GL_FRZSTS_STATE pgGL < 2

/-- Laps may start: no freeze has begun (20, R545). -/
def Chip.lapsStart (c : Chip) : Bool := c.get GL_FRZSTS_STATE pgGL == 0

/-- PG_VER.LEVEL (01, R51). -/
def Stepping.level : Stepping → Nat
  | .a0 => 1
  | .a1 => 2
  | .b0 => 3

/-- A fold over the numbers below `n` that carries the device. -/
def Chip.each (c : Chip) (ns : List Nat) (f : Chip → Nat → Chip) : Chip := ns.foldl f c

end Sys2Proof.Machine
end

