-- ==== Sys2Proof/Machine/Sha.lean ====
section
/-! DEFINITION. SHA-256 and HMAC-SHA-256, which the spec names and does not lay out (10, R290; 20, R529;
log entry 6). -/
namespace Sys2Proof.Machine

/-- The constants of SHA-256. -/
def shaK : List Nat :=
  [0x428a2f98, 0x71374491, 0xb5c0fbcf, 0xe9b5dba5, 0x3956c25b, 0x59f111f1, 0x923f82a4, 0xab1c5ed5,
   0xd807aa98, 0x12835b01, 0x243185be, 0x550c7dc3, 0x72be5d74, 0x80deb1fe, 0x9bdc06a7, 0xc19bf174,
   0xe49b69c1, 0xefbe4786, 0x0fc19dc6, 0x240ca1cc, 0x2de92c6f, 0x4a7484aa, 0x5cb0a9dc, 0x76f988da,
   0x983e5152, 0xa831c66d, 0xb00327c8, 0xbf597fc7, 0xc6e00bf3, 0xd5a79147, 0x06ca6351, 0x14292967,
   0x27b70a85, 0x2e1b2138, 0x4d2c6dfc, 0x53380d13, 0x650a7354, 0x766a0abb, 0x81c2c92e, 0x92722c85] ++
  [0xa2bfe8a1, 0xa81a664b, 0xc24b8b70, 0xc76c51a3, 0xd192e819, 0xd6990624, 0xf40e3585, 0x106aa070,
   0x19a4c116, 0x1e376c08, 0x2748774c, 0x34b0bcb5, 0x391c0cb3, 0x4ed8aa4a, 0x5b9cca4f, 0x682e6ff3,
   0x748f82ee, 0x78a5636f, 0x84c87814, 0x8cc70208, 0x90befffa, 0xa4506ceb, 0xbef9a3f7, 0xc67178f2]

/-- The initial hash value of SHA-256. -/
def shaInit : List (BitVec 32) :=
  [0x6a09e667, 0xbb67ae85, 0x3c6ef372, 0xa54ff53a, 0x510e527f, 0x9b05688c, 0x1f83d9ab, 0x5be0cd19]

/-- Word `t` of the message schedule from the sixteen before it, newest first. -/
def shaNext (w : List (BitVec 32)) : BitVec 32 :=
  let at_ := fun i => w.getD i (0 : BitVec 32)
  let s0 := fun (x : BitVec 32) => x.rotateRight 7 ^^^ x.rotateRight 18 ^^^ (x >>> 3)
  let s1 := fun (x : BitVec 32) => x.rotateRight 17 ^^^ x.rotateRight 19 ^^^ (x >>> 10)
  s1 (at_ 1) + at_ 6 + s0 (at_ 14) + at_ 15

/-- One round of the compression function on the eight working variables. -/
def shaRound (h : List (BitVec 32)) (k w : BitVec 32) : List (BitVec 32) :=
  match h with
  | [a, b, c, d, e, f, g, x] =>
    let s1 := e.rotateRight 6 ^^^ e.rotateRight 11 ^^^ e.rotateRight 25
    let ch := (e &&& f) ^^^ ((~~~ e) &&& g)
    let t1 := x + s1 + ch + k + w
    let s0 := a.rotateRight 2 ^^^ a.rotateRight 13 ^^^ a.rotateRight 22
    let maj := (a &&& b) ^^^ (a &&& c) ^^^ (b &&& c)
    [t1 + (s0 + maj), a, b, c, d + t1, e, f, g]
  | _ => h

/-- A big-endian 32-bit word from bytes. -/
def beWord (bs : List (BitVec 8)) : BitVec 32 := BitVec.ofNat 32 (bs.foldl (fun a b => a * 256 + b.toNat) 0)

/-- The big-endian bytes of a number. -/
def natBe (n v : Nat) : List (BitVec 8) := (natLe n v).reverse

/-- The compression of one 64-byte block. -/
def shaBlock (h : List (BitVec 32)) (b : List (BitVec 8)) : List (BitVec 32) :=
  let first := (List.range 16).map fun i => beWord ((b.drop (4 * i)).take 4)
  let sched := (List.range 48).foldl (fun w _ => shaNext w :: w) first.reverse
  let out := (sched.reverse.zip shaK).foldl (fun v wk => shaRound v (BitVec.ofNat 32 wk.2) wk.1) h
  List.zipWith (· + ·) h out

/-- The padded message. -/
def shaPad (m : List (BitVec 8)) : List (BitVec 8) :=
  m ++ [0x80] ++ List.replicate ((119 - m.length % 64) % 64) 0 ++ natBe 8 (8 * m.length)

/-- SHA-256 of a message: 32 bytes. -/
def sha256 (m : List (BitVec 8)) : List (BitVec 8) :=
  let p := shaPad m
  let h := (List.range (p.length / 64)).foldl (fun h i => shaBlock h ((p.drop (64 * i)).take 64)) shaInit
  h.flatMap fun w => natBe 4 w.toNat

/-- HMAC-SHA-256 under a key of at most 64 bytes (10, R290; 20, R529). -/
def hmac (key m : List (BitVec 8)) : List (BitVec 8) :=
  let k := key ++ List.replicate (64 - key.length) 0
  sha256 ((k.map (· ^^^ 0x5C)) ++ sha256 ((k.map (· ^^^ 0x36)) ++ m))

end Sys2Proof.Machine
end

