-- ==== Sys2Proof/Machine/Flash.lean ====
section
/-! DEFINITION. The on-chip flash and its commands (21, R551 to R556), and the challenge and response
that both the recorder's owner clear and debug access use (20, R529; 21, R564). -/
namespace Sys2Proof.Machine

/-- An erased flash word: all ones (log entry 7). -/
def flashErased : BitVec 72 := secded (BitVec.allOnes 64)

/-- A stored flash word, by address / 8. -/
def Chip.flashWord (c : Chip) (w : Nat) : BitVec 72 := Store.get flashErased c.ev.flash w

/-- A flash word is programmed. -/
def Chip.setFlash (c : Chip) (w : Nat) (d : BitVec 64) : Chip :=
  { c with ev := { c.ev with flash := Store.put flashErased c.ev.flash w (secded d) } }

/-- Byte of flash, corrected (21, R555). -/
def Chip.flashByte (c : Chip) (a : Nat) : BitVec 8 :=
  ((eccDecode (c.flashWord (a / 8))).data >>> (8 * (a % 8))).setWidth 8

/-- Bytes of flash, corrected; the words that the range touches are decoded once each. -/
def Chip.flashBytes (c : Chip) (a n : Nat) : List (BitVec 8) :=
  let ws := (List.range ((a + n + 7) / 8 - a / 8)).flatMap fun i => natLe 8 (eccDecode (c.flashWord (a / 8 + i))).data.toNat
  (ws.drop (a % 8)).take n

/-- Little-endian number in flash. -/
def Chip.flashNat (c : Chip) (a n : Nat) : Nat := leNat (c.flashBytes a n)

/-- What reading flash words reports: a corrected word, an uncorrectable word, and its sector (21, R555). -/
def Chip.flashNote (c : Chip) (a n : Nat) : Chip :=
  (List.range ((a + n + 7) / 8 - a / 8)).foldl (fun c i =>
    let w := a / 8 + i
    match eccDecode (c.flashWord w) with
    | .good _ => c
    | .fixed _ =>
      let c := { c with ev := { c.ev with refresh := if c.ev.refresh.contains (w / 512) then c.ev.refresh else c.ev.refresh ++ [w / 512] } }
      (c.set EV_FLINFO_SECT pgEV (w / 512)).report pgEV 0
    | .bad _ => (c.set EV_FLINFO_SECT pgEV (w / 512)).report pgEV 1) c

/-- The erase count of a physical sector rises (21, R556). -/
def Chip.countErase (c : Chip) (p : Nat) : Chip :=
  let n := Store.get 0 c.ev.erases p + 1
  let c := { c with ev := { c.ev with erases := Store.put 0 c.ev.erases p n } }
  let c := if c.get EV_FLINFO_MAXERASE pgEV < n then c.set EV_FLINFO_MAXERASE pgEV n else c
  c.reportIf (n == 90000) pgEV 2

/-- The physical sector of a logical one. -/
def Chip.sectorPlace (c : Chip) (s : Nat) : Nat := (c.ev.place.lookup s).getD s

/-- A sector is erased (21, R551, R556). -/
def Chip.eraseSector (c : Chip) (s : Nat) : Chip :=
  { c with ev := { c.ev with flash := Store.drop (fun w => w / 512 == s) c.ev.flash } }.countErase (c.sectorPlace s)

/-- The 32 bytes of a unit are programmed (21, R551). -/
def Chip.programUnit (c : Chip) (a : Nat) (d : List (BitVec 8)) : Chip :=
  c.each (List.range 4) fun c i => c.setFlash (a / 8 + i) (BitVec.ofNat 64 (leAt d (8 * i) 8))

/-- A unit is erased: every byte is 0xFF. -/
def Chip.unitErased (c : Chip) (a : Nat) : Bool := (c.flashBytes a 32).all (· == 0xFF)

/-- A key of the provisioning partition is present (21, R552). -/
def Chip.keyPresent (c : Chip) (a : Nat) : Bool := (c.flashBytes a 32).any (· != 0xFF)

/-- The device serial number (21, Table 21-2). -/
def Chip.serial (c : Chip) : Nat := c.flashNat 0 8

/-- KEYEN and REQ are loaded at a cold start and at a warm reset (21, R552). -/
def Chip.loadProvision (c : Chip) : Chip :=
  let c := c.set CF_AUTHCTL_KEYEN pgCF (ofBits (fun n => c.keyPresent (0x1040 + 32 * n)) 4)
  c.setB CF_AUTHCTL_REQ pgCF (c.flashByte 0x1100 == 0x52)

/-! ## Flash commands (21, R553, R554, Tables 21-2 and 21-3) -/

/-- A flash command is refused with this code: 0 where the partition permits it (21, Table 21-3). -/
def Chip.flashRights (c : Chip) (who : Who) (op a : Nat) : Nat :=
  let wr := op != 1
  if a < 0x1000 then (if wr then 1 else 0)
  else if a < 0x10E0 ∨ (0x1100 ≤ a ∧ a < 0x1120) then
    if !wr then 0
    else if who != .debug then 1
    else if c.flashByte 0x1104 == 0x4B then 5 else 0
  else if a < 0x40000 then 1
  else if a < 0x80000 then 0
  else if a < 0x280000 then
    (if wr && c.running pgSC && !c.bit SC_CTL_SIGSRC pgSC then 6 else 0)
  else if a < 0xA80000 then (if wr then 1 else 0)
  else 0

/-- The master may make this flash command at all (21, R553 check 1; 20, debug levels). -/
def Chip.flashMaster (c : Chip) (who : Who) (op : Nat) : Bool :=
  who == .host || who.mgmt ||
    (who == .debug && (let l := c.get DB_AUTHSTS_LEVEL pgDB; if op = 1 then 1 ≤ l else l == 2))

/-- A write of EV_FLCMD with GO = 1 (21, R553): 1 READ, 2 PROGRAM, 3 ERASE. -/
def Chip.flashGo (c : Chip) (who : Who) (op : Nat) : Chip :=
  if !c.flashMaster who op then c
  else if c.bit EV_FLCMD_BUSY pgEV || !c.run pgEV then c.wign pgEV
  else
    let c := c.set EV_FLCMD_OP pgEV op
    let a := c.get EV_FLADDR_ADDR pgEV
    let e :=
      if op = 0 then 0
      else if a % 32 ≠ 0 then 2
      else
        let r := c.flashRights who op a
        if r ≠ 0 then r else if op = 2 ∧ !c.unitErased a then 3 else 0
    let c := c.set EV_FLCMD_ERR pgEV e
    if op = 0 ∨ e ≠ 0 then c
    else
      let data := (List.range 8).flatMap fun i => natLe 4 (c.get EV_FLDATA_DATA pgEV i)
      { c.setB EV_FLCMD_BUSY pgEV true with ev := { c.ev with cmd := some { op := op, addr := a, data := data } } }

/-- The bytes that a READ returns: key bytes read 0x00 (21, Table 21-3). -/
def Chip.flashShown (c : Chip) (a : Nat) : List (BitVec 8) :=
  if 0x1000 ≤ a ∧ a < 0x10E0 then List.replicate 32 0 else c.flashBytes a 32

/-- The flash command in progress completes (21, R553). -/
def Chip.flashDone (c : Chip) : Chip :=
  match c.ev.cmd with
  | none => c
  | some q =>
    let c := { c.setB EV_FLCMD_BUSY pgEV false with ev := { c.ev with cmd := none } }
    if q.op = 1 then
      let d := c.flashShown q.addr
      let bad := (List.range 4).any fun i => (eccDecode (c.flashWord (q.addr / 8 + i))).isBad
      let c := c.each (List.range 8) fun c i => c.set EV_FLDATA_DATA pgEV (leAt d (4 * i) 4) i
      let c := if bad then c.set EV_FLCMD_ERR pgEV 4 else c
      c.flashNote q.addr 32
    else if q.op = 2 then c.programUnit q.addr q.data
    else c.eraseSector (q.addr / 0x1000)

/-- The read-through of a sector: one that shows, or has shown, a corrected word is copied to a spare and
erased as a spare (21, R555). -/
def Chip.flashRefresh (c : Chip) (s : Nat) : Chip :=
  if 4096 ≤ s ∨ (0x280 ≤ s ∧ s < 0xA80) then c
  else
    let mine := c.ev.flash.filter fun kv => kv.1 / 512 == s
    let c := mine.foldl (fun c kv => c.flashNote (8 * kv.1) 8) c
    if c.ev.refresh.contains s then
      let c := mine.foldl (fun c kv => match eccDecode kv.2 with
        | .fixed d => c.setFlash kv.1 d
        | _ => c) c
      match c.ev.spares with
      | [] => c
      | p :: ps =>
        let old := c.sectorPlace s
        { c with ev := { c.ev with refresh := c.ev.refresh.filter (· != s),
                                   place := (s, p) :: c.ev.place.filter (fun q => q.1 != s),
                                   spares := ps ++ [old] } }.countErase old
    else c

/-! ## Challenge and response (20, R529; 21, R564) -/

/-- The message M of a challenge: nonce, serial number, two bytes. -/
def challengeMsg (nonce serial b16 b17 : Nat) : List (BitVec 8) :=
  natLe 8 nonce ++ natLe 8 serial ++ [BitVec.ofNat 8 b16, BitVec.ofNat 8 b17]

/-- The response that matches: bytes 0 to 15 of the code under the key at a flash address. -/
def Chip.response (c : Chip) (keyAt nonce b16 b17 : Nat) : List (BitVec 8) :=
  (hmac (c.flashBytes keyAt 32) (challengeMsg nonce c.serial b16 b17)).take 16

end Sys2Proof.Machine
end

