-- ==== Sys2Proof/Machine/Space.lean ====
section
/-! DEFINITION. The device address space: ranges, destinations, units and their rights, and checks 1
to 4 of a request (01, R32 to R36, R595, R596; 12, R331, R333, R341; 13, R361; 14, R376, R388). -/
namespace Sys2Proof.Machine

/-! ## Error codes (12, Table 12-7) -/

def errDecode : Nat := 0x01
def errDenied : Nat := 0x02
def errAlign : Nat := 0x03
def errLen : Nat := 0x04
def errPwroff : Nat := 0x05
def errGated : Nat := 0x06
def errStopped : Nat := 0x07
def errEcc : Nat := 0x08
def errInteg : Nat := 0x09
def errRoute : Nat := 0x0A
def errTimeout : Nat := 0x0B
def errOwner : Nat := 0x0C
def errLink : Nat := 0x0D
def errFormat : Nat := 0x0E

/-! ## Ranges (01, Table 1-3) -/

/-- The ranges of the device address space. -/
inductive Region where
  | ext | sp | bram | reg
  deriving DecidableEq, Repr

def spBase : Nat := 0x80000000000
def bramBase : Nat := 0x81000000000
def regBase : Nat := 0xF0000000000

/-- The range that holds an address. -/
def regionOf (a : Nat) : Option Region :=
  if a < 2 ^ 42 then some .ext
  else if spBase ≤ a ∧ a < spBase + 0x2000000 then some .sp
  else if bramBase ≤ a ∧ a < bramBase + 0x1000000 then some .bram
  else if regBase ≤ a ∧ a < regBase + 0x8000000 then some .reg
  else none

/-- The first address after the range, or after the block RAM window, that holds an address. -/
def regionEnd (a : Nat) : Nat :=
  match regionOf a with
  | some .ext => 2 ^ 42
  | some .sp => spBase + 0x2000000
  | some .bram => bramBase + (a - bramBase) / 0x2000 * 0x2000 + 4608
  | some .reg => regBase + 0x8000000
  | none => 0

/-- External memory line address `a` belongs to a port with this map (14, R376). -/
def PortMap.has (m : PortMap) (a : Nat) : Bool :=
  let b := m.base * 2 ^ 30
  decide (b ≤ a ∧ a < b + m.ways * (m.size * 2 ^ 30) ∧ ((a - b) / 4096) % m.ways = m.pos)

/-- The port of an external memory address: the lowest-numbered that has it (14, R376). -/
def Chip.portOf (c : Chip) (a : Nat) : Option Nat :=
  (List.range 8).find? fun q => match c.mem.maps.lookup q with | some m => m.has a | none => false

/-- The port-local address of an external memory address (14, R376). -/
def Chip.localOf (c : Chip) (q a : Nat) : Nat :=
  match c.mem.maps.lookup q with
  | some m => (a - m.base * 2 ^ 30) / (4096 * m.ways) * 4096 + (a - m.base * 2 ^ 30) % 4096
  | none => 0

/-! ## Units (12, Tables 12-1 and 12-6; 13, R361) -/

/-- NI and bridge of a requesting unit (12, Table 12-1). -/
def Asker.place : Asker → Nat × Nat
  | .host _ => (59, 0)
  | .debug => (62, 0)
  | .i2c | .spi => (63, 2)
  | .cfgWrite | .cfgSource | .loader => (60, 0)
  | .pouncer _ => (61, 0)
  | .batchIn g _ | .batchOut g _ | .trace g _ => (32 + 2 * (g / 8) + g % 8 / 4, g % 4)
  | .fabric s _ _ => (48 + s / 2, 1 + 2 * (s % 2))
  | .dmaDesc _ _ | .dmaRead _ _ | .dmaWrite _ _ => (56, 2)
  | .ringRx l _ _ | .ringTx l _ _ => (58, l / 16)

/-- The master class that an NI stamps on a bridge's requests (12, R331). -/
def bridgeClass (ni br : Nat) : Nat :=
  match bridgeInfo ni br with
  | some (_, m) => m
  | none => 0

/-- The owner code of the unit behind a bridge (13, Table 13-2, R361). -/
def ownerCode (ni br : Nat) : Nat :=
  if ni < 48 then 8 * ((ni - 32) / 2) + 4 * (ni % 2) + br
  else if ni < 52 then 0x40 + 2 * (ni - 48) + br / 2
  else if ni = 59 then 0x48 else if ni = 62 then 0x49 else if ni = 60 then 0x4A
  else if ni = 61 then 0x4B else if ni = 63 then 0x4C else if ni = 56 then 0x4D
  else 0x50 + br

/-- The unit behind a bridge may use a scratchpad bank (13, R361, R374). While domain 78 is off every copy
names no owner. -/
def Chip.mayUseBank (c : Chip) (ni br b : Nat) (write : Bool) : Bool :=
  let d := c.dom 78
  let off := d.phase == .off || ((d.phase == .waiting || d.phase == .rising) && !d.fromRet)
  if ni = 62 then
    let lv := c.get DB_AUTHSTS_LEVEL pgDB
    lv == 2 || (lv == 1 && !write)
  else if off then false
  else c.get SP_OWN_OWNER (pgSP 1) b == ownerCode ni br || (ni == 56 && c.bit SP_OWN_DMAOK (pgSP 1) b)

/-- The rights of a class for an external memory line under a slot (14, R388). -/
def Chip.slotGrants (c : Chip) (q slot cls : Nat) (write : Bool) : Bool :=
  let pg := pgMC (q / 4) 1
  c.get MC_KSLOT_STATE pg slot != 0 && (c.get MC_KSLOT_RIGHTS pg slot).testBit (2 * cls + b2n write)

/-- The group that the store window shows to a requester (01, R35; 20, R535). -/
def Chip.windowGroup (c : Chip) (ni : Nat) : Nat :=
  if ni = 62 then c.get DB_WINSEL_GROUP pgDB else c.get GL_WINSEL_GROUP pgGL

/-- Stores of the store window (01, Table 1-5). -/
inductive Store5 where
  | sched | ctl | cmap | opd | state
  deriving DecidableEq, Repr

/-- The store at an offset of the register space (01, Table 1-5). -/
def windowStore (off : Nat) : Option Store5 :=
  if 0x1000000 ≤ off ∧ off < 0x1800000 then some .sched
  else if 0x1800000 ≤ off ∧ off < 0x1880000 then some .ctl
  else if 0x1900000 ≤ off ∧ off < 0x1980000 then some .cmap
  else if 0x1980000 ≤ off ∧ off < 0x19A0000 then some .opd
  else if 0x19A0000 ≤ off ∧ off < 0x19B0000 then some .state
  else none

/-- Where the page of a register lies (12, Table 12-1). -/
def pagePlace (pg : Nat) : Nat × Nat :=
  match pageKind pg with
  | some (.eg, g) => (32 + 2 * (g / 8) + g % 8 / 4, g % 4)
  | some (.ee, e) => (32 + 2 * (e / 64) + e / 8 % 8 / 4, e / 8 % 4)
  | some (.fb, s) => (48 + s / 2, 2 * (s % 2))
  | some (.br, s) => (48 + s / 2, 2 * (s % 2))
  | some (.as, s) => (48 + s / 2, 2 * (s % 2))
  | some (.ml, q) => (52 + q / 2, q % 2)
  | some (.mc, i) => (52 + 2 * (i / 16), 2)
  | some (.sp, _) => (56, 1)
  | some (.ln, q) => (58, q / 4)
  | some (.hp, _) => (59, 0)
  | some (.cf, _) => (60, 0)
  | some (.sc, _) => (61, 0)
  | some (.db, _) => (62, 0)
  | some (.fc, _) => (63, 0)
  | some (.ncr, _) => (63, 1)
  | some (.nci, _) => (63, 1)
  | _ => (63, 2)

/-- The destination NI and bridge of a line or register for a requester (12, R333). -/
def Chip.destOf (c : Chip) (ni a : Nat) : Option (Nat × Nat) :=
  match regionOf a with
  | some .ext => match c.portOf a with
    | some q => some (52 + q / 2, q % 2)
    | none => none
  | some .sp => some (if a - spBase < 0x1000000 then (56, 0) else (57, 0))
  | some .bram => let n := (a - bramBase) / 0x2000; some (48 + n / 512, 2 * (n / 256 % 2))
  | some .reg =>
    let off := a - regBase
    if off < 0x1000000 then (match pageKind (off / 0x1000) with | some _ => some (pagePlace (off / 0x1000)) | none => none)
    else match windowStore off with
      | some _ => some (pagePlace (pgEG (c.windowGroup ni)))
      | none => none
  | none => none

/-- The virtual channel of a unit's request (12, R341). -/
def vcOf (a : Asker) (addr : Nat) : Nat :=
  match a with
  | .debug => 3
  | .trace _ _ => 3
  | .pouncer _ => 2
  | _ => if regionOf addr = some .reg then 2 else 0

/-! ## Checks 1 to 4 (01, Table 1-4) -/

/-- The blocks of a size that a byte range touches, by first address. -/
def blocksOf (size addr n : Nat) : List Nat :=
  (List.range ((addr + n - 1) / size + 1 - addr / size)).map fun i => (addr / size + i) * size

/-- Check 1 over a byte range: every line inside the range of Table 1-3 is mapped. -/
def Chip.mapped (c : Chip) (ni addr n : Nat) : Bool :=
  match regionOf addr with
  | none => false
  | some .ext => (blocksOf 4096 addr n).all fun a => decide (2 ^ 42 ≤ a) || (c.portOf a).isSome
  | some .sp => true
  | some .bram => decide ((addr - bramBase) % 0x2000 < 4608)
  | some .reg => (c.destOf ni addr).isSome

/-- Check 2 over a byte range of memory: 0, ERR_DENIED or ERR_OWNER. -/
def Chip.rights (c : Chip) (ni br kidx addr n : Nat) (write : Bool) : Nat :=
  let cls := bridgeClass ni br
  match regionOf addr with
  | some .ext =>
    if (blocksOf 4096 addr n).all fun a => match c.portOf a with | some q => c.slotGrants q kidx cls write | none => true then 0
    else errDenied
  | some .sp =>
    if (blocksOf 0x40000 addr n).all fun a => decide (spBase + 0x2000000 ≤ a) || c.mayUseBank ni br ((a - spBase) / 0x40000) write then 0
    else errOwner
  | some .reg =>
    if cls ≤ 3 ∧ ni ≠ 61 then 0 else if cls = 5 ∧ c.bit GL_REGACC_FAB pgGL then 0 else errDenied
  | _ => 0

/-- Check 3 of a register operation: alignment and width (01, R14, R595, R596). -/
def regAligned (addr : Nat) (wide : Bool) : Bool :=
  let off := addr - regBase
  if off < 0x1000000 then !wide && addr % 4 == 0
  else match windowStore off with
    | some .sched => wide && addr % 8 == 0
    | _ => if wide then addr % 8 == 0 else addr % 4 == 0

/-- Checks 1 to 4 of a request as its requesting NI makes them (12, R348): 0, or the code of the first
check that fails. -/
def Chip.niCheck (c : Chip) (r : Req) : Nat :=
  let (ni, br) := r.asker.place
  let isReg := r.op == .regrd || r.op == .regwr
  let write := r.op == .write || r.op == .regwr
  let n := if isReg then (if r.wide then 8 else 4) else 64 * r.len
  if !c.mapped ni r.addr n then errDecode
  else
    let q := c.rights ni br r.kidx r.addr n write
    if q != 0 then q
    else if isReg then
      if regionOf r.addr != some .reg || !regAligned r.addr r.wide then errAlign
      else if regionEnd r.addr < r.addr + n then errLen else 0
    else if regionOf r.addr == some .reg || r.addr % 64 != 0 then errAlign
    else if regionEnd r.addr < r.addr + n then errLen else 0

/-- Checks 1, 3 and 4 over a buffer that must lie within one range (07, R196, R211). -/
def Chip.bufferCheck (c : Chip) (ni addr n : Nat) : Nat :=
  if !c.mapped ni addr n then errDecode
  else if regionOf addr == some .reg then errAlign
  else if regionEnd addr < addr + n then errLen else 0

/-- Checks 1 to 4 over a buffer of bytes that must lie within one range (13, R368). -/
def Chip.bufferCheck2 (c : Chip) (ni br kidx addr n : Nat) (write : Bool) : Nat :=
  if !c.mapped ni addr n then errDecode
  else
    let q := c.rights ni br kidx addr n write
    if q != 0 then q
    else if regionOf addr == some .reg then errAlign
    else if regionEnd addr < addr + n then errLen else 0

end Sys2Proof.Machine
end

