-- ==== Sys2Proof/Machine/Route.lean ====
section
/-! DEFINITION. Requesting NIs, routes and routers: how requests and responses travel (12, R329, R337 to
R357). -/
namespace Sys2Proof.Machine

/-! ## Topology (12, R329) -/

/-- Ring position of a column. -/
def ringPos (col : Nat) : Nat := if col % 2 = 0 then col / 2 else 11 - (col - 1) / 2

/-- Column at a ring position. -/
def ringCol (p : Nat) : Nat := if p % 12 < 6 then 2 * (p % 12) else 2 * (11 - p % 12) + 1

/-- The router that a port reaches: 0 north, 1 east, 2 south, 3 west. -/
def routerNext (n d : Nat) : Option Nat :=
  let row := n / 12
  let col := n % 12
  match d with
  | 0 => if row = 0 then none else some (n - 12)
  | 1 => some (12 * row + ringCol (ringPos col + 1))
  | 2 => if 7 ≤ row then none else some (n + 12)
  | _ => some (12 * row + ringCol (ringPos col + 11))

/-- Code `i` of a route. -/
def turnCode (r : BitVec 48) (i : Nat) : Nat := bitsOf r.toNat (2 * i + 1) (2 * i)

/-- The output direction of a code; none for the local port (12, R337, Table 12-5). -/
def turn (dir : Option Nat) (code : Nat) : Option Nat :=
  match dir with
  | none => some code
  | some d => match code with
    | 0 => some d
    | 1 => some ((d + 3) % 4)
    | 2 => some ((d + 1) % 4)
    | _ => none

/-- The directions of a route from its first code on, and the codes after its exit; `k` codes are left. -/
def routeDirs (r : BitVec 48) (dir : Option Nat) : Nat → List Nat × List Nat
  | 0 => ([], [])
  | k + 1 =>
    match turn dir (turnCode r (24 - (k + 1))) with
    | none => ([], (List.range k).map fun i => turnCode r (24 - k + i))
    | some d => let (ds, rest) := routeDirs r (some d) k; (d :: ds, rest)

/-- The shape of a legal route: a row segment of at most 11 hops in one direction, then a column segment in one
direction (12, R339). -/
def routeShape (ds : List Nat) : Bool :=
  let row := ds.takeWhile fun d => d % 2 == 1
  let col := ds.drop row.length
  let same := fun (l : List Nat) => match l with | [] => true | d :: t => t.all (· == d)
  decide (row.length ≤ 11) && same row && same col && col.all fun d => d % 2 == 0

/-- Where a route leads from a router; none when it leaves the grid. -/
def routeEnd : Nat → List Nat → Option Nat
  | n, [] => some n
  | n, d :: ds => match routerNext n d with
    | none => none
    | some m => routeEnd m ds

/-- The reason for which NC_RTECMD refuses a route from NI `ni` to NI `m`: 0 for a legal one (12, R339, R340,
NC_RTECMD.ERR). The lowest-numbered reason that holds is recorded (log entry 45). -/
def routeErr (ni m : Nat) (r : BitVec 48) : Nat :=
  let (ds, rest) := routeDirs r none 24
  if !routeShape ds then 1
  else match routeEnd (niRouter ni) ds with
    | none => 2
    | some n => if n ≠ niRouter m then 3 else if rest.any (· != 3) then 4 else 0

/-- The hops from one router to another along the row in the shorter direction, east when both are equal, and
then along the column (12, R355; 18, R495). -/
def shortDirs (a b : Nat) : List Nat :=
  let east := (ringPos (b % 12) + 12 - ringPos (a % 12)) % 12
  let row := if east ≤ 6 then List.replicate east 1 else List.replicate (12 - east) 3
  let col := if a / 12 ≤ b / 12 then List.replicate (b / 12 - a / 12) 2 else List.replicate (a / 12 - b / 12) 0
  row ++ col

/-- The codes of hops: the first names its direction, each later one turns from the direction before. -/
def turnsOf : Option Nat → List Nat → List Nat
  | _, [] => []
  | none, d :: ds => d :: turnsOf (some d) ds
  | some p, d :: ds => (if d = p then 0 else if d = (p + 3) % 4 then 1 else 2) :: turnsOf (some d) ds

/-- The route of hops, exit codes behind them (12, R337). -/
def routeOf (ds : List Nat) : BitVec 48 :=
  let cs := turnsOf none ds
  BitVec.ofNat 48 (ofBits (fun i => match cs[i / 2]? with | some v => v.testBit (i % 2) | none => true) 48)

/-! ## Route tables (12, R338, R340) -/

/-- An entry of an NI's route table. -/
def Chip.routeEntry (c : Chip) (ni i : Nat) : BitVec 49 := Store.get 0 c.net.routes ((ni - 32) * 256 + i)

/-- An entry of an NI's route table takes a value. -/
def Chip.setRoute (c : Chip) (ni i : Nat) (v : BitVec 49) : Chip :=
  { c with net := { c.net with routes := Store.put 0 c.net.routes ((ni - 32) * 256 + i) v } }

/-- The parts of an NI that wait for an answer to a request sent on an entry. -/
def Chip.onEntry (c : Chip) (ni i : Nat) : List Nat :=
  (c.net.flights.filter fun f => f.ni == ni && f.dstNi == 32 + i / 8 &&
    c.get NC_BRG_RVAR (pgNI ni) f.req.asker.place.2 == i % 8 && (f.st == .sent || f.st == .late || f.st == .announced)).map (·.id)

/-- A part still waits for its answer. -/
def Chip.inFlight (c : Chip) (id : Nat) : Bool :=
  c.net.flights.any fun f => f.id == id && (f.st == .sent || f.st == .late || f.st == .announced)

/-- Commands held back for ordering end when the requests on the old route are answered (12, R340). -/
def Chip.routeRelease (c : Chip) : Chip :=
  { c with net := { c.net with rteHeld := c.net.rteHeld.filter fun h => h.2.2.any fun id => c.inFlight id } }

/-- NC_RTECMD.BUSY. -/
def Chip.routeBusy (c : Chip) (ni : Nat) : Bool := c.net.rteHeld.any fun h => h.1 == ni

/-- NC_RTECMD.WR (12, R340). -/
def Chip.routeWrite (c : Chip) (ni i : Nat) (order : Bool) : Chip :=
  let p := pgNI ni
  if c.routeBusy ni then c.wign p
  else
    let r := BitVec.ofNat 48 (c.get NC_RTEL_ROUTE p + c.get NC_RTEH_ROUTE p * 2 ^ 32)
    let e := routeErr ni (32 + i / 8) r
    let c := (c.set NC_RTECMD_INDEX p i).set NC_RTECMD_ERR p e
    if e ≠ 0 then c
    else
      let old := c.onEntry ni i
      let c := c.setRoute ni i (BitVec.ofNat 49 (r.toNat + c.get NC_RTEH_VALID p * 2 ^ 48))
      if order && !old.isEmpty then { c with net := { c.net with rteHeld := c.net.rteHeld ++ [(ni, i, old)] } } else c

/-- NC_RTECMD.RD (12, R340). -/
def Chip.routeRead (c : Chip) (ni i : Nat) : Chip :=
  let p := pgNI ni
  if c.routeBusy ni then c.wign p
  else
    let v := (c.routeEntry ni i).toNat
    (((c.set NC_RTECMD_INDEX p i).set NC_RTEL_ROUTE p v).set NC_RTEH_ROUTE p (v >>> 32)).set NC_RTEH_VALID p (v >>> 48)

/-! ## Sending -/

/-- Flits of a request (12, R336). -/
def Req.flits (r : Req) : Nat := if r.op = .write then 1 + r.lines.length else 1

/-- Flits of the response of a request, the LATE of a SPEC read with them (12, R336, R345, R352). -/
def Req.answerFlits (r : Req) : Nat := if r.op = .read then 2 + r.len + b2n r.spec else 1

/-- A packet leaves an NI towards another under a route entry; a packet of an NI to itself enters no router. The
answer is false where the entry cannot be used (12, R337, R338, R340). -/
def Chip.sendPkt (c : Chip) (src dst rvar : Nat) (p : Packet) : Chip × Bool :=
  if src = dst then
    match p.pt, p.req with
    | .req, some r =>
      ({ c with net := { c.net with arrived := c.net.arrived ++
          [{ ni := p.ni, tag := p.tag, req := r, dstNi := p.dst, bridge := p.bridge, rvar := p.rvar, vc := p.vc }] } }, true)
    | _, _ => ({ c with net := { c.net with packets := c.net.packets ++ [{ p with place := dst, home := true }] } }, true)
  else
    let i := 8 * (dst - 32) + rvar
    let e := c.routeEntry src i
    if e.getLsbD 48 then
      let held := (c.net.rteHeld.filter fun h => h.1 == src && h.2.1 == i).flatMap (·.2.2)
      ({ c with net := { c.net with packets := c.net.packets ++
          [{ p with place := niRouter src, route := e.setWidth 48, after := held }] } }, true)
    else (c, false)

/-- A part changes. -/
def Chip.onFlight (c : Chip) (id : Nat) (f : Flight → Flight) : Chip :=
  { c with net := { c.net with flights := c.net.flights.map fun x => if x.id == id then f x else x } }

/-- A part is over, and its tag free. -/
def Chip.endFlight (c : Chip) (id : Nat) : Chip :=
  ({ c with net := { c.net with flights := c.net.flights.filter fun x => x.id != id } }).routeRelease

/-- The part that holds a tag of an NI. -/
def Chip.flightOf (c : Chip) (ni tag : Nat) : Option Flight :=
  c.net.flights.find? fun f => f.ni == ni && f.tag == some tag

/-- The lowest free tag of an NI (12, R350). -/
def Chip.freeTag (c : Chip) (ni : Nat) : Option Nat :=
  (List.range 256).find? fun t => (c.flightOf ni t).isNone

/-- The flits of responses for which an NI has set room aside (12, R345). -/
def Chip.answerRoom (c : Chip) (ni : Nat) : Nat :=
  (c.net.flights.filter fun f => f.ni == ni && f.tag.isSome).foldl (fun a f => a + f.req.answerFlits) 0

/-- The virtual channel of a part. -/
def Flight.vc (f : Flight) : Nat := vcOf f.req.asker f.req.addr

/-- A part that was issued before, behind the same bridge to the same destination bridge on the same channel,
still waits (12, R351). -/
def Chip.mustWait (c : Chip) (f : Flight) : Bool :=
  c.net.flights.any fun x => decide (x.id < f.id) && x.req.asker.place == f.req.asker.place && x.dstNi == f.dstNi &&
    x.bridge == f.bridge && x.vc == f.vc && (x.st == .waiting || x.st == .announced || x.st == .granted)

/-- The request packet of a part. -/
def Chip.reqPacket (c : Chip) (f : Flight) (tag : Nat) : Packet :=
  { pt := .req, ni := f.ni, tag := tag, vc := f.vc, place := 0, route := 0, dst := f.dstNi, bridge := f.bridge,
    req := some f.req, rvar := c.get NC_BRG_RVAR (pgNI f.ni) f.req.asker.place.2, flits := f.req.flits,
    booked := f.st == .granted }

/-- The flits of one virtual channel that a destination NI holds or has reserved (12, R346). -/
def Chip.heldFlits (c : Chip) (ni vc : Nat) : Nat :=
  (c.net.arrived.filter fun a => a.dstNi == ni && a.vc == vc && !a.done).foldl (fun n a => n + a.req.flits) 0 +
    (c.net.booked.filter fun b => b.1 == ni && b.2.1 == vc).foldl (fun n b => n + b.2.2.2.2) 0

/-- What became of a part that an NI tries to send. -/
inductive Sent where
  | no | yes | noRoute
  deriving DecidableEq, Repr

/-- A waiting or granted part is sent, or announced in reservation mode (12, R345, R346, R350). -/
def Chip.inject (c : Chip) (id : Nat) : Chip × Sent :=
  match c.net.flights.find? fun f => f.id == id with
  | none => (c, .no)
  | some f =>
    let rvar := c.get NC_BRG_RVAR (pgNI f.ni) f.req.asker.place.2
    let send := fun (c : Chip) (tag : Nat) =>
      let (c, ok) := c.sendPkt f.ni f.dstNi rvar (c.reqPacket f tag)
      if ok then (c.onFlight id fun x => { x with tag := some tag, st := .sent }, Sent.yes) else (c, Sent.noRoute)
    if !c.accepts (pgNI f.ni) then (c, .no)
    else match f.st with
      | .granted => match f.tag with
        | some t => send c t
        | none => (c, .no)
      | .waiting =>
        if c.mustWait f then (c, .no)
        else match c.freeTag f.ni with
          | none => (c, .no)
          | some t =>
            if 2048 < c.answerRoom f.ni + f.req.answerFlits then (c, .no)
            else if f.dstNi == f.ni && decide (128 < c.heldFlits f.ni f.vc + f.req.flits) then (c, .no)
            else if c.bit NC_MODE_RSV (pgNI f.ni) && f.dstNi != f.ni then
              if c.net.flights.any fun x => x.ni == f.ni && x.dstNi == f.dstNi && x.vc == f.vc && x.st == .announced then (c, .no)
              else
                let p : Packet := { pt := .rsvreq, ni := f.ni, tag := t, vc := f.vc, place := 0, route := 0, dst := f.dstNi,
                                    bridge := f.bridge, rvar := rvar, flits := f.req.flits }
                let (c, ok) := c.sendPkt f.ni f.dstNi rvar p
                if ok then (c.onFlight id fun x => { x with tag := some t, st := .announced }, .yes) else (c, .noRoute)
            else send c t
      | _ => (c, .no)

/-- The runs of consecutive lines of a request with one destination: first line, destination (12, R349). -/
def Chip.partsOf (c : Chip) (r : Req) : List (Nat × Nat × (Nat × Nat)) :=
  let ni := r.asker.place.1
  if r.op == .regrd || r.op == .regwr then
    match c.destOf ni r.addr with | some d => [(0, 1, d)] | none => []
  else
    (List.range r.len).foldl (fun ps i =>
      match c.destOf ni (r.addr + 64 * i), ps.getLast? with
      | some d, some (b, n, d') => if d = d' then ps.dropLast ++ [(b, n + 1, d)] else ps ++ [(i, 1, d)]
      | some d, none => [(i, 1, d)]
      | none, _ => ps) []

/-- A request that passed its checks enters its NI in parts (12, R348, R349). -/
def Chip.accept (c : Chip) (r : Req) : Chip :=
  (c.partsOf r).foldl (fun c p =>
    let part := { r with addr := r.addr + 64 * p.1, len := p.2.1, lines := (r.lines.drop p.1).take p.2.1,
                         base := r.base + p.1, whole := r.len }
    { c with net := { c.net with next := c.net.next + 1,
                                 flights := c.net.flights ++
        [{ id := c.net.next, ni := r.asker.place.1, req := part, dstNi := p.2.2.1, bridge := p.2.2.2 }] } }) c

/-- The key index that the NI stamps (12, NC_BRG). -/
def Chip.stamp (c : Chip) (r : Req) : Req :=
  let (ni, b) := r.asker.place
  if c.bit NC_BRG_KSRC (pgNI ni) b then r else { r with kidx := c.get NC_BRG_KIDX (pgNI ni) b }

/-! ## Routers (12, R337, R342, R354, R355, R357) -/

/-- A packet at its place changes or goes. -/
def Chip.putPacket (c : Chip) (i : Nat) (p : Option Packet) : Chip :=
  { c with net := { c.net with packets := match p with
      | some q => (c.net.packets.eraseIdx i) ++ [q]
      | none => c.net.packets.eraseIdx i } }

/-- A router drops a packet (12, R355). -/
def Chip.dropPacket (c : Chip) (n i : Nat) : Chip :=
  let p := 0x80 + n
  (((c.putPacket i none).setB NC_RSTS_DROP p true).count NC_RERRCNT_DROP p).report p 1

/-- A router answers a packet with ERR_ROUTE, or drops it (12, R355). -/
def Chip.routeFail (c : Chip) (n i : Nat) (p : Packet) : Chip :=
  let pg := 0x80 + n
  let codes := match p.pt, p.req with
    | .req, some r => some (List.replicate (if r.op == .read || r.op == .write then r.len else 1) errRoute)
    | .rsvreq, _ => some [errRoute]
    | _, _ => none
  match codes with
  | none => ((c.setB NC_RSTS_ROUTE pg true).report pg 0).dropPacket n i
  | some cs =>
    let c := (((c.putPacket i none).setB NC_RSTS_ROUTE pg true).count NC_RERRCNT_ROUTE pg).report pg 0
    let q : Packet := { pt := .rsp, ni := p.ni, tag := p.tag, vc := 1, place := n, dst := p.ni, codes := cs,
                        route := routeOf (shortDirs n (niRouter p.ni)) }
    let q := if n = niRouter p.ni then { q with place := p.ni, home := true } else q
    { c with net := { c.net with packets := c.net.packets ++ [q] } }

/-- A head flit is the oldest of its input and channel. -/
def Chip.firstAt (c : Chip) (i : Nat) (p : Packet) : Bool :=
  !(c.net.packets.take i).any fun q => !q.home && q.place == p.place && q.dir == p.dir && q.vc == p.vc && q.lane == p.lane

/-- The lane of a packet on the link that leaves a router: the dateline links move it to lane 1 (12, R342). -/
def laneOn (n d lane : Nat) : Nat :=
  if d % 2 = 0 then 0
  else if (d = 1 ∧ n % 12 = 1) ∨ (d = 3 ∧ n % 12 = 0) then 1 else lane

/-- A packet reaches the NI at its router (12, R346, R347, R358). -/
def Chip.eject (c : Chip) (i ni : Nat) (p : Packet) : Chip :=
  match p.pt, p.req with
  | .req, some r =>
    let c := c.putPacket i none
    let booked := c.net.booked.filter fun b => !(b.1 == ni && b.2.1 == p.vc && b.2.2.1 == p.ni && b.2.2.2.1 == p.tag)
    { c with net := { c.net with booked := booked, arrived := c.net.arrived ++
        [{ ni := p.ni, tag := p.tag, req := r, dstNi := p.dst, bridge := p.bridge, rvar := p.rvar, vc := p.vc,
           poison := p.poisonHead, bad := p.poisoned }] } }
  | _, _ => c.putPacket i (some { p with place := ni, home := true })

/-- A request that leaves the routers finds room at its NI (12, R345, R346). -/
def Chip.hasRoom (c : Chip) (n : Nat) (p : Packet) : Bool :=
  match routerNi n with
  | some ni => p.pt != .req || p.booked || decide (c.heldFlits ni p.vc + p.flits ≤ 128)
  | none => true

/-- The words of the flits of a packet at a router are corrected or poison it (12, R357). -/
def Packet.upset (p : Packet) (u : FlitUpset) : Packet :=
  { p with poisonHead := p.poisonHead || u.bad.contains 0,
           poisoned := (p.poisoned ++ (u.bad.filter (· != 0)).map (· - 1)).eraseDups }

/-- What a router counts and reports of upset flits (12, R357). -/
def Chip.flitNote (c : Chip) (pg : Nat) (u : FlitUpset) : Chip :=
  let c := c.set NC_RCECNT_CE pg (min 0xFFFF (c.get NC_RCECNT_CE pg + u.fixed))
  let c := c.reportIf (u.fixed != 0) pg 2
  let c := c.set NC_RCECNT_UE pg (min 0xFFFF (c.get NC_RCECNT_UE pg + u.bad.eraseDups.length))
  c.reportIf (!u.bad.isEmpty && !u.header) pg 3

/-- A router forwards a packet to an output, delivers it, or refuses it (12, R337, R355). -/
def Chip.forward (c : Chip) (n i : Nat) (p : Packet) (out : Option Nat) : Chip :=
  let pg := 0x80 + n
  match out with
  | some d =>
    match routerNext n d with
    | some m =>
      if (c.get NC_RCTL_PORTEN pg).testBit d then
        c.putPacket i (some { p with place := m, dir := some d, lane := laneOn n d p.lane })
      else c.routeFail n i p
    | none => c.routeFail n i p
  | none =>
    match routerNi n with
    | some ni => if c.bit NC_RCTL_LOCEN pg then c.eject i ni p else c.routeFail n i p
    | none => c.routeFail n i p

/-- A router takes the head flit of a packet (12, R337, R354). A packet moves as a whole; the flits that follow
its head make no difference of their own (log entry 46). -/
def Chip.routerHead (c : Chip) (i : Nat) (u : FlitUpset) : Chip :=
  match c.net.packets[i]? with
  | none => c
  | some p =>
    let n := p.place
    let out := turn p.dir (turnCode p.route 0)
    if p.home || !c.firstAt i p || (p.after.any fun id => c.inFlight id) then c
    else if !c.accepts (0x80 + n) || (out.isNone && !c.hasRoom n p) then c
    else
      let c := c.flitNote (0x80 + n) u
      if u.header then (c.dropPacket n i).report (0x80 + n) 4
      else c.forward n i { p.upset u with route := BitVec.ofNat 48 (p.route.toNat / 4 + 3 * 2 ^ 46) } out

/-! ## Answers and grants (12, R336, R338, R346) -/

/-- RSVREQs that an NI holds are granted per channel in order of arrival while room is free (12, R346); `k`
bounds how many. -/
def Chip.grants (c : Chip) (ni : Nat) : Nat → Chip
  | 0 => c
  | k + 1 =>
    let first := (List.range 4).findSome? fun vc =>
      match c.net.rsv.find? fun p => p.dst == ni && p.vc == vc with
      | some p => if c.heldFlits ni vc + p.flits ≤ 128 then some p else none
      | none => none
    match first with
    | none => c
    | some p =>
      let c := { c with net := { c.net with rsv := c.net.rsv.erase p,
                                            booked := c.net.booked ++ [(ni, p.vc, p.ni, p.tag, p.flits)] } }
      ((c.sendPkt ni p.ni p.rvar { pt := .rsvgnt, ni := p.ni, tag := p.tag, vc := 1, place := 0, route := 0, dst := p.ni,
                                   flits := p.vc }).1).grants ni k

/-- A request that has arrived is answered and leaves its NI's buffer (12, R336). A response whose route entry
cannot be used is not sent. -/
def Chip.reply (c : Chip) (a : Arrived) (codes : List Nat) (data : List (BitVec 512)) (rdata : BitVec 64 := 0) : Chip :=
  let c := { c with net := { c.net with arrived := c.net.arrived.filter fun x => !(x.ni == a.ni && x.tag == a.tag && x.dstNi == a.dstNi) } }
  let good := codes.any (· == 0)
  let c := (c.sendPkt a.dstNi a.ni a.rvar
    { pt := .rsp, ni := a.ni, tag := a.tag, vc := 1, place := 0, route := 0, dst := a.ni, codes := codes,
      data := if good then data else [], rdata := rdata }).1
  c.grants a.dstNi 16

/-- The lines that an answer has a code for: one for a register operation (12, R336). -/
def Arrived.lines (a : Arrived) : Nat := if a.req.op == .read || a.req.op == .write then a.req.len else 1

/-- A request is answered with one code on every line. -/
def Chip.refuse (c : Chip) (a : Arrived) (code : Nat) : Chip := c.reply a (List.replicate a.lines code) []

/-- The LATE of a SPEC read follows its response (12, R352). -/
def Chip.sendLate (c : Chip) (a : Arrived) (codes : List Nat) : Chip :=
  (c.sendPkt a.dstNi a.ni a.rvar { pt := .late, ni := a.ni, tag := a.tag, vc := 1, place := 0, route := 0, dst := a.ni, codes := codes }).1

/-- A line of an arrived READ or WRITE is decided; with the last one the answer is sent (12, R349, R352; 14,
R401, R403). -/
def Chip.lineDone (c : Chip) (dst ni tag line code : Nat) (data : BitVec 512) (late : Nat) : Chip :=
  let upd := fun (a : Arrived) =>
    if a.dstNi == dst && a.ni == ni && a.tag == tag then
      { a with codes := a.codes ++ [(line, code)], data := a.data ++ [(line, data)], late := a.late ++ [(line, late)] }
    else a
  let c := { c with net := { c.net with arrived := c.net.arrived.map upd } }
  match c.net.arrived.find? fun a => a.dstNi == dst && a.ni == ni && a.tag == tag with
  | none => c
  | some a =>
    if a.codes.length < a.req.len then c
    else
      let ls := List.range a.req.len
      let codes := ls.map fun i => (a.codes.lookup i).getD 0
      let c := c.reply a codes (if a.req.op == .read then ls.map fun i => if (a.codes.lookup i).getD 0 = 0 then (a.data.lookup i).getD 0 else 0 else [])
      if a.req.op == .read && a.req.spec && codes.any (· == 0) then c.sendLate a (ls.map fun i => (a.late.lookup i).getD 0) else c

end Sys2Proof.Machine
end

