-- ==== Sys2Proof/Machine/HostPort.lean ====
section
/-! DEFINITION. The host port: its requests, its configuration space, MSI-X and its resets (15, R436 to R444, R603). -/
namespace Sys2Proof.Machine

/-- The host port's own state changes. -/
def Chip.onHost (c : Chip) (f : HostSt → HostSt) : Chip := { c with link := { c.link with host := f c.link.host } }

/-! ## Configuration space (R436, Table 15-10) -/

/-- PCI Express Revision ID (00, Table 0-3). -/
def Stepping.revision : Stepping → Nat
  | .a0 => 0x00
  | .a1 => 0x01
  | .b0 => 0x10

/-- Register numbers of the capabilities (log entry 50): power management at 0x40, MSI-X at 0x50, PCI Express at
0x70, AER at 0x100, device serial number at 0x140. -/
def cfgPmcsr : Nat := 0x44 / 4
def cfgMsix : Nat := 0x50 / 4
def cfgDevCtl : Nat := 0x78 / 4
def cfgAerUnc : Nat := 0x104 / 4

/-- What a configuration register holds in its read-only bits (R436; log entry 50). -/
def Chip.cfgFixed (c : Chip) (n : Nat) : Nat :=
  let link := c.get HP_LINK_SPEED pgHP + c.get HP_LINK_WIDTH pgHP * 16
  match 4 * n with
  | 0x00 => 0x05121F3A
  | 0x04 => 0x00100000
  | 0x08 => 0x12000000 + c.stepping.revision
  | 0x10 => 0x4
  | 0x18 => 0xC
  | 0x2C => c.rst.ssvid + c.rst.ssid * 2 ^ 16
  | 0x34 => 0x40
  | 0x40 => 0x00035001
  | 0x50 => 0x003F7011
  | 0x54 => 0x00170800
  | 0x58 => 0x00170C00
  | 0x70 => 0x00020010
  | 0x74 => 0x10008002
  | 0x7C => 0x00000884
  | 0x80 => link * 2 ^ 16
  | 0x94 => 0x00010000
  | 0x100 => 0x14010001
  | 0x140 => 0x00010003
  | 0x144 => c.serial % 2 ^ 32
  | 0x148 => c.serial / 2 ^ 32 % 2 ^ 32
  | _ => 0

/-- The bits of a configuration register that configuration writes set (log entry 50). -/
def cfgMask (n : Nat) : Nat :=
  match 4 * n with
  | 0x04 => 0x0546
  | 0x0C => 0xFF
  | 0x10 => 0xF8000000
  | 0x14 => 0xFFFFFFFF
  | 0x1C => 0xFFFFFFF0
  | 0x3C => 0xFF
  | 0x44 => 0x3
  | 0x50 => 0xC0000000
  | 0x78 => 0x00007FFF
  | 0x80 => 0x000003F3
  | 0x108 => 0x07FFF030
  | 0x10C => 0x07FFF030
  | 0x114 => 0x0000F1C1
  | _ => 0

/-- The bits that a write of 1 clears: the error status of AER and of the function. -/
def cfgW1c (n : Nat) : Nat :=
  match 4 * n with
  | 0x78 => 0x000F0000
  | 0x104 => 0x07FFF030
  | 0x110 => 0x0000F1C1
  | _ => 0

/-- What a configuration register's writable bits hold at reset: the maximum read request is 512 bytes, errors
that AER signals as fatal by default are not held. -/
def Chip.cfgHeld (c : Chip) (n : Nat) : Nat := ((c.link.host.cfg.lookup n).map (·.toNat)).getD (if n = cfgDevCtl then 0x2810 else 0)

/-- A configuration register's bits take a value. -/
def Chip.setCfg (c : Chip) (n v : Nat) : Chip :=
  c.onHost fun h => { h with cfg := Store.insert (Store.erase h.cfg n) n (BitVec.ofNat 32 v) }

/-- A configuration register reads as. -/
def Chip.cfgRead (c : Chip) (n : Nat) : Nat := c.cfgFixed n ||| c.cfgHeld n

/-- An error that AER shows (R440): 12 poisoned, 15 Completer Abort, 20 Unsupported Request. -/
def Chip.aer (c : Chip) (bit : Nat) : Chip := c.setCfg cfgAerUnc (c.cfgHeld cfgAerUnc ||| 2 ^ bit)

/-- The function is in D3hot. -/
def Chip.hostD3 (c : Chip) : Bool := c.cfgHeld cfgPmcsr % 4 == 3

/-! ## MSI-X (R441) -/

/-- A vector's pending bit. -/
def Chip.msixPend (c : Chip) (v : Nat) : Bool := (c.get MSIX_PBA_PEND pgHP (v / 32)).testBit (v % 32)

/-- A vector's pending bit takes a value. -/
def Chip.setPend (c : Chip) (v : Nat) (b : Bool) : Chip :=
  c.set MSIX_PBA_PEND pgHP (setBit (c.get MSIX_PBA_PEND pgHP (v / 32)) (v % 32) b) (v / 32)

/-- MSI-X is enabled, and neither the function mask nor the vector's mask is set. -/
def Chip.msixOpen (c : Chip) (v : Nat) : Bool :=
  (c.cfgHeld cfgMsix).testBit 31 && !(c.cfgHeld cfgMsix).testBit 30 && !c.bit MSIX_CTL_MASK pgHP v

/-- A vector's message is sent: the vector, and the address and data of its table entry. -/
def Chip.msixSend (c : Chip) (v : Nat) : Chip :=
  let m := (v, BitVec.ofNat 64 (c.get MSIX_ADDRL_ADDR pgHP v * 4 + c.get MSIX_ADDRH_ADDR pgHP v * 2 ^ 32), BitVec.ofNat 32 (c.get MSIX_DATA_DATA pgHP v))
  c.onHost fun h => { h with msgs := m :: h.msgs }

/-- A vector is raised: its message is sent, or its pending bit is set. -/
def Chip.msixRaise (c : Chip) (v : Nat) : Chip :=
  if c.msixOpen v then c.msixSend v else c.setPend v true

/-- Pending messages whose masks have cleared are sent. -/
def Chip.msixFlush (c : Chip) : Chip :=
  c.each (List.range 64) fun c v => if c.msixPend v && c.msixOpen v then (c.setPend v false).msixSend v else c

/-- HP_MSIFRCL and HP_MSIFRCH. -/
def Chip.msixForce (c : Chip) (high : Bool) (bits : Nat) : Chip :=
  c.each (setBitsOf 32 bits) fun c i => c.msixRaise (i + 32 * b2n high)

/-! ## Requests (R437 to R440) -/

/-- The link carries requests. -/
def Chip.hostUp (c : Chip) : Bool := c.domOn 79 && !c.pin.perst && c.bit HP_LINK_DLUP pgHP

/-- A completion is sent. -/
def Chip.complete (c : Chip) (id : Nat) (a : Cpl) : Chip := c.onHost fun h => { h with cpls := (id, a) :: h.cpls }

/-- A failure is logged (R440). -/
def Chip.hostLog (c : Chip) (bar2 write : Bool) (addr code : Nat) : Chip :=
  let c := if c.bit HP_ERRSTS_VALID pgHP then c
    else ((((c.set HP_ERRSTS_VALID pgHP 1).set HP_ERRSTS_KIND pgHP (2 * b2n bar2 + b2n write)).set HP_ERRSTS_CODE pgHP code).set
      HP_ERRADDRL_ADDR pgHP (addr % 2 ^ 32)).set HP_ERRADDRH_ADDR pgHP (addr / 2 ^ 32)
  if write then (c.count HP_ERRCNT_WR pgHP).report pgHP 2 else (c.count HP_ERRCNT_RD pgHP).report pgHP 1

/-- The read data of a request; lines that failed read 0. -/
def HostReq.readData (q : HostReq) : List (BitVec 8) :=
  (List.range q.bytes).map fun i =>
    let a := q.from_ + i
    let unit := if q.bar2 then a / 64 * 64 else a
    match (q.got.filter fun g => g.1 ≤ unit).foldl (fun (m : Option (Nat × BitVec 512)) g => match m with | some b => if b.1 < g.1 then some g else m | none => some g) none with
    | some (b, d) => if a - b < 64 then BitVec.ofNat 8 (d.toNat / 256 ^ (a - b)) else 0
    | none => 0

/-- A request has ended: it is completed, or logged (Table 15-11). -/
def Chip.hostEnd (c : Chip) (q : HostReq) : Chip :=
  let c := c.onHost fun h => { h with reqs := h.reqs.filter fun x => x.id != q.id }
  match q.err with
  | none => c.complete q.id (if q.write then .posted else .success q.readData)
  | some (addr, code) =>
    let c := c.hostLog q.bar2 q.write addr code
    if q.write then c.complete q.id .posted
    else if c.bit HP_CTL_ERRCPL pgHP then c.complete q.id (.success q.readData)
    else if q.decode then (c.aer 20).complete q.id .unsupported
    else (c.aer 15).complete q.id .completerAbort

/-- The first failure of a request in address order. -/
def HostReq.fails (q : HostReq) (addr code : Nat) : HostReq :=
  let q := { q with decode := q.decode || code == errDecode }
  match q.err with
  | some (a, _) => if addr < a then { q with err := some (addr, code) } else q
  | none => { q with err := some (addr, code) }

/-- A request of the list takes a new state. -/
def Chip.setHostReq (c : Chip) (q : HostReq) : Chip :=
  c.onHost fun h => { h with reqs := h.reqs.map fun x => if x.id == q.id then q else x }

/-- Lines or registers that a network request asks for. -/
def Req.units (r : Req) : Nat := if r.op == .read || r.op == .write then r.len else 1

/-- The host port issues requests in the order received, a read only when every earlier write to a different
destination bridge has been answered (R439). -/
def Chip.hostPump (c : Chip) : Nat → Chip
  | 0 => c
  | k + 1 =>
    match c.link.host.reqs.find? fun q => !q.todo.isEmpty with
    | none => c
    | some q =>
      match q.todo with
      | [] => c
      | r :: rest =>
        let dests := ((c.partsOf r).map (·.2.2)).eraseDups
        let earlier := c.link.host.reqs.takeWhile fun x => x.id != q.id
        let holds := !q.write && earlier.any fun (x : HostReq) => x.write && x.dests.any fun d => dests.any fun d' => d != d'
        if holds || (!q.bar2 && decide (0 < q.out)) then c
        else
          ((c.ask r).setHostReq { q with todo := rest, out := q.out + r.units, dests := q.dests ++ dests }).hostPump k

/-- A BAR2 request that has not entered the network meets RUN = 0 (R444). -/
def Chip.hostStopped (c : Chip) : Chip :=
  if c.accepts pgHP && c.works pgHP then c
  else (c.link.host.reqs.filter fun (q : HostReq) => q.bar2 && q.dests.isEmpty).foldl
    (fun (c : Chip) q => c.hostEnd { q with err := some (q.from_, errStopped), todo := [] }) c

/-- A request is received and issued as far as it may be. -/
def Chip.hostTake (c : Chip) (q : HostReq) : Chip :=
  ((c.onHost fun h => { h with reqs := h.reqs ++ [q], next := h.next + 1 }).hostStopped).hostPump 256

/-- The number of the next request. -/
def Chip.hostNext (c : Chip) : Nat := c.link.host.next

/-- A request that ends at once. -/
def Chip.hostNow (c : Chip) (a : Cpl) : Chip := (c.complete c.hostNext a).onHost fun h => { h with next := h.next + 1 }

/-- Requests that no BAR serves, and poisoned writes (Table 15-11). -/
def Chip.hostOdd (c : Chip) (form : HostForm) (write : Bool) : Chip :=
  match form with
  | .poisoned => (c.aer 12).hostNow .posted
  | .noBar => if write then (c.aer 20).hostNow .posted else (c.aer 20).hostNow .unsupported
  | .locked => if write then (c.aer 20).hostNow .posted else (c.aer 20).hostNow .unsupported
  | _ => (c.aer 20).hostNow .unsupported

/-- The form of a request that is no plain memory request: a poisoned read is none. -/
def HostForm.odd (f : HostForm) (write : Bool) : Bool := f != .memory && (f != .poisoned || write)

/-- A BAR0 request: offset, DWs, byte enables, data (R437). -/
def Chip.bar0 (c : Chip) (form : HostForm) (write : Bool) (off dw be : Nat) (data : BitVec 64) : Chip :=
  if !c.hostUp || c.link.host.flr then c
  else if form.odd write then c.hostOdd form write
  else if c.hostD3 then c.hostOdd .noBar write
  else
    let off := off / 4 * 4
    let addr := regBase + off
    let id := c.hostNext
    let op : Op := if write then .regwr else .regrd
    let asker : Asker := .host id
    let q : HostReq := { id := id, bar2 := false, write := write, from_ := addr, bytes := 4 * dw }
    if dw = 1 ∧ be = 0xF then
      c.hostTake { q with todo := [{ asker := asker, op := op, addr := addr, wdata := BitVec.ofNat 64 (data.toNat % 2 ^ 32) }] }
    else if dw = 2 ∧ be = 0xFF ∧ off % 8 = 0 then
      if windowStore off = some .sched then c.hostTake { q with todo := [{ asker := asker, op := op, addr := addr, wide := true, wdata := data }] }
      else c.hostTake { q with todo := [{ asker := asker, op := op, addr := addr, wdata := BitVec.ofNat 64 (data.toNat % 2 ^ 32) },
                                        { asker := asker, op := op, addr := addr + 4, wdata := BitVec.ofNat 64 (data.toNat / 2 ^ 32) }] }
    else (c.onHost fun h => { h with next := h.next + 1 }).hostEnd { q with err := some (addr, errAlign) }

/-- The lines of a BAR2 write: 64 bytes and a byte mask each (R438). -/
def hostLines (addr : Nat) (bytes : List (BitVec 8 × Bool)) : List Line :=
  let n := (addr % 64 + bytes.length + 63) / 64
  let at_ := fun (i : Nat) => if addr % 64 ≤ i then bytes[i - addr % 64]? else none
  (List.range n).map fun l =>
    { data := BitVec.ofNat 512 (leNat ((List.range 64).map fun i => ((at_ (64 * l + i)).map (·.1)).getD 0)),
      mask := BitVec.ofNat 64 (ofBits (fun i => ((at_ (64 * l + i)).map (·.2)).getD false) 64) }

/-- A BAR2 request: offset and bytes; a write carries each byte with its enable (R438). -/
def Chip.bar2 (c : Chip) (form : HostForm) (write : Bool) (off len : Nat) (bytes : List (BitVec 8 × Bool)) : Chip :=
  if !c.hostUp || c.link.host.flr then c
  else if form.odd write then c.hostOdd form write
  else if c.hostD3 then c.hostOdd .noBar write
  else
    let addr := c.get HP_WIN_BASE pgHP * 2 ^ 30 + off
    let n := if write then bytes.length else len
    let id := c.hostNext
    let q : HostReq := { id := id, bar2 := true, write := write, from_ := addr, bytes := n }
    if n = 0 then c.hostNow (if write then .posted else .success [])
    else if 2 ^ 44 < addr + n then (c.onHost fun h => { h with next := h.next + 1 }).hostEnd { q with err := some (addr, errDecode), decode := true }
    else if write then
      let ls := hostLines addr bytes
      c.hostTake { q with todo := [{ asker := .host id, op := .write, addr := addr / 64 * 64, len := ls.length, lines := ls, whole := ls.length }] }
    else
      let lines := (addr % 64 + n + 63) / 64
      c.hostTake { q with todo := (List.range ((lines + 63) / 64)).map fun i =>
        let k := min 64 (lines - 64 * i)
        { asker := .host id, op := .read, addr := addr / 64 * 64 + 4096 * i, len := k, whole := k } }

/-- Lines or a register of a request are answered (R440). -/
def Chip.hostAnswer (c : Chip) (id addr : Nat) (codes : List Nat) (data : List (BitVec 512)) (rdata : BitVec 64) (reg : Bool) : Chip :=
  match c.link.host.reqs.find? fun (q : HostReq) => q.id == id with
  | none => c
  | some q =>
    let q := codes.zipIdx.foldl (fun (q : HostReq) ki =>
      let a := addr + 64 * ki.2
      if ki.1 ≠ 0 then q.fails a ki.1
      else if q.write then q
      else { q with got := q.got ++ [(a, if reg then BitVec.ofNat 512 rdata.toNat else data.getD ki.2 0)] }) q
    let q := { q with out := q.out - codes.length }
    if q.out = 0 ∧ q.todo.isEmpty then (c.hostEnd q).hostPump 256 else (c.setHostReq q).hostPump 256

/-- Requests of the host port are still in the network. -/
def Chip.hostPending (c : Chip) : Bool :=
  let mine := fun (a : Asker) => match a with | .host _ => true | _ => false
  (c.net.want.any fun r => mine r.asker) || c.net.flights.any fun f => mine f.req.asker && f.st != .lost && f.st != .dropped

/-- A Function Level Reset completes when every request has been answered or has timed out (R442). -/
def Chip.flrLook (c : Chip) : Chip := if c.link.host.flr && !c.hostPending then c.onHost fun h => { h with flr := false } else c

/-- The configuration space and the HP registers take their reset values; what the link is stays to be seen in
HP_LINK (R442). -/
def Chip.hostReset (c : Chip) : Chip :=
  let up := c.get HP_LINK_DLUP pgHP
  let w := c.get HP_LINK_WIDTH pgHP
  let s := c.get HP_LINK_SPEED pgHP
  let c := (((c.clearBlock pgHP).set HP_LINK_DLUP pgHP up).set HP_LINK_WIDTH pgHP w).set HP_LINK_SPEED pgHP s
  c.onHost fun h => { h with reqs := [], cfg := [], flr := false }

/-- The link is down. -/
def Chip.hostLinkOff (c : Chip) : Chip := ((c.set HP_LINK_DLUP pgHP 0).set HP_LINK_WIDTH pgHP 0).set HP_LINK_SPEED pgHP 0

/-- PERST_N is asserted (R442); it is ignored while domain 79 is not on (R443). -/
def Chip.perst (c : Chip) : Chip :=
  let c := { c with pin := { c.pin with perst := true } }
  if c.domOn 79 then (c.hostLinkOff).hostReset else c

/-- PERST_N is deasserted. -/
def Chip.perstRelease (c : Chip) : Chip := { c with pin := { c.pin with perst := false } }

/-- A hot reset (R442). -/
def Chip.hotReset (c : Chip) : Chip := if c.hostUp then c.hostReset else c

/-- A Function Level Reset (R442). -/
def Chip.functionReset (c : Chip) : Chip :=
  if c.hostUp then (((c.hostReset).onHost fun h => { h with flr := true }).flrLook) else c

/-- The link leaves DL_Active (R442). -/
def Chip.hostLinkDown (c : Chip) : Chip :=
  if c.bit HP_LINK_DLUP pgHP then
    (((c.hostLinkOff).hostReset).reportIf (!c.pin.perst) pgHP 0)
  else c

/-- The link completes training (R442). -/
def Chip.hostLinkUp (c : Chip) (width speed : Nat) : Chip :=
  if c.domOn 79 && !c.pin.perst && c.bit CK_LOOPSTS_HOST pgCK && [1, 2, 4, 8].contains width && 1 ≤ speed && speed ≤ 4 then
    ((c.set HP_LINK_DLUP pgHP 1).set HP_LINK_WIDTH pgHP width).set HP_LINK_SPEED pgHP speed
  else c

/-- A configuration request: Type 1, write, register number, byte enables, data (R436, R440). -/
def Chip.hostConfig (c : Chip) (type1 write : Bool) (n be data : Nat) : Chip :=
  if !c.hostUp || c.link.host.flr then c
  else if type1 then (c.aer 20).hostNow .unsupported
  else if !write then c.hostNow (.success (natLe 4 (c.cfgRead n)))
  else
    let lanes := (List.range 4).foldl (fun a i => if be.testBit i then a + 255 * 256 ^ i else a) 0
    let m := cfgMask n &&& lanes
    let old := c.cfgHeld n
    let new := ((old &&& (2 ^ 32 - 1 - m)) ||| (data &&& m)) &&& (2 ^ 32 - 1 - (data &&& cfgW1c n &&& lanes))
    let c := (if cfgMask n = 0 ∧ cfgW1c n = 0 then c else c.setCfg n new).hostNow (.success [])
    let c := c.msixFlush
    -- Initiate Function Level Reset
    if n = cfgDevCtl ∧ be.testBit 1 ∧ data.testBit 15 then c.functionReset else c

/-- STOP_REQ of the HP page: BAR2 requests in the network are answered with ERR_STOPPED (R444). -/
def Chip.hostStop (c : Chip) : Chip :=
  (c.link.host.reqs.filter (·.bar2)).foldl
    (fun (c : Chip) q => c.hostEnd { q with err := some (q.from_, errStopped), todo := [] }) c

/-- No BAR2 request is in the network. -/
def Chip.hostQuiet (c : Chip) : Bool := !c.link.host.reqs.any fun (q : HostReq) => q.bar2 && !q.dests.isEmpty

/-- Domain 79 leaves the on state (R603): BAR2 requests in the network are answered, the others are discarded, and
the link goes down. -/
def Chip.hostFall (c : Chip) : Chip :=
  let c := c.onHost fun h => { h with reqs := h.reqs.filter fun (q : HostReq) => q.bar2 && !q.dests.isEmpty }
  ((c.hostStop).hostLinkOff).onHost fun h => { h with reqs := [], cfg := [], flr := false }

end Sys2Proof.Machine
end

