-- ==== Sys2Proof/Machine/Engine.lean ====
section
/-! DEFINITION. The engine array within one step: stores, the function of a Boolean processor, the
crossbar, the group ring and the step links, the commit map and the signature (02, 03, 05, 06). -/
namespace Sys2Proof.Machine

/-! ## Access to the stores -/

/-- The state of a group. -/
def Chip.grp (c : Chip) (g : Nat) : GroupSt := Store.get {} c.eng.group g

/-- A group takes a state. -/
def Chip.setGrp (c : Chip) (g : Nat) (x : GroupSt) : Chip :=
  { c with eng := { c.eng with group := Store.put {} c.eng.group g x } }

/-- A Boolean processor. -/
def Chip.bp (c : Chip) (e b : Nat) : BpSt := Store.get {} c.eng.bp (e * 128 + b)

/-- A Boolean processor takes a state. -/
def Chip.setBp (c : Chip) (e b : Nat) (x : BpSt) : Chip :=
  { c with eng := { c.eng with bp := Store.put {} c.eng.bp (e * 128 + b) x } }

/-- What a schedule word reads as that nothing has been stored in: an idle word with valid check bits (log entry 5). -/
def schedIdle : BitVec 72 := secded 0xFF

/-- A stored schedule word (02, R55). -/
def Chip.schedWord (c : Chip) (e b w : Nat) : BitVec 72 := Store.get schedIdle c.eng.sched ((e * 128 + b) * 1024 + w)

/-- A schedule word is stored with generated check bits (01, R37; 03, R83). -/
def Chip.setSched (c : Chip) (e b w : Nat) (d : BitVec 64) : Chip :=
  { c with eng := { c.eng with sched := Store.put schedIdle c.eng.sched ((e * 128 + b) * 1024 + w) (secded d) } }

/-- Every schedule word of an engine is stored, with generated check bits (03, R108). -/
def Chip.loadSched (c : Chip) (e : Nat) (ws : List (BitVec 64)) : Chip :=
  { c with eng := { c.eng with sched := Store.load schedIdle c.eng.sched (e * 131072) (ws.map secded) } }

/-- A step control record (03, R85). -/
def Chip.ctlRec (c : Chip) (e i : Nat) : BitVec 512 := Store.get 0 c.eng.ctl (e * 1024 + i)

/-- A step control record is stored. -/
def Chip.setCtl (c : Chip) (e i : Nat) (r : BitVec 512) : Chip :=
  { c with eng := { c.eng with ctl := Store.put 0 c.eng.ctl (e * 1024 + i) r } }

/-- Every step control record of an engine is stored. -/
def Chip.loadCtl (c : Chip) (e : Nat) (rs : List (BitVec 512)) : Chip :=
  { c with eng := { c.eng with ctl := Store.load 0 c.eng.ctl (e * 1024) rs } }

/-- A commit-map entry (03, R89). -/
def Chip.mapEntry (c : Chip) (e b j : Nat) : BitVec 12 := Store.get 0 c.eng.cmap ((e * 128 + b) * 256 + j)

/-- A commit-map entry is stored. -/
def Chip.setMap (c : Chip) (e b j : Nat) (v : BitVec 12) : Chip :=
  { c with eng := { c.eng with cmap := Store.put 0 c.eng.cmap ((e * 128 + b) * 256 + j) v } }

/-- Every commit-map entry of an engine is stored. -/
def Chip.loadMap (c : Chip) (e : Nat) (vs : List (BitVec 12)) : Chip :=
  { c with eng := { c.eng with cmap := Store.load 0 c.eng.cmap (e * 32768) vs } }

/-- A stored word of the state file: bank 0 or 1, word 0 to 3 (02, R55). -/
def Chip.bankWord (c : Chip) (e b bank q : Nat) : BitVec 72 :=
  Store.get 0 c.eng.bank (((e * 128 + b) * 2 + bank) * 4 + q)

/-- A state-file word is stored as it stands. -/
def Chip.setBankRaw (c : Chip) (e b bank q : Nat) (w : BitVec 72) : Chip :=
  { c with eng := { c.eng with bank := Store.put 0 c.eng.bank (((e * 128 + b) * 2 + bank) * 4 + q) w } }

/-- A state-file word is stored with generated check bits (02, R597). -/
def Chip.setBank (c : Chip) (e b bank q : Nat) (d : BitVec 64) : Chip := c.setBankRaw e b bank q (secded d)

/-- The current bank of an engine (02, R64). -/
def Chip.cur (c : Chip) (e : Nat) : Nat := c.get EE_BANK_CUR (pgEE e)

/-! ## Engines of a group -/

/-- EE_PAIR.ROLE: 0 unpaired, 1 even member, 2 odd member (06, R169). -/
def Chip.role (c : Chip) (e : Nat) : Nat := c.get EE_PAIR_ROLE (pgEE e)

/-- The engine is a member of a pair. -/
def Chip.paired (c : Chip) (e : Nat) : Bool := c.role e == 1 || c.role e == 2

/-- EE_PAIR.DETACHED (06, R185). -/
def Chip.detached (c : Chip) (e : Nat) : Bool := c.bit EE_PAIR_DETACHED (pgEE e)

/-- The other member of a pair. -/
def partner (e : Nat) : Nat := e ^^^ 1

/-- The engine is loose (04, R138). -/
def Chip.isLoose (c : Chip) (e : Nat) : Bool := c.bit EE_LAPCTL_CLASS (pgEE e)

/-- L of an engine (04, EE_LAPCTL). -/
def Chip.lenOf (c : Chip) (e : Nat) : Nat := c.get EE_LAPCTL_LCOUNT (pgEE e) + 1

/-- The engines of a group, by number in the group, that would run a class: RUN is 1 and the member is
not detached (04, R140; 06, R185). -/
def Chip.ready (c : Chip) (g : Nat) (loose : Bool) : List Nat :=
  (List.range 8).filter fun k => c.run (pgEE (8 * g + k)) && !c.gated (pgEE (8 * g + k)) &&
    c.isLoose (8 * g + k) == loose && !c.detached (8 * g + k)

/-- The lap of a class. -/
def GroupSt.lap (x : GroupSt) (loose : Bool) : LapSt := if loose then x.loose else x.bound

/-- The lap of a class changes. -/
def GroupSt.setLap (x : GroupSt) (loose : Bool) (l : LapSt) : GroupSt :=
  if loose then { x with loose := l } else { x with bound := l }

/-- The lap of a class of a group. -/
def Chip.lap (c : Chip) (g : Nat) (loose : Bool) : LapSt := (c.grp g).lap loose

/-- The lap of a class of a group changes. -/
def Chip.setLap (c : Chip) (g : Nat) (loose : Bool) (l : LapSt) : Chip :=
  c.setGrp g ((c.grp g).setLap loose l)

/-! ## The function of a Boolean processor (02, R56 to R62; 03, R80, R81) -/

/-- The truth table of a word depends on operand `x`, 0 for A to 3 for D (02, R59). -/
def depends (tt x : Nat) : Bool := (List.range 16).any fun i => tt.testBit i != tt.testBit (i ^^^ 2 ^ x)

/-- A bit of a bit vector is replaced. -/
def putBit {n : Nat} (v : BitVec n) (i : Nat) (b : Bool) : BitVec n :=
  if b then v ||| (1#n <<< i) else v &&& ~~~(1#n <<< i)

/-- The parity bit of a group of four entries (02, R55): their exclusive or. -/
def quadParity {n : Nat} (v : BitVec n) (i : Nat) : Bool :=
  v.getLsbD (4 * i) ^^ v.getLsbD (4 * i + 1) ^^ v.getLsbD (4 * i + 2) ^^ v.getLsbD (4 * i + 3)

/-- What the checks of a step, a commit or an input load met in an engine (02, R70). -/
structure EeFlags where
  schCe : Bool := false
  schUe : Bool := false
  stfCe : Bool := false
  stfUe : Bool := false
  opdPe : Bool := false
  deriving DecidableEq, Repr

/-- Both sets of findings. -/
def EeFlags.or (a b : EeFlags) : EeFlags :=
  { schCe := a.schCe || b.schCe, schUe := a.schUe || b.schUe, stfCe := a.stfCe || b.stfCe,
    stfUe := a.stfUe || b.stfUe, opdPe := a.opdPe || b.opdPe }

/-- The findings fail the lap (02, R69). -/
def EeFlags.fails (a : EeFlags) : Bool := a.schUe || a.stfUe || a.opdPe

/-- The findings of an engine are reported (02, Table 2-5). -/
def Chip.reportFlags (c : Chip) (e : Nat) (a : EeFlags) : Chip :=
  ((((c.reportIf a.schCe (pgEE e) 0).reportIf a.schUe (pgEE e) 1).reportIf a.stfCe (pgEE e) 2).reportIf
    a.stfUe (pgEE e) 3).reportIf a.opdPe (pgEE e) 4

/-- An LRS or capture entry with its parity check; `none` on a parity error (02, R69). -/
def BpSt.entry (x : BpSt) (a : Nat) : Option Bool :=
  if a < 512 then
    if quadParity x.lrs (a / 4) == x.lrsPar.getLsbD (a / 4) then some (x.lrs.getLsbD a) else none
  else
    if quadParity x.cap ((a - 512) / 4) == x.capPar.getLsbD ((a - 512) / 4) then some (x.cap.getLsbD (a - 512)) else none

/-- A read of operand address `a` that counts (02, R61, R68, R69): the bit and the findings. An entry
that cannot be decoded gives an open bit (log entry 4). -/
def Chip.operand (c : Chip) (e b : Nat) (x : BpSt) (a n : Nat) : Bool × EeFlags × Nat :=
  if a < 768 then
    match x.entry a with
    | some v => (v, {}, n)
    | none => (Config.freeBit n, { opdPe := true }, n + 1)
  else
    match eccDecode (c.bankWord e b (c.cur e) ((a - 768) / 64)) with
    | .good d => (d.getLsbD ((a - 768) % 64), {}, n)
    | .fixed d => (d.getLsbD ((a - 768) % 64), { stfCe := true }, n)
    | .bad _ => (Config.freeBit n, { stfUe := true }, n + 1)

/-- An LRS entry takes a bit, and its parity group is formed again (02, R56). -/
def BpSt.putLrs (x : BpSt) (i : Nat) (b : Bool) : BpSt :=
  let v := putBit x.lrs i b
  { x with lrs := v, lrsPar := putBit x.lrsPar (i / 4) (quadParity v (i / 4)) }

/-- A capture entry takes a bit, and its parity group is formed again (02, R56). -/
def BpSt.putCap (x : BpSt) (i : Nat) (b : Bool) : BpSt :=
  let v := putBit x.cap i b
  { x with cap := v, capPar := putBit x.capPar (i / 4) (quadParity v (i / 4)) }

/-- The bit that a word captures: crossbar, receive lane or none (03, R81; 02, R72). `outs` gives OUT of
each BP of the engine at the start of the step, `recv` the receive lanes. -/
def captured (xsel : Nat) (outs : Nat → Bool) (recv : BitVec 64) : Option Bool :=
  if xsel < 128 then some (outs xsel)
  else if xsel < 192 then some (recv.getLsbD (xsel - 128))
  else none

/-- One BP executes its word of compute step `s` (02, R56): its new state, the findings and the next
number of open values. A word with an uncorrectable error executes as an open word (log entry 4). -/
def Chip.bpStep (c : Chip) (e b s : Nat) (recv : BitVec 64) (n : Nat) : BpSt × EeFlags × Nat :=
  let x := c.bp e b
  let (w, fw, n) := match eccDecode (c.schedWord e b s) with
    | .good d => (d.toNat, ({} : EeFlags), n)
    | .fixed d => (d.toNat, { schCe := true }, n)
    | .bad _ => ((Config.freeWord n).toNat, { schUe := true }, n + 1)
  let tt := bitsOf w 63 48
  let rd := fun (i lo : Nat) (n : Nat) =>
    if depends tt i then c.operand e b x (bitsOf w (lo + 9) lo) n else (false, {}, n)
  let (va, fa, n) := rd 0 38 n
  let (vb, fb, n) := rd 1 28 n
  let (vc, fc, n) := rd 2 18 n
  let (vd, fd, n) := rd 3 8 n
  let r := tt.testBit (b2n va + 2 * b2n vb + 4 * b2n vc + 8 * b2n vd)
  let x' := { (x.putLrs (s % 512) r) with out := r }
  let x'' := match captured (bitsOf w 7 0) (fun i => (c.bp e i).out) recv with
    | some v => x'.putCap (s % 256) v
    | none => x'
  (x'', (((fw.or fa).or fb).or fc).or fd, n)

/-! ## Ring and step links (03, R85 to R87; 05, R145 to R151; 06, R171, R172, R186) -/

/-- The send lanes of an engine at compute step `s` (05, R145). -/
def Chip.sendLanes (c : Chip) (e s : Nat) : BitVec 64 :=
  let r := c.ctlRec e s
  BitVec.ofNat 64 (ofBits (fun j => (c.bp e (if r.getLsbD j then j + 64 else j)).out) 64)

/-- The neighbour of a group in direction d: 0 north, 1 east, 2 south, 3 west (03, R86). -/
def neighbour (g d : Nat) : Option Nat :=
  if d = 0 then (if 8 ≤ g then some (g - 8) else none)
  else if d = 1 then (if g % 8 < 7 then some (g + 1) else none)
  else if d = 2 then (if g < 56 then some (g + 8) else none)
  else (if 0 < g % 8 then some (g - 1) else none)

/-- The link of a step in a direction. -/
def LinkStep.out (l : LinkStep) (d : Nat) : BitVec 64 :=
  if d = 0 then l.north else if d = 1 then l.east else if d = 2 then l.south else l.west

/-- The incoming link of a group from direction d at a step of its bound lap (05, R149, R150; 02,
R78). -/
def Chip.incoming (c : Chip) (g d : Nat) (l : LapSt) : BitVec 64 :=
  match neighbour g d with
  | none => 0
  | some h =>
    if (c.grp h).rate == (c.grp g).rate && (c.grp g).rate.isSome && 2 ≤ l.step && c.domOn h then
      match (c.grp h).links.find? fun k => k.edge == l.edge && k.replay == l.replay && k.step + 2 == l.step with
      | some k => k.out ((d + 2) % 4)
      | none => 0
    else 0

/-- The engine of the group whose send lane a ring code names (06, R171, R186). -/
def Chip.ringSource (c : Chip) (g k code : Nat) : Nat :=
  let c1 := if c.role (8 * g + k) == 2 && c.paired (8 * g + code) then partner code else code
  if c.paired (8 * g + c1) && c.detached (8 * g + c1) then partner c1 else c1

/-- The receive lanes of engine k of a group at a step (03, R86; 05, R146, R149; 06, R171, R172). -/
def Chip.recvLanes (c : Chip) (g k : Nat) (loose : Bool) (l : LapSt) : BitVec 64 :=
  let r := (c.ctlRec (8 * g + k) l.step).toNat
  let inc := (List.range 4).map fun d => if loose then 0#64 else c.incoming g d l
  let odd := c.role (8 * g + k) == 2
  BitVec.ofNat 64 (ofBits (fun j =>
    let code := bitsOf r (64 + 4 * j + 3) (64 + 4 * j)
    if code < 8 then (l.send.getD (c.ringSource g k code) 0).getLsbD j
    else if code < 12 then
      let d := code - 8
      let j' := if odd && (c.get EG_LINKPAIR_PAIR (pgEG g)).testBit (4 * d + j / 16) then j ^^^ 8 else j
      (inc.getD d 0).getLsbD j'
    else false) 64)

/-- The octet that engine k places on the link of direction d (05, R148). -/
def Chip.octet (c : Chip) (g k s d : Nat) (recv : BitVec 64) : Nat :=
  let r := (c.ctlRec (8 * g + k) s).toNat
  ofBits (fun i => recv.getLsbD (bitsOf r (320 + 6 * (8 * d + i) + 5) (320 + 6 * (8 * d + i)))) 8

/-- The outgoing link of a group in direction d: each engine that takes part drives its octet, and the
partner of a detached member drives both (05, R148, R150; 06, R186). -/
def Chip.outLink (c : Chip) (g d : Nat) (l : LapSt) (recvs : List (BitVec 64)) : BitVec 64 :=
  BitVec.ofNat 64 ((List.range 8).foldl (fun a k =>
    let k' := if c.paired (8 * g + k) && c.detached (8 * g + k) then partner k else k
    if l.parts.contains k' then a + c.octet g k' l.step d (recvs.getD k' 0) * 2 ^ (8 * k) else a) 0)

/-- One compute step of all engines that take part in a lap of a group (02, R56). -/
def Chip.stepEngines (c : Chip) (g : Nat) (l : LapSt) (recvs : List (BitVec 64)) : Chip × List Nat :=
  l.parts.foldl (fun acc k =>
    let e := 8 * g + k
    let (d, fl) := (List.range 128).foldl (fun (p : Chip × EeFlags) b =>
      let (x, f, n) := c.bpStep e b l.step (recvs.getD k 0) p.1.free
      ({ (p.1.setBp e b x) with free := n }, p.2.or f)) (acc.1, {})
    (d.reportFlags e fl, if fl.fails && !acc.2.contains k then acc.2 ++ [k] else acc.2)) (c, l.failed)

/-! ## Commit (03, R89; 04, R114; 06, R174) -/

/-- The kind of a commit-map entry: 0 keep, 1 commit, 2 input, 3 acts as keep (03, R89). -/
def entryKind (v : BitVec 12) : Nat := bitsOf v.toNat 11 10

/-- The next value of word q of a BP's state, from its commit map (02, R65; 04, R114), with the findings
of K0. A value that cannot be decoded is open (log entry 4). -/
def Chip.nextWord (c : Chip) (e b q : Nat) (n : Nat) : BitVec 64 × EeFlags × Nat :=
  let x := c.bp e b
  let bank := c.cur e
  let (w, f, n) := match eccDecode (c.bankWord e b bank q) with
    | .good d => (d, ({} : EeFlags), n)
    | .fixed d => (d, { stfCe := true }, n)
    | .bad _ => (Config.freeWord n, { stfUe := true }, n + 1)
  (List.range 64).foldl (fun (p : BitVec 64 × EeFlags × Nat) i =>
    let v := c.mapEntry e b (64 * q + i)
    if entryKind v = 1 then
      match x.entry (v.toNat % 512) with
      | some r => (putBit p.1 i r, p.2.1, p.2.2)
      | none => (putBit p.1 i (Config.freeBit p.2.2), { p.2.1 with opdPe := true }, p.2.2 + 1)
    else p) (w, f, n)

/-- The signature of an engine over its next state and OUT (06, R174). -/
def signature (words : List (Nat × List (BitVec 64))) (outs : Nat → Bool) : BitVec 64 :=
  BitVec.ofNat 64 (words.foldl (fun a bw =>
    (List.range 5).foldl (fun a q =>
      a ^^^ rotl64 (if q < 4 then (bw.2.getD q 0).toNat else b2n (outs bw.1)) (5 * bw.1 + 13 * q)) a) 0)

/-- The commit of one engine up to K2: the next state words, the findings and the device with the
engine's non-current bank and signature written; nothing is written where `dry` holds after a finding
that fails the lap (02, R69; 04, R114; 06, R175). -/
def Chip.commitEngine (c : Chip) (e : Nat) (alone failed : Bool) : Chip × Bool :=
  if alone && failed then (c, true)
  else
    let (words, f, n) := (List.range 128).foldl (fun (p : List (Nat × List (BitVec 64)) × EeFlags × Nat) b =>
      let r := (List.range 4).foldl (fun (t : List (BitVec 64) × EeFlags × Nat) q =>
        let (w, fw, m) := c.nextWord e b q t.2.2
        (t.1 ++ [w], t.2.1.or fw, m)) (([] : List (BitVec 64)), p.2.1, p.2.2)
      (p.1 ++ [(b, r.1)], r.2.1, r.2.2)) ([], {}, c.free)
    let c := ({ c with free := n }).reportFlags e f
    if alone && f.fails then (c, true)
    else
      let bank := 1 - c.cur e
      let c' := words.foldl (fun d bw => (List.range 4).foldl (fun d q => d.setBank e bw.1 bank q (bw.2.getD q 0)) d) c
      let sg := signature words fun b => (c.bp e b).out
      ({ c' with eng := { c'.eng with sig := Store.put 0 c'.eng.sig e sg } }, failed || f.fails)

end Sys2Proof.Machine
end

