-- ==== Sys2Proof/Machine/Pouncer.lean ====
section
/-! DEFINITION. What the pouncer holds of a scan and of a reload, and how other events meet it (11,
R318 to R325). -/
namespace Sys2Proof.Machine

/-- SC_RLSTS.STATE: 0 IDLE, 1 DETACHPEND, 2 RELOADING, 3 VERIFYING, 4 REJOINPEND. -/
def Chip.reloadState (c : Chip) : Nat := c.get SC_RLSTS_STATE pgSC

/-- SC_RLSTS.ENG. -/
def Chip.reloadEng (c : Chip) : Nat := c.get SC_RLSTS_ENG pgSC

/-- The pouncer works on engine `e` only while its group's domain is on and its image is LOADED (11, R318,
Table 11-5). -/
def Chip.scanHolds (c : Chip) (e : Nat) : Bool :=
  c.domOn (e / 8) && c.get EG_LDSTS_STATE (pgEG (e / 8)) == 1

/-- Answers to requests made so far are wanted no more. -/
def Chip.scrubFresh (c : Chip) : Chip := { c with scrub := { c.scrub with gen := c.scrub.gen + 1, lines := [] } }

/-- The reload held is over. -/
def Chip.reloadIdle (c : Chip) : Chip :=
  let c := c.scrubFresh
  ({ c with scrub := { c.scrub with redo := false, todo := [], wrote := [] } }).set SC_RLSTS_STATE pgSC 0

/-- The first byte of the master copy of a region (11, R317). -/
def Chip.masterAt (c : Chip) (e r : Nat) : Nat :=
  c.get SC_MCBASEH_ADDR pgSC * 2 ^ 32 + c.get SC_MCBASEL_ADDR pgSC * 2 ^ 30 + 0x200000 * e + 4096 * r

/-- The next region of the reload is read from the master copy, or every region has been written (11, R321). -/
def Chip.reloadRead (c : Chip) : Chip :=
  let c := c.scrubFresh
  match c.scrub.todo with
  | r :: _ =>
    (c.set SC_RLSTS_STATE pgSC 2).ask { asker := .pouncer c.scrub.gen, op := .read, addr := c.masterAt c.reloadEng r,
                                        len := 64, whole := 64, kidx := c.get SC_CTL_KIDX pgSC }
  | [] => c.set SC_RLSTS_STATE pgSC 3

/-- The engine scan moves on past engine `e`; a pass is complete when no engine above it would be scanned
(11, R318, SC_PASS). -/
def Chip.scanPast (c : Chip) (e : Nat) : Chip :=
  let eligible := fun e => (c.get SC_SCHEN_EN pgSC (e / 32)).testBit (e % 32) && c.scanHolds e
  if (List.range 512).any fun i => decide (e < i) && eligible i then { c with scrub := { c.scrub with engine := e + 1 } }
  else ({ c with scrub := { c.scrub with engine := 0 } }).set SC_PASS_ENG pgSC (c.get SC_PASS_ENG pgSC + 1)

/-- The scan in progress ends. -/
def Chip.scanEnd (c : Chip) : Chip :=
  let e := c.get SC_POS_ENG pgSC
  let c := (c.scrubFresh).setB SC_POS_EVALID pgSC false
  if c.scrub.prioScan || c.scrub.redo then { c with scrub := { c.scrub with prioScan := false } } else c.scanPast e

/-- A change of an engine, a group or a domain meets the scan and the reload (11, R318, R322, Table 11-5). -/
def Chip.scrubLook (c : Chip) : Chip :=
  let e := c.reloadEng
  let st := c.reloadState
  let c :=
    if st = 0 then c
    else if !c.scanHolds e then c.reloadIdle
    else if st = 1 ∧ c.detached e ∧ !c.scrub.redo then c.reloadRead
    else if st = 4 ∧ !c.bit EE_PAIR_JOINPEND (pgEE e) then c.reloadIdle
    else c
  if c.bit SC_POS_EVALID pgSC && !c.scanHolds (c.get SC_POS_ENG pgSC) then c.scanEnd else c

/-- A member detached in case C waits for a priority scan (11, R322). -/
def Chip.wantPriority (c : Chip) (e : Nat) : Chip :=
  if c.scrub.prio.contains e then c else { c with scrub := { c.scrub with prio := c.scrub.prio ++ [e] } }

end Sys2Proof.Machine
end

