-- ==== Sys2Proof/Machine/Group.lean ====
section
/-! DEFINITION. Stopping and starting groups and engines, leaving and rejoining a pair, forces, trace
flits and lockstep failure (01, 05, 06, 07, 20). -/
namespace Sys2Proof.Machine

/-! ## State of a group -/

/-- The group runs: its function is running, its domain is on and its gate is open. -/
def Chip.groupUp (c : Chip) (g : Nat) : Bool := c.running (pgEG g) && c.domOn g && !c.gated (pgEG g)

/-- Both members of the pair with even member `k` are members of a pair and attached (06, R169, R185). -/
def Chip.attachedPair (c : Chip) (g k : Nat) : Bool :=
  k % 2 == 0 && c.role (8 * g + k) == 1 && c.role (8 * g + k + 1) == 2 &&
    !c.detached (8 * g + k) && !c.detached (8 * g + k + 1)

/-- The pairs, by even member, both of whose members take part in a lap. -/
def Chip.pairsIn (c : Chip) (g : Nat) (l : LapSt) : List Nat :=
  [0, 2, 4, 6].filter fun k => c.attachedPair g k && l.parts.contains k && l.parts.contains (k + 1)

/-- Engine k of a lap commits without comparison: unpaired, or its partner is detached (06, R175). -/
def Chip.single (c : Chip) (g : Nat) (l : LapSt) (k : Nat) : Bool :=
  !(c.pairsIn g l).contains (k - k % 2)

/-- The group of an engine has a lap of the engine's class in progress. -/
def Chip.inLap (c : Chip) (e : Nat) : Bool := (c.lap (e / 8) (c.isLoose e)).on && c.groupUp (e / 8)

/-! ## Leaving a pair (06, R185) -/

/-- A detach takes effect, and EE_PAIRCHG is reported where it is no detach of case C. -/
def Chip.detachNow (c : Chip) (e : Nat) (chg : Bool) : Chip :=
  let c := (c.setB EE_PAIR_DETACHED (pgEE e) true).setB EE_PAIR_JOINPEND (pgEE e) false
  let c := { c with eng := { c.eng with detPend := c.eng.detPend.filter (· != e) } }
  let g := e / 8
  let x := c.grp g
  let drop := fun (l : LapSt) => { l with parts := l.parts.filter (· != e % 8), failed := l.failed.filter (· != e % 8) }
  let c := c.setGrp g { x with bound := drop x.bound, loose := drop x.loose }
  let c := c.reportIf chg (pgEE e) 8
  (if chg then c else c.wantPriority e).scrubLook

/-- A detach is requested: it waits for the lap of the engine's class in progress. -/
def Chip.requestDetach (c : Chip) (e : Nat) : Chip :=
  if c.inLap e then
    if c.eng.detPend.contains e then c else { c with eng := { c.eng with detPend := c.eng.detPend ++ [e] } }
  else c.detachNow e true

/-- A DETACH of this engine would be taken: it is a member of a pair, and its partner is attached with
no detach pending. -/
def Chip.mayDetach (c : Chip) (e : Nat) : Bool :=
  c.paired e && !c.detached (partner e) && !c.eng.detPend.contains (partner e)

/-- The engine is a member of a pair: an even engine of role even member whose neighbour is an odd member, or the
other way round (06, R169). -/
def Chip.isMember (c : Chip) (e : Nat) : Bool :=
  if e % 2 = 0 then c.role e == 1 && c.role (partner e) == 2 else c.role e == 2 && c.role (partner e) == 1

/-- The pending detaches of a class of a group take effect (06, R185). -/
def Chip.takeDetaches (c : Chip) (g : Nat) (p : Nat → Bool) : Chip :=
  c.each (c.eng.detPend.filter fun e => e / 8 == g && p e) fun c e => c.detachNow e true

/-- The rejoin that waits for engine `e` as partner, or of `e` itself, is abandoned (06, R187). -/
def Chip.dropRejoin (c : Chip) (e : Nat) : Chip :=
  ((c.setB EE_PAIR_JOINPEND (pgEE e) false).setB EE_PAIR_JOINPEND (pgEE (partner e)) false).scrubLook

/-! ## Stopping engines (01, R44, R46; 06, R185) -/

/-- RUN of an EE page falls. `with_` names the engines that stop through the same event; `now` holds for a
prompt stop, in which the engine executes no further step. -/
def Chip.eeFall (c : Chip) (e : Nat) (with_ : List Nat) (now : Bool) : Chip :=
  let was := c.run (pgEE e)
  let detach := was && c.isMember e && c.mayDetach e && !c.detached e && !with_.contains (partner e)
  let inLap := c.inLap e && ((c.lap (e / 8) (c.isLoose e)).parts.contains (e % 8))
  let c := (c.setB PG_CTL_RUN (pgEE e) false).setB EE_PAIR_JOINPEND (pgEE e) false
  let c := if now || !inLap then c.dropRejoin e else c
  let x := c.grp (e / 8)
  let drop := fun (l : LapSt) => { l with parts := l.parts.filter (· != e % 8), failed := l.failed.filter (· != e % 8) }
  let c := if now then (c.setGrp (e / 8) { x with bound := drop x.bound, loose := drop x.loose }).setB PG_STS_RUNNING (pgEE e) false
           else if inLap then c
           else c.setB PG_STS_RUNNING (pgEE e) false
  (if detach then (if now then c.detachNow e true else c.requestDetach e) else c).scrubLook

/-- The action of STOP_REQ on EE pages, through one event. -/
def Chip.eeStop (c : Chip) (es : List Nat) : Chip := c.each es fun c e => c.eeFall e es true

/-! ## Trace flits (07, R210 to R212) -/

/-- The trace buffer's size in 8-byte units. -/
def Chip.traceUnits (c : Chip) (g : Nat) : Nat := 8 * (c.get EG_TRCSIZE_SIZE (pgEG g) + 1)

/-- Words of the trace are handed to the network as one flit write (07, R212). -/
def Chip.traceFlit (c : Chip) (g n : Nat) : Chip :=
  let x := c.grp g
  let t := x.trace
  let ws := t.held.take n
  let off := t.pos % 8
  let base := c.get EG_TRCBASEH_ADDR (pgEG g) * 2 ^ 32 + c.get EG_TRCBASEL_ADDR (pgEG g) * 64
  let data := BitVec.ofNat 512 ((ws.zipIdx.foldl (fun a wi => a + wi.1.toNat * 2 ^ (64 * (off + wi.2))) 0))
  let mask := BitVec.ofNat 64 ((2 ^ (8 * ws.length) - 1) * 2 ^ (8 * off))
  let c := c.setGrp g { x with trace :=
    { t with held := t.held.drop n, sent := t.sent ++ [(t.next, ws.length, false)], next := t.next + 1,
             pos := if c.bit EG_TRCCTL_WRAP (pgEG g) then (t.pos + ws.length) % c.traceUnits g else t.pos + ws.length } }
  c.ask { asker := .trace g t.next, op := .write, addr := base + 64 * (t.pos / 8), kidx := c.get EG_TRCCTL_KIDX (pgEG g),
          lines := [{ data := data, mask := mask }] }

/-- Full flits of the trace are handed over; `k` bounds how many. -/
def Chip.traceFull (c : Chip) (g : Nat) : Nat → Chip
  | 0 => c
  | k + 1 =>
    let t := (c.grp g).trace
    if 8 ≤ t.pos % 8 + t.held.length then (c.traceFlit g (8 - t.pos % 8)).traceFull g k else c

/-- The partly filled flit of the trace is handed over (07, R212). -/
def Chip.traceFlush (c : Chip) (g : Nat) : Chip :=
  let n := (c.grp g).trace.held.length
  if n = 0 then c else c.traceFlit g n

/-- EG_TRCSTS.BUSY: a flit is held or unacknowledged. -/
def Chip.traceBusy (c : Chip) (g : Nat) : Bool :=
  let t := (c.grp g).trace
  !t.held.isEmpty || !t.sent.isEmpty

/-! ## Stopping groups (01, R44, R46; 04, R132, R134) -/

/-- A pending pace event is discarded (04, R134). -/
def Chip.dropPend (c : Chip) (g : Nat) : Chip :=
  (c.setGrp g { c.grp g with held := false, resync := false }).setB EG_LAPSTS_PEND (pgEG g) false

/-- The function of a group ends: RUNNING falls, and with it that of its engines; pending detaches take
effect, and the partly filled trace flit is written. -/
def Chip.groupEnd (c : Chip) (g : Nat) : Chip :=
  let again := c.stopping.contains (pgEG g) && c.run (pgEG g)
  let c := ((c.dropPend g).setB PG_STS_RUNNING (pgEG g) false).setStopping (pgEG g) false
  let c := if again then c.setGrp g { c.grp g with waiting := true } else c
  let c := c.each (List.range 8) fun c k =>
    (c.setB PG_STS_RUNNING (pgEE (8 * g + k)) false).setB EE_PAIR_JOINPEND (pgEE (8 * g + k)) false
  ((c.takeDetaches g fun _ => true).traceFlush g).scrubLook

/-- The action of STOP_REQ on an EG page (01, R46): the laps in progress are abandoned. -/
def Chip.egStop (c : Chip) (g : Nat) : Chip :=
  let x := c.grp g
  let c := (c.setGrp g { x with bound := { x.bound with on := false }, loose := { x.loose with on := false }, waiting := false,
                                halt := { x.halt with step := none, rel := false } }).setB PG_CTL_RUN (pgEG g) false
  c.groupEnd g

/-- The action of STOP_REQ on the EG page and on every EE page of a group (04, R132; 05, R165). -/
def Chip.groupStop (c : Chip) (g : Nat) : Chip :=
  (c.egStop g).eeStop ((List.range 8).map (8 * g + ·))

/-- RUN of an EG page falls: an orderly stop, complete at once where no lap is in progress (01, R44). -/
def Chip.egRunClear (c : Chip) (g : Nat) : Chip :=
  let x := c.grp g
  let c := (c.setGrp g { x with waiting := false }).setB PG_CTL_RUN (pgEG g) false
  let c := c.dropPend g
  if x.bound.on || x.loose.on then c.setStopping (pgEG g) (c.running (pgEG g)) else c.groupEnd g

/-! ## State forces (07, R205 to R208; 02, R597) -/

/-- A word of the state file is changed by a read-modify-write (02, R597): the device, and whether the
word was written. -/
def Chip.rmwState (c : Chip) (e b bank q : Nat) (f : BitVec 64 → BitVec 64) : Chip × Bool :=
  match eccDecode (c.bankWord e b bank q) with
  | .good d => (c.setBank e b bank q (f d), true)
  | .fixed d => ((c.setBank e b bank q (f d)).report (pgEE e) 2, true)
  | .bad _ => (c.report (pgEE e) 3, false)

/-- A state entry of the current bank takes a bit. -/
def Chip.putState (c : Chip) (e b j : Nat) (v : Bool) : Chip × Bool :=
  c.rmwState e b (c.cur e) (j / 64) fun d => putBit d (j % 64) v

/-- Force entry `n` of a group is an enabled entry of a kind. -/
def Chip.forceOn (c : Chip) (g n kind : Nat) : Bool :=
  c.bit EG_FRCSEL_EN (pgEG g) n && c.get EG_FRCSEL_KIND (pgEG g) n == kind

/-- Force entry `n` has been applied (07, R208). -/
def Chip.forceDone (c : Chip) (g n : Nat) : Chip :=
  let c := c.orBits EG_FRCSTS_APPLIED (pgEG g) (2 ^ n)
  if c.bit EG_FRCSEL_PERSIST (pgEG g) n then c else c.setB EG_FRCSEL_EN (pgEG g) false n

/-- A state-force entry is applied to its engine, and to the partner of an attached pair; the member of a
pair that has just rejoined is attached (07, R205). The answer says whether it was written. -/
def Chip.applyForce (c : Chip) (g n : Nat) : Chip × Bool :=
  let k := c.get EG_FRCSEL_ENG (pgEG g) n
  let e := 8 * g + k
  if c.detached e then (c, false)
  else
    let b := c.get EG_FRCSEL_BP (pgEG g) n
    let j := c.get EG_FRCSEL_ENTRY (pgEG g) n
    let v := c.bit EG_FRCSEL_VALUE (pgEG g) n
    let (c, ok) := c.putState e b j v
    let c := if c.attachedPair g (k - k % 2) then (c.putState (partner e) b j v).1 else c
    if ok then (c.forceDone g n, true) else (c, false)

/-- Every enabled state-force entry that a test admits is applied, in ascending order (07, R207). The
answer says whether any was. -/
def Chip.applyForces (c : Chip) (g : Nat) (p : Nat → Bool) : Chip × Bool :=
  (List.range 16).foldl (fun (r : Chip × Bool) n =>
    if r.1.forceOn g n 0 && p (r.1.get EG_FRCSEL_ENG (pgEG g) n) then
      let (d, ok) := r.1.applyForce g n
      (d, r.2 || ok)
    else r) (c, false)

/-- The forces of a start or a release are applied; the next lap of each class records it (07, R208,
Table 7-2). -/
def Chip.forcesAtStart (c : Chip) (g : Nat) : Chip :=
  let (c, any) := c.applyForces g fun _ => true
  if any then c.setGrp g { c.grp g with frcBound := true, frcLoose := true } else c

/-! ## Debug halts (20, R536 to R539) -/

/-- The halt of a group takes effect, where one is recorded and no lap is in progress (20, R536). -/
def Chip.haltEffect (c : Chip) (g : Nat) : Chip :=
  let x := c.grp g
  if x.halt.record && !x.halt.halted && c.running (pgEG g) && !x.bound.on && !x.loose.on then
    (c.dropPend g).setGrp g { (c.dropPend g).grp g with halt := { x.halt with halted := true } }
  else c

/-- A lap of a class may start as far as debug halts are concerned (20, R536, R539). -/
def GroupSt.haltAllows (x : GroupSt) (loose : Bool) : Bool :=
  !x.halt.record || (x.halt.halted && x.halt.step == some loose)

/-! ## Starting a group (01, R45, R52, R54; 02, R77; 04, R141; 06, R170; 07, R208) -/

/-- A member of a pair whose role, neighbour or class does not match (06, R170). -/
def Chip.pairBad (c : Chip) (e : Nat) : Bool :=
  if c.role e = 1 then e % 2 != 0 || c.role (partner e) != 2 || c.isLoose (partner e) != c.isLoose e
  else if c.role e = 2 then e % 2 == 0 || c.role (partner e) != 1 || c.isLoose (partner e) != c.isLoose e
  else false

/-- The engines of a group with RUN = 1. -/
def Chip.runners (c : Chip) (g : Nat) : List Nat :=
  ((List.range 8).map (8 * g + ·)).filter fun e => c.run (pgEE e)

/-- The engines of one class hold different LCOUNT values (04, R141). -/
def Chip.lengthsDiffer (c : Chip) (g : Nat) (loose : Bool) : Bool :=
  let es := (c.runners g).filter fun e => c.isLoose e == loose
  es.any fun e => es.any fun e' => c.lenOf e != c.lenOf e'

/-- A member starts while its partner's RUN is 0: the partner becomes detached (06, R170). -/
def Chip.startSingle (c : Chip) (e : Nat) : Chip :=
  if c.paired e && !c.run (pgEE (partner e)) && !c.detached (partner e) then c.detachNow (partner e) true else c

/-- RUN = 1 is set on an EG page whose function is not running: the divider waits for the alignment edge
(02, R77). -/
def Chip.egWait (c : Chip) (g : Nat) : Chip := c.setGrp g { c.grp g with waiting := true }

/-- The alignment edge of a waiting group: it starts, or its start is refused (02, R77). -/
def Chip.groupStart (c : Chip) (g : Nat) : Chip :=
  if (c.grp g).waiting && c.run (pgEG g) && c.domOn g && !c.gated (pgEG g) && c.lapsStart && c.engineLoop then
    let p := pgEG g
    let edg := c.get GL_OPTIN_PACEDG pgGL
    let ovr := c.get GL_OPTIN_OVRSYNC pgGL
    let optBad := (c.get EG_PACE_EDGE p == 2 && edg == 0) || (c.get EG_PACE_OVRPOL p == 2 && ovr == 0)
    let lenBad := c.lengthsDiffer g false || c.lengthsDiffer g true
    let pairBad := (c.runners g).any fun e => c.pairBad e
    let c := c.setGrp g { c.grp g with waiting := false }
    if optBad || lenBad || pairBad then
      let c := c.setB PG_CTL_RUN p false
      let c := if optBad then c.setB EG_LAPSTS_OPTMIS p true else c
      let c := if lenBad then c.setB EG_LAPSTS_LMIS p true else c
      let c := c.reportIf (optBad || lenBad) p 5
      let c := if pairBad then c.setB EG_RPLSTS_PMIS p true else c
      c.reportIf pairBad p 7
    else
      let x := c.grp g
      let c := c.setGrp g { x with rate := some (c.get EG_STEPCLK_DIV p), opt := edg + 2 * ovr, paced := false,
                                   lateDone := false, lastLen := none, held := false, resync := false, adm := { bias := x.adm.bias, due := x.adm.due } }
      let c := (((c.setB PG_STS_RUNNING p true).setB EG_LAPSTS_FIRST p true).setB EG_LAPSTS_PEND p false)
      let c := ((c.set EG_ADMBKT_BKT p 0).set EG_ADMLAST_LAST p 0).set EG_ADMSTS_THROT p 0
      let c := c.each (c.runners g) fun c e => c.startSingle e
      (c.forcesAtStart g).haltEffect g
  else c

/-! ## Joining at I0 (04, R140, R141; 06, R170) -/

/-- The engines that take part in the lap of a class that begins now: those that took part before, and
those that join, each checked, in ascending order. -/
def Chip.join (c : Chip) (g : Nat) (loose : Bool) : Chip × List Nat :=
  let old := (c.ready g loose).filter fun k => c.running (pgEE (8 * g + k))
  let new := (c.ready g loose).filter fun k => !c.running (pgEE (8 * g + k))
  new.foldl (fun (r : Chip × List Nat) k =>
    let e := 8 * g + k
    let c := r.1
    let pBad := c.pairBad e
    let lBad := match r.2.head? with
      | some k' => c.lenOf (8 * g + k') != c.lenOf e
      | none => false
    if pBad || lBad then
      let c := if pBad then (c.setB EG_RPLSTS_PMIS (pgEG g) true).report (pgEG g) 7 else c
      let c := if lBad then (c.setB EG_LAPSTS_LMIS (pgEG g) true).report (pgEG g) 5 else c
      (c.eeFall e [] true, r.2)
    else ((c.setB PG_STS_RUNNING (pgEE e) true).startSingle e, r.2 ++ [k])) (c, old)

/-! ## Lockstep messages and failure (05, R158, R163 to R166) -/

/-- This device's member number. -/
def Chip.member (c : Chip) : Nat := c.get GL_LSCTL_MEMBER pgGL

/-- The members to which a lockstep link exists. -/
def Chip.lsLinks (c : Chip) : List Nat :=
  (setBitsOf 16 (c.get GL_LSLINK_LINK pgGL)).filter (· != c.member)

/-- The port that reaches a member. -/
def Chip.lsPort (c : Chip) (m : Nat) : Nat :=
  if m < 8 then bitsOf (c.get GL_LSPORTL_PORT pgGL) (4 * m + 3) (4 * m)
  else bitsOf (c.get GL_LSPORTH_PORT pgGL) (4 * (m - 8) + 3) (4 * (m - 8))

/-- The payload of a lockstep message (05, Table 5-4). -/
def lsPayload (type src dst count : Nat) (remote : Bool) (lap orig : Nat) (words : List (Nat × BitVec 64)) : BitVec 512 :=
  BitVec.ofNat 512 (type + src * 2 ^ 4 + dst * 2 ^ 8 + count * 2 ^ 12 + b2n remote * 2 ^ 15 + (lap % 2 ^ 32) * 2 ^ 16 + orig * 2 ^ 48 +
    (words.zipIdx.foldl (fun a wi => a + wi.1.1 * 2 ^ (64 + 10 * wi.2) + wi.1.2.toNat * 2 ^ (128 + 64 * wi.2)) 0))

/-- A message is queued for the link to a member; LSSYNC and LSSTOP go ahead of LSDATA on its port
(05, R159). -/
def Chip.lsSend (c : Chip) (m : Nat) (urgent : Bool) (p : BitVec 512) : Chip :=
  let q := c.eng.lsOut
  let isData := fun (x : Nat × BitVec 512) => bitsOf x.2.toNat 3 0 == 2
  let q' := if urgent then q.filter (fun x => !(x.1 == c.lsPort m && isData x)) ++ [(c.lsPort m, p)] ++
              q.filter (fun x => x.1 == c.lsPort m && isData x)
            else q ++ [(c.lsPort m, p)]
  { c with eng := { c.eng with lsOut := q' } }

/-- The lockstep groups of the device. -/
def Chip.lsGroups (c : Chip) : List Nat := (List.range 64).filter fun g => c.bit EG_LSIMP_LSG (pgEG g)

/-- The member stops lockstep (05, R166): STATE becomes STOPPED, and every lockstep group stops in an
orderly way. -/
def Chip.lsStopAll (c : Chip) (cause orig : Nat) (remote : Bool) : Chip :=
  let c := (((c.set GL_LSSTS_STATE pgGL 3).set GL_LSSTS_CAUSE pgGL cause).set GL_LSSTS_ORIG pgGL orig).setB GL_LSSTS_REMOTE pgGL remote
  let c := { c with eng := { c.eng with lsSync := false, lsWords := [] } }
  let c := c.report pgGL 0
  c.each (c.lsGroups.filter fun g => c.run (pgEG g)) fun c g => c.egRunClear g

/-- The member detects a lockstep failure (05, R165, R166); only its first counts. -/
def Chip.lsFail (c : Chip) (cause : Nat) : Chip :=
  let st := c.get GL_LSSTS_STATE pgGL
  if st = 1 ∨ st = 2 then
    let c := c.each c.lsLinks fun c m =>
      c.lsSend m true (lsPayload 3 c.member m cause false (c.get GL_LSLAP_LAP pgGL) c.member [])
    c.lsStopAll cause c.member false
  else c

end Sys2Proof.Machine
end

