-- ==== Sys2Proof/Machine/Lap.lean ====
section
/-! DEFINITION. The phases of a lap, from its start edge to its completion, with lockstep exchange,
replay, rejoin, observation and trace (04 to 07). -/
namespace Sys2Proof.Machine

/-! ## Starting a lap (04, R120, R129 to R136; 05, R163) -/

/-- A lap of a class starts at the present step edge. -/
def Chip.startLap (c : Chip) (g : Nat) (loose : Bool) (l : LapSt) : Chip :=
  let x := c.grp g
  let x := if loose then x else { x with lsPast := false }
  c.setGrp g (x.setLap loose { l with on := true, edge := c.eng.edge, phase := .started, first := c.bit EG_LAPSTS_FIRST (pgEG g) })

/-- Lockstep governs the bound laps of this group: it is a lockstep group and STATE is not OFF. -/
def Chip.lsGoverned (c : Chip) (g : Nat) : Bool := c.bit EG_LSIMP_LSG (pgEG g) && c.get GL_LSSTS_STATE pgGL != 0

/-- The lap deadline monitor of a group runs (04, R135). -/
def Chip.monitors (c : Chip) (g : Nat) : Bool :=
  c.bit EG_DLLATE_EN (pgEG g) && c.groupUp g && c.gate (pgEG g) == .opened && !(c.ready g false).isEmpty && !(c.grp g).halt.halted && c.lapsStart

/-- What the deadline monitor does at a recognised pace event (04, R135). -/
def Chip.monitorEvent (c : Chip) (g steps : Nat) : Chip :=
  if c.monitors g then
    let x := c.grp g
    let c := c.reportIf (x.paced && decide (steps < c.get EG_DLEARLY_EARLY (pgEG g) + 1)) (pgEG g) 3
    let c := match x.paced, x.lastLen with
      | true, some n =>
        if !x.bound.on && steps - n < c.get EG_LAPMARGIN_MIN (pgEG g) then c.set EG_LAPMARGIN_MIN (pgEG g) (steps - n) else c
      | _, _ => c
    c.setGrp g { c.grp g with paced := true, lateDone := false, lastLen := none }
  else c

/-- A pace event recognised during a bound lap: the overrun policy (04, R129 to R133; 05, R165). -/
def Chip.overrun (c : Chip) (g : Nat) : Chip :=
  let p := pgEG g
  let c := c.count EG_OVRCNT_COUNT p
  let c := c.setLap g false { c.lap g false with ovr := true }
  if c.bit EG_LSIMP_LSG p && c.get GL_LSSTS_STATE pgGL == 2 then ((c.groupStop g).report p 2).lsFail 4
  else if c.get EG_PACE_OVRPOL p == 1 then (c.groupStop g).report p 2
  else if c.get EG_PACE_OVRPOL p == 2 then
    if (c.grp g).held then (c.groupStop g).report p 2
    else (c.setGrp g { c.grp g with held := true, resync := true }).report p 1
  else c.report p 1

/-- A pace event recognised by one group (04, R129, R142; 05, R163; 20, R537). -/
def Chip.paceGroup (c : Chip) (g steps : Nat) : Chip :=
  let c := c.monitorEvent g steps
  let x := c.grp g
  if x.bound.on then c.overrun g
  else if !c.accepts (pgEG g) then c
  else if !x.haltAllows false then c.dropPend g
  else if (c.ready g false).isEmpty then c
  else if c.lsGoverned g then
    if c.get GL_LSSTS_STATE pgGL == 2 then
      let lap := if c.eng.lsFresh then c.get GL_LSLAP_LAP pgGL else (c.get GL_LSLAP_LAP pgGL + 1) % 2 ^ 32
      c.startLap g false { lsLap := lap, lsFirst := c.eng.lsFresh }
    else c
  else c.startLap g false {}

/-- The master sends LSSYNC to every member, and becomes RUNNING itself (05, R163). -/
def Chip.lsSyncSend (c : Chip) : Chip :=
  let base := c.get GL_LSBASE_BASE pgGL
  let c := c.each c.lsLinks fun c m => c.lsSend m true (lsPayload 1 c.member m 0 false base 0 [])
  let c := (c.set GL_LSSTS_STATE pgGL 2).set GL_LSLAP_LAP pgGL base
  let c := c.each c.lsGroups fun c g => c.set EG_LSLAPC_LAP (pgEG g) ((base + 2 ^ 32 - 1) % 2 ^ 32)
  { c with eng := { c.eng with lsSync := false, lsFresh := true } }

/-- The groups that recognise a pace edge of a key (04, R118, R121). -/
def Chip.recognisers (c : Chip) (k : PaceKey) : List Nat :=
  (List.range 64).filter fun g =>
    c.groupUp g && c.get EG_PACE_PIN (pgEG g) == k.pin && c.get EG_PACE_EDGE (pgEG g) == k.edge &&
      (c.grp g).rate == some k.div && c.domOn (64 + k.pin / 2)

/-- One step edge at which pace edges are recognised (04, R120, R121). All the laps that start share the
number of the edge. -/
def Chip.paceEvent (c : Chip) (ks : List PaceKey) : Chip :=
  if !c.lapsStart then c
  else
    let hits := ks.flatMap fun k => (c.recognisers k).map fun g => (g, k.steps)
    let isLs := fun (c : Chip) (g : Nat) => c.bit EG_LSIMP_LSG (pgEG g)
    let sync := c.eng.lsSync && c.get GL_LSSTS_STATE pgGL == 1 && hits.any fun h => isLs c h.1
    let starts := c.get GL_LSSTS_STATE pgGL == 2
    let d := hits.foldl (fun c h => c.paceGroup h.1 h.2) c
    let began := starts && d.get GL_LSSTS_STATE pgGL == 2 &&
      hits.any fun h => isLs d h.1 && (d.lap h.1 false).on && (d.lap h.1 false).edge == c.eng.edge
    let d := if began then
        (if c.eng.lsFresh then { d with eng := { d.eng with lsFresh := false } }
         else d.set GL_LSLAP_LAP pgGL ((c.get GL_LSLAP_LAP pgGL + 1) % 2 ^ 32))
      else d
    let d := if sync then d.lsSyncSend else d
    { d with eng := { d.eng with edge := c.eng.edge + 1 } }

/-- The third step edge after an overrunning pace event under RESYNC (04, R133): `fin` are the group
input bits. -/
def Chip.resyncCapture (c : Chip) (g : Nat) (fin : BitVec 1024) : Chip :=
  let x := c.grp g
  if x.resync && c.stepsRun then
    (c.setGrp g { x with resync := false, pendBuf := fin }).setB EG_LAPSTS_PEND (pgEG g) x.held
  else c

/-- No pace event came within N_LATE step periods (04, R135, R136). -/
def Chip.paceLate (c : Chip) (g : Nat) : Chip :=
  if c.monitors g && !(c.grp g).lateDone then
    (c.setGrp g { c.grp g with lateDone := true }).report (pgEG g) 4
  else c

/-! ## Input phase (04, R113; 05, R157, R161, R165; 07, R194, R206) -/

/-- The input bits after the lockstep imports, and the words that were missing (05, R157, R161). -/
def Chip.importWords (c : Chip) (g : Nat) (l : LapSt) (v : BitVec 1024) : BitVec 1024 × Nat :=
  (setBitsOf 16 (c.get EG_LSIMP_WEN (pgEG g))).foldl (fun (r : BitVec 1024 × Nat) w =>
    let put := fun (d : Nat) => BitVec.ofNat 1024 (setBits r.1.toNat (64 * w + 63) (64 * w) d)
    if l.lsFirst then (put 0, r.2)
    else match (c.grp g).lsBuf.find? fun b => b.word == w && (b.lap + 1) % 2 ^ 32 == l.lsLap with
      | some b => (put b.data.toNat, r.2)
      | none => (r.1, r.2 + 2 ^ w)) (v, 0)

/-- The input forces of a group are applied at the end of I2 (07, R206). -/
def Chip.forceInputs (c : Chip) (g : Nat) (v : BitVec 1024) : Chip × BitVec 1024 × Bool :=
  (List.range 16).foldl (fun (r : Chip × BitVec 1024 × Bool) n =>
    if r.1.forceOn g n 1 then
      let i := (r.1.get EG_FRCSEL_BP (pgEG g) n % 4) * 256 + r.1.get EG_FRCSEL_ENTRY (pgEG g) n
      (r.1.forceDone g n, putBit r.2.1 i (r.1.bit EG_FRCSEL_VALUE (pgEG g) n), true)
    else r) (c, v, false)

/-- The input entries of one engine take their bits at the end of I3: the device, and whether a word was
uncorrectable (04, R113; 02, R597). -/
def Chip.loadInputs (c : Chip) (e : Nat) (v : BitVec 1024) : Chip × Bool :=
  (List.range 512).foldl (fun (r : Chip × Bool) i =>
    let b := i / 4
    let q := i % 4
    let ins := (List.range 64).filter fun j => entryKind (c.mapEntry e b (64 * q + j)) == 2
    if ins.isEmpty then r
    else
      let (d, ok) := r.1.rmwState e b (c.cur e) q fun w =>
        ins.foldl (fun w j => putBit w j (v.getLsbD ((c.mapEntry e b (64 * q + j)).toNat % 1024))) w
      (d, r.2 || !ok)) (c, false)

/-- OUT of every BP of an engine is cleared (02, R71). -/
def Chip.clearOut (c : Chip) (e : Nat) : Chip :=
  c.each (List.range 128) fun c b => c.setBp e b { c.bp e b with out := false }

/-- The input phase of a lap (04, R113): `fin` are the group input bits that the fabric presents. -/
def Chip.lapInput (c : Chip) (g : Nat) (loose : Bool) (fin : BitVec 1024) : Chip :=
  let l := c.lap g loose
  if l.on && l.phase == .started && c.groupUp g && c.stepsRun then
    let (c, parts) := c.join g loose
    match parts with
    | [] => c.setLap g loose { l with on := false }
    | k0 :: _ =>
      let c := c.each parts fun c k => c.clearOut (8 * g + k)
      let x := c.grp g
      let base := if loose then (match x.batch.buf.find? fun b => b.1 == l.recIdx with | some b => b.2 | none => 0)
                  else if l.fromPend then x.pendBuf else fin
      let c := if loose then c else c.setGrp g { x with inReg := fin }
      let ls := !loose && c.bit EG_LSIMP_LSG (pgEG g) && c.get GL_LSSTS_STATE pgGL == 2
      let (v, miss) := if ls then c.importWords g l base else (base, 0)
      if miss != 0 then
        (((c.groupStop g).set EG_LSSTS_MISS (pgEG g) miss).report (pgEG g) 6).lsFail 1
      else
        let x := c.grp g
        let keep := fun (b : LsWord) => !((b.lap + 1) % 2 ^ 32 == l.lsLap)
        let c := if ls then c.setGrp g { x with lsBuf := x.lsBuf.filter keep, lsPast := true } else c
        let (c, v, forced) := c.forceInputs g v
        let (c, failed) := parts.foldl (fun (r : Chip × List Nat) k =>
          let (d, bad) := r.1.loadInputs (8 * g + k) v
          (d, if bad then r.2 ++ [k] else r.2)) (c, [])
        let x := c.grp g
        let st := if loose then x.frcLoose else x.frcBound
        let c := c.setGrp g (if loose then { x with frcLoose := false } else { x with frcBound := false })
        c.setLap g loose { l with phase := .computing, step := 0, len := c.lenOf (8 * g + k0), parts := parts,
                                  failed := failed, send := [], inBits := v, forced := forced || st }
  else c

/-! ## Compute steps (02, R56; 05, R145 to R151) -/

/-- One compute step of a lap. -/
def Chip.lapStep (c : Chip) (g : Nat) (loose : Bool) : Chip :=
  let l := c.lap g loose
  if l.on && l.phase == .computing && decide (l.step < l.len) && c.groupUp g && c.stepsRun then
    let recvs := (List.range 8).map fun k => if l.parts.contains k then c.recvLanes g k loose l else 0
    let send := (List.range 8).map fun k => if l.parts.contains k then c.sendLanes (8 * g + k) l.step else 0
    let link : LinkStep := { edge := l.edge, replay := l.replay, step := l.step, north := c.outLink g 0 l recvs,
                             east := c.outLink g 1 l recvs, south := c.outLink g 2 l recvs, west := c.outLink g 3 l recvs }
    let (d, failed) := c.stepEngines g l recvs
    let x := d.grp g
    let x := if loose then x else { x with links := (link :: x.links).take 4 }
    d.setGrp g (x.setLap loose { x.lap loose with step := l.step + 1, send := send, failed := failed })
  else c

/-! ## Commit and decision (04, R114; 06, R174 to R183) -/

/-- An engine whose failed lap is not recovered stops without committing (02, R69). -/
def Chip.lapFails (c : Chip) (es : List Nat) : Chip :=
  (c.each es fun c e => c.report (pgEE e) 5).eeStop es

/-- Steps K0 to K2 of a lap: state words, signatures, and the stop of a failed engine that stands alone. -/
def Chip.lapCommit (c : Chip) (g : Nat) (loose : Bool) : Chip :=
  let l := c.lap g loose
  if l.on && l.phase == .computing && decide (l.step = l.len) && c.groupUp g && c.stepsRun then
    let (d, failed, stop) := l.parts.foldl (fun (r : Chip × List Nat × List Nat) k =>
      let alone := c.single g l k
      let (d, f) := r.1.commitEngine (8 * g + k) alone (l.failed.contains k)
      if f && alone then (d, r.2.1, r.2.2 ++ [8 * g + k])
      else (d, if f then r.2.1 ++ [k] else r.2.1, r.2.2)) (c, [], [])
    let d := d.setLap g loose { d.lap g loose with phase := .committed, failed := failed }
    stop.foldl (fun d e => d.lapFails [e]) d
  else c

/-- The case of a pair at the end of K3 (06, Table 6-1): 0 A, 1 B, 2 C with the even member failed, 3 C
with the odd member failed, 4 D. -/
def Chip.pairCase (c : Chip) (g : Nat) (l : LapSt) (k : Nat) : Nat :=
  let fe := l.failed.contains k
  let fo := l.failed.contains (k + 1)
  if fe && fo then 4
  else if fe then 2
  else if fo then 3
  else if Store.get 0 c.eng.sig (8 * g + k) = Store.get 0 c.eng.sig (8 * g + k + 1) then 0 else 1

/-- A group requests a replay: one of its pairs is in case B or C (06, R178). -/
def Chip.wantsReplay (c : Chip) (g : Nat) (loose : Bool) : Bool :=
  let l := c.lap g loose
  !l.replay && (c.pairsIn g l).any fun k => let q := c.pairCase g l k; q == 1 || q == 2 || q == 3

/-- The bound replay set of a group (06, R178). -/
def Chip.replaySet (c : Chip) (g : Nat) : List Nat :=
  (List.range 64).filter fun h => h == g ||
    (if h < 32 then (c.get EG_RPLSETL_SET (pgEG g)).testBit h else (c.get EG_RPLSETH_SET (pgEG g)).testBit (h - 32))

/-- EE_PAIRSTS of both members takes a cause (06). -/
def Chip.pairSts (c : Chip) (g k cause : Nat) (recov : Bool) : Chip :=
  c.each [8 * g + k, 8 * g + k + 1] fun c e =>
    (c.set EE_PAIRSTS_CAUSE (pgEE e) cause).setB EE_PAIRSTS_RECOV (pgEE e) recov

/-- CUR of an engine toggles (04, R114). -/
def Chip.toggle (c : Chip) (e : Nat) : Chip := c.set EE_BANK_CUR (pgEE e) (1 - c.cur e)

/-- The commit of the engines of a lap stands, but for the pairs that are lost; a lockstep lap is
recorded in EG_LSLAPC (05; 06, R183). -/
def Chip.commitStands (c : Chip) (g : Nat) (loose : Bool) : Chip :=
  let l := c.lap g loose
  let keep := l.parts.filter fun k => !l.lost.any fun p => p.1 == k - k % 2 && (c.pairsIn g l).contains p.1
  let c := c.each keep fun c k => c.toggle (8 * g + k)
  let ls := !loose && c.bit EG_LSIMP_LSG (pgEG g) && c.get GL_LSSTS_STATE pgGL != 0 && !keep.isEmpty
  let c := if ls then c.set EG_LSLAPC_LAP (pgEG g) l.lsLap else c
  c.setLap g loose { c.lap g loose with phase := .decided }

/-- The decision of a first run in one group. `src` is the lowest group whose request makes it replay;
none: it does not replay (06, R177 to R180). -/
def Chip.decideFirst (c : Chip) (g : Nat) (loose : Bool) (src : Option Nat) : Chip :=
  let l := c.lap g loose
  let cases_ := (c.pairsIn g l).map fun k => (k, c.pairCase g l k)
  let lost := cases_.filterMap fun p =>
    if p.2 = 4 then some (p.1, 4) else if p.2 = 1 && src.isNone then some (p.1, 1) else none
  let cs := cases_.filter fun p => p.2 == 2 || p.2 == 3
  let c := c.setLap g loose { l with lost := lost, wasB := (cases_.filter fun p => p.2 == 1).map (·.1),
                                     wasC := cs.map fun p => p.1 + (p.2 - 2) }
  let c := cs.foldl (fun c p => (c.pairSts g p.1 p.2 src.isNone).detachNow (8 * g + p.1 + (p.2 - 2)) false) c
  match src with
  | none =>
    let c := cs.foldl (fun c p => c.report (pgEE (8 * g + p.1 + (p.2 - 2))) 7) c
    c.commitStands g loose
  | some h =>
    let c := c.each (c.lap g loose).parts fun c k => c.clearOut (8 * g + k)
    let c := (c.set EG_RPLSTS_SRC (pgEG g) h).setB EG_RPLSTS_VALID (pgEG g) true
    c.setLap g loose { c.lap g loose with phase := .computing, step := 0, replay := true, failed := [], send := [] }

/-- The decision of a replay in one group (06, R181, R182). -/
def Chip.decideReplay (c : Chip) (g : Nat) (loose : Bool) : Chip :=
  let l := c.lap g loose
  let pairs := (c.pairsIn g l).filter fun k => !l.lost.any fun p => p.1 == k
  let good := pairs.filter fun k => c.pairCase g l k == 0
  let bad := pairs.filter fun k => c.pairCase g l k != 0
  let c := c.setLap g loose { l with lost := l.lost ++ bad.map fun k => (k, 5) }
  let c := (good.filter fun k => l.wasB.contains k).foldl (fun c k => (c.pairSts g k 1 true).report (pgEE (8 * g + k)) 6) c
  let c := (l.wasC.filter fun k => l.parts.contains (partner k)).foldl (fun c k =>
    (c.pairSts g (k - k % 2) (2 + k % 2) true).report (pgEE (8 * g + k)) 7) c
  c.commitStands g loose

/-- The groups whose bound lap reaches a phase at the same step edge as that of a group (06, R178). -/
def Chip.together (c : Chip) (g : Nat) (ph : LapPhase) : List Nat :=
  let l := c.lap g false
  (List.range 64).filter fun h =>
    let m := c.lap h false
    m.on && m.phase == ph && m.edge == l.edge && m.len == l.len && m.replay == l.replay &&
      (c.grp h).rate == (c.grp g).rate && c.groupUp h

/-- The edge that ends K3 (06, R177 to R182): for a bound lap, in every group whose lap started at the same
step edge and stands at the same step; for a loose lap, in its group. -/
def Chip.replayDecision (c : Chip) (g : Nat) (loose : Bool) : Chip :=
  let l := c.lap g loose
  if l.on && l.phase == .committed && c.groupUp g && c.stepsRun then
    if l.replay then
      if loose then c.decideReplay g true
      else c.each (c.together g .committed) fun c h => c.decideReplay h false
    else if loose then c.decideFirst g true (if c.wantsReplay g true then some g else none)
    else
      let gs := c.together g .committed
      let ask := gs.filter fun h => c.wantsReplay h false
      let srcs := gs.map fun h =>
        (h, if c.bit EG_RPLCTL_BEN (pgEG h) then (ask.filter fun a => (c.replaySet h).contains a).head? else none)
      srcs.foldl (fun c p => c.decideFirst p.1 false p.2) c
  else c

/-! ## Output phase (04, R115; 05, R159; 06, R173, R186, R187; 07, R191, R195, R201 to R213) -/

/-- The engine whose OUT the group output bits of engine k carry: its own, or its partner's while it is
detached (06, R173, R186). -/
def Chip.outSource (c : Chip) (g k : Nat) : Nat :=
  if c.paired (8 * g + k) && c.detached (8 * g + k) then partner k else k

/-- The 128 values of OUT of an engine. -/
def Chip.outBits (c : Chip) (e : Nat) : Nat := ofBits (fun b => (c.bp e b).out) 128

/-- The group output bits after O1: every engine position whose source took part and was not lost takes
its values; the others keep theirs (07, R191; 06, R182). -/
def Chip.gather (c : Chip) (g : Nat) (l : LapSt) (old : BitVec 1024) : BitVec 1024 :=
  (List.range 8).foldl (fun v k =>
    let s := c.outSource g k
    if l.parts.contains s && !l.lost.any fun p => p.1 == s - s % 2 then
      BitVec.ofNat 1024 (setBits v.toNat (128 * k + 127) (128 * k) (c.outBits (8 * g + s)))
    else v) old

/-- Bits of engines of the other class read 0 (07, R191, R195). -/
def Chip.classBits (c : Chip) (g : Nat) (loose : Bool) (v : BitVec 1024) : BitVec 1024 :=
  (List.range 8).foldl (fun v k =>
    if c.isLoose (8 * g + k) == loose then v else BitVec.ofNat 1024 (setBits v.toNat (128 * k + 127) (128 * k) 0)) v

/-- Word w of 1,024 group bits (05, R157). -/
def portWord (v : BitVec 1024) (w : Nat) : BitVec 64 := BitVec.ofNat 64 (bitsOf v.toNat (64 * w + 63) (64 * w))

/-- The gathered words of a lockstep lap are packed, six to a flit, for each member, and queued
(05, R159). -/
def Chip.lsPack (c : Chip) (lap : Nat) : Chip :=
  let ws := c.eng.lsWords
  let c := { c with eng := { c.eng with lsWords := [] } }
  c.each c.lsLinks fun c m =>
    let mine := ws.filter fun w => w.1 == m
    (List.range ((mine.length + 5) / 6)).foldl (fun c i =>
      let six := (mine.drop (6 * i)).take 6
      c.lsSend m false (lsPayload 2 c.member m (six.length - 1) false lap 0 (six.map (·.2)))) c

/-- The export words of a lockstep group after O1, in ascending order of source group and word; the flits
are formed when every lockstep group of the member has its words of the lap (05, R159). -/
def Chip.lsExport (c : Chip) (g : Nat) : Chip :=
  let l := c.lap g false
  let v := (c.grp g).outReg
  let new := ((List.range 16).filter fun w => c.bit EG_LSRT_EN (pgEG g) w).map fun w =>
    (c.get EG_LSRT_DMEM (pgEG g) w, c.get EG_LSRT_DGRP (pgEG g) w + 64 * c.get EG_LSRT_DWORD (pgEG g) w, portWord v w)
  let c := { c with eng := { c.eng with lsWords := c.eng.lsWords ++ new } }
  let due := c.lsGroups.any fun h =>
    h != g && (c.lap h false).on && (c.lap h false).lsLap == l.lsLap &&
      (c.lap h false).phase != .output
  if due then c else c.lsPack l.lsLap

/-- The bits that observation selects (07, R201). -/
def Chip.observe (c : Chip) (g : Nat) : BitVec 64 :=
  let p := pgEG g
  BitVec.ofNat 64 (ofBits (fun n =>
    c.bit EG_OBSSEL_EN p n &&
      (let e := 8 * g + c.get EG_OBSSEL_ENG p n
       let b := c.get EG_OBSSEL_BP p n
       if c.bit EG_OBSSEL_SRC p n then (c.bp e b).out
       else
         let j := c.get EG_OBSSEL_ENTRY p n
         (eccDecode (c.bankWord e b (c.cur e) (j / 64))).data.getLsbD (j % 64))) 64)

/-- The snapshot at the end of O2 (07, R202). -/
def Chip.snapshot (c : Chip) (g : Nat) (loose : Bool) (lap : Nat) : Chip :=
  let p := pgEG g
  let mode := c.get EG_OBSCTL_MODE p
  if (mode = 1 ∨ mode = 2) ∧ c.bit EG_OBSCTL_CLASS p = loose then
    let c := c.setGrp g { c.grp g with snap := c.observe g, snapLap := BitVec.ofNat 32 lap }
    let c := c.setB EG_OBSCTL_NEW p true
    if mode = 2 then c.set EG_OBSCTL_MODE p 0 else c
  else c

/-- The words of a trace record (07, R209): header and data. -/
def Chip.traceWords (c : Chip) (g : Nat) (loose : Bool) (lap : Nat) (l : LapSt) : List (BitVec 64) :=
  let p := pgEG g
  let outs := (setBitsOf 16 (c.get EG_TRCMASK_OUT p)).map fun w => portWord l.outBits w
  let ins := (setBitsOf 16 (c.get EG_TRCMASK_IN p)).map fun w => portWord l.inBits w
  let obs := if c.bit EG_TRCCTL_OBS p then [c.observe g] else []
  let data := outs ++ ins ++ obs
  BitVec.ofNat 64 (lap % 2 ^ 40 + g * 2 ^ 40 + data.length * 2 ^ 46 + b2n l.replay * 2 ^ 52 + b2n l.ovr * 2 ^ 53 +
    b2n l.forced * 2 ^ 54 + b2n (c.grp g).trace.lost * 2 ^ 55 + b2n loose * 2 ^ 56 + b2n l.first * 2 ^ 57) :: data

/-- Flit writes of a group's trace that wait to enter the network. -/
def Chip.traceWaiting (c : Chip) (g : Nat) : Nat :=
  (c.net.want.filter fun r => match r.asker with | .trace h _ => h == g | _ => false).length

/-- The trace record at the end of O2 (07, R209 to R212). -/
def Chip.traceRecord (c : Chip) (g : Nat) (loose : Bool) (lap : Nat) : Chip :=
  let p := pgEG g
  if c.bit EG_TRCCTL_EN p && c.bit EG_TRCCTL_CLASS p == loose then
    let x := c.grp g
    let t := x.trace
    let ws := c.traceWords g loose lap (x.lap loose)
    let full := c.bit EG_TRCSTS_FULL p || (!c.bit EG_TRCCTL_WRAP p && decide (c.traceUnits g < t.pos + t.held.length + ws.length))
    if full then
      (((c.setB EG_TRCSTS_FULL p true).count EG_TRCDROP_COUNT p).setGrp g { x with trace := { t with lost := true } })
    else if 32 < c.traceWaiting g + (t.pos % 8 + t.held.length + ws.length + 7) / 8 then
      ((c.count EG_TRCDROP_COUNT p).setGrp g { x with trace := { t with lost := true } }).report p 10
    else (c.setGrp g { x with trace := { t with held := t.held ++ ws, lost := false } }).traceFull g 9
  else c

/-- The rejoins that complete at the end of O3 of a lap in which the partner committed (06, R187). -/
def Chip.rejoins (c : Chip) (g : Nat) (l : LapSt) : Chip :=
  c.each ((List.range 8).filter fun k => c.bit EE_PAIR_JOINPEND (pgEE (8 * g + k)) && l.parts.contains (partner k) &&
      !l.lost.any fun p => p.1 == k - k % 2) fun c k =>
    let e := 8 * g + k
    let f := 8 * g + partner k
    let bank := c.cur f
    let c := c.each (List.range 512) fun c i =>
      c.setBank e (i / 4) bank (i % 4) (eccDecode (c.bankWord f (i / 4) bank (i % 4))).data
    let c := c.set EE_BANK_CUR (pgEE e) bank
    (((c.setB EE_PAIR_JOINPEND (pgEE e) false).setB EE_PAIR_DETACHED (pgEE e) false).report (pgEE e) 8).scrubLook

/-- The output phase of a lap (04, R115): O0 to O3. -/
def Chip.lapOutput (c : Chip) (g : Nat) (loose : Bool) : Chip :=
  let l := c.lap g loose
  if l.on && l.phase == .decided && c.groupUp g && c.stepsRun then
    let p := pgEG g
    let x := c.grp g
    let c :=
      if loose then
        let v := c.classBits g true (c.gather g l x.looseReg)
        let b := x.batch
        let c := c.setGrp g { x with looseReg := v, loose := { l with outBits := v, phase := .output },
                                     batch := { b with buf := b.buf.filter (fun r => r.1 != l.recIdx), lap := l.recIdx + 1,
                                                       out := b.out ++ [l.recIdx] } }
        let base := c.get EG_LPOUTH_ADDR p * 2 ^ 32 + c.get EG_LPOUTL_ADDR p * 128
        c.ask { asker := .batchOut g l.recIdx, op := .write, addr := base + 128 * l.recIdx, len := 2, whole := 2,
                kidx := c.get EG_LPCTL_KIDX p,
                lines := [{ data := BitVec.ofNat 512 (bitsOf v.toNat 511 0), mask := BitVec.allOnes 64 },
                          { data := BitVec.ofNat 512 (bitsOf v.toNat 1023 512), mask := BitVec.allOnes 64 }] }
      else
        let v := c.gather g l x.outReg
        let c := c.setGrp g { x with outReg := v, bound := { l with outBits := c.classBits g false v, phase := .output } }
        let c := c.setB EG_LAPSTS_FIRST p false
        if c.bit EG_LSIMP_LSG p && c.get GL_LSSTS_STATE pgGL == 2 then c.lsExport g else c
    let lap := if loose then l.recIdx else ((c.grp g).lapCnt + 1).toNat
    let c := c.snapshot g loose lap
    let c := c.traceRecord g loose lap
    let sampled := (List.range 16).filter fun n => c.forceOn g n 0
    let c := c.rejoins g l
    let (c, any) := sampled.foldl (fun (r : Chip × Bool) n =>
      let k := r.1.get EG_FRCSEL_ENG (pgEG g) n
      let joined := c.paired (8 * g + k) && !c.detached (8 * g + k) && l.parts.contains (partner k)
      if (l.parts.contains k || joined) && (!l.lost.any fun q => q.1 == k - k % 2) then
        let (d, ok) := r.1.applyForce g n
        (d, r.2 || ok)
      else r) (c, false)
    if any then c.setGrp g (if loose then { c.grp g with frcLoose := true } else { c.grp g with frcBound := true }) else c
  else c

/-! ## Completion (04, R112, R116, R143; 06, R182, R185; 07, R198 to R200; 17, R480; 20, R536, R539) -/

/-- The bucket with a change, kept in its bounds (17, R478, R480). -/
def Chip.addBucket (c : Chip) (g : Nat) (d : Int) : Chip :=
  let top : Int := c.get EG_ADMDEPTH_DEPTH (pgEG g) + 1
  let v := sgn 32 (c.get EG_ADMBKT_BKT (pgEG g)) + d
  c.set EG_ADMBKT_BKT (pgEG g) (ofInt 32 (min top (max (-(2 ^ 31 : Int)) v)))

/-- The pairs that ended unrecoverable stop at the completion of their lap (06, R182). -/
def Chip.losePairs (c : Chip) (g : Nat) (l : LapSt) : Chip :=
  l.lost.foldl (fun c p => (c.pairSts g p.1 p.2 false).lapFails [8 * g + p.1, 8 * g + p.1 + 1]) c

/-- What the completion of a lap of either class leaves: stops, detaches, and the end of the group's
function where RUN is 0. -/
def Chip.afterLap (c : Chip) (g : Nat) (loose : Bool) (l : LapSt) : Chip :=
  let c := c.losePairs g l
  let c := c.takeDetaches g fun e => c.isLoose e == loose
  let c := c.each (l.parts.filter fun k => !c.run (pgEE (8 * g + k))) fun c k =>
    (c.dropRejoin (8 * g + k)).setB PG_STS_RUNNING (pgEE (8 * g + k)) false
  let x := c.grp g
  let c := c.setGrp g { x with halt := if x.halt.step == some loose then
      (if x.halt.rel then {} else { x.halt with step := none }) else x.halt }
  let c := if x.halt.step == some loose && x.halt.rel then c.forcesAtStart g else c
  if (!c.run (pgEG g) || c.stopping.contains (pgEG g)) && !x.bound.on && !x.loose.on then c.groupEnd g else c.haltEffect g

/-- One group's bound lap completes. A held pace event starts the next lap at the same edge (04, R133). -/
def Chip.completeBound (c : Chip) (g edge : Nat) : Chip :=
  let x := c.grp g
  let l := x.bound
  let total := if l.replay then 2 * l.len + 16 else l.len + 12
  let c := c.setGrp g { x with bound := { l with on := false }, lapCnt := x.lapCnt + 1,
                               lastLen := if l.ovr then none else some total }
  let c := if l.replay then c.count EG_RPLCNT_BOUND (pgEG g) else c
  let c := c.afterLap g false l
  let x := c.grp g
  if x.held && c.accepts (pgEG g) && c.running (pgEG g) && x.haltAllows false && c.lapsStart && !(c.ready g false).isEmpty then
    let c := (c.setGrp g { x with held := false }).setB EG_LAPSTS_PEND (pgEG g) false
    { c with eng := { c.eng with edge := edge } }.startLap g false { fromPend := true }
  else c.dropPend g

/-- One group's loose lap completes, with its measured energy in nJ (17, R480). -/
def Chip.completeLoose (c : Chip) (g energy : Nat) : Chip :=
  let x := c.grp g
  let l := x.loose
  let c := c.setGrp g { x with loose := { l with on := false }, adm := { x.adm with cost := some (min energy (2 ^ 24 - 1)) } }
  let c := if l.replay then c.count EG_RPLCNT_LOOSE (pgEG g) else c
  let c := if x.adm.free then c else c.addBucket g ((x.adm.charged : Int) - energy)
  let c := (c.set EG_ADMLAST_LAST (pgEG g) (min energy (2 ^ 24 - 1))).count EG_ADMCNT_COUNT (pgEG g)
  let c := if x.batch.fail then
      ((c.setGrp g { c.grp g with batch := { (c.grp g).batch with fail := false } }).eeStop
        (((List.range 8).map (8 * g + ·)).filter fun e => c.isLoose e)).report (pgEG g) 9
    else c
  c.afterLap g true l

/-- The edge that ends O3 (04, R112): for a bound lap, in every group whose lap started at the same step
edge and ends at the same step. -/
def Chip.lapComplete (c : Chip) (g : Nat) (loose : Bool) (energy : Nat) : Chip :=
  let l := c.lap g loose
  if l.on && l.phase == .output && c.groupUp g && c.stepsRun then
    if loose then c.completeLoose g energy
    else
      let edge := c.eng.edge
      let c := c.each (c.together g .output) fun c h => c.completeBound h edge
      { c with eng := { c.eng with edge := edge + 1 } }
  else c

end Sys2Proof.Machine
end

