-- ==== Sys2Proof/Machine/Lockstep.lean ====
section
/-! DEFINITION. Lockstep between devices: control, and the messages received (05, R158 to R167). -/
namespace Sys2Proof.Machine

/-- GL_LSSTS.STATE: 0 OFF, 1 ARMED, 2 RUNNING, 3 STOPPED. -/
def Chip.lsState (c : Chip) : Nat := c.get GL_LSSTS_STATE pgGL

/-- EN = 1 while OFF (05, R163). The import buffers begin empty (log entry 48). -/
def Chip.lockstepArm (c : Chip) : Chip :=
  if c.lsState = 0 then
    let c := (c.set GL_LSSTS_STATE pgGL 1).setB GL_LSCTL_EN pgGL true
    let c := { c with eng := { c.eng with lsSync := false, lsFresh := false, lsWords := [] } }
    c.each c.lsGroups fun c g => c.setGrp g { c.grp g with lsBuf := [], lsPast := false }
  else c

/-- SYNC, performed on the master while ARMED (05, R163). -/
def Chip.lockstepSync (c : Chip) : Chip :=
  if c.lsState = 1 ∧ c.bit GL_LSCTL_MASTER pgGL then { c with eng := { c.eng with lsSync := true } } else c

/-- STOP (05, R165). -/
def Chip.lockstepStop (c : Chip) : Chip := c.lsFail 0

/-- EN = 0 from STOPPED (05, R167, GL_LSCTL). -/
def Chip.lockstepDisarm (c : Chip) : Chip :=
  if c.lsState = 3 then (c.set GL_LSSTS_STATE pgGL 0).setB GL_LSCTL_EN pgGL false
  else if c.lsState = 0 then c.setB GL_LSCTL_EN pgGL false else c

/-- A received LSSYNC (05, R163). -/
def Chip.lsSyncIn (c : Chip) (lap : Nat) : Chip :=
  if c.lsState = 1 then
    let c := (c.set GL_LSSTS_STATE pgGL 2).set GL_LSLAP_LAP pgGL lap
    let c := c.each c.lsGroups fun c g => c.set EG_LSLAPC_LAP (pgEG g) ((lap + 2 ^ 32 - 1) % 2 ^ 32)
    { c with eng := { c.eng with lsSync := false, lsFresh := true } }
  else c

/-- One word of a received LSDATA (05, R161, R165). -/
def Chip.lsWordIn (c : Chip) (lap tag : Nat) (d : BitVec 64) : Chip :=
  let g := tag % 64
  let w := tag / 64 % 16
  let now := c.get GL_LSLAP_LAP pgGL
  let x := c.grp g
  if c.lsState ≠ 1 ∧ c.lsState ≠ 2 then c
  else if !(lap == now || ((lap + 1) % 2 ^ 32 == now && !x.lsPast)) then c.lsFail 2
  else if !(c.bit EG_LSIMP_LSG (pgEG g) && (c.get EG_LSIMP_WEN (pgEG g)).testBit w) then c.lsFail 5
  else if x.lsBuf.any fun b => b.lap == lap && b.word == w then c.lsFail 5
  else c.setGrp g { x with lsBuf := x.lsBuf ++ [{ lap := lap, word := w, data := d }] }

/-- A received LSDATA (05, R161). -/
def Chip.lsDataIn (c : Chip) (p : BitVec 512) : Chip :=
  let v := p.toNat
  c.each (List.range (min 6 (bitsOf v 14 12 + 1))) fun c n =>
    c.lsWordIn (bitsOf v 47 16) (bitsOf v (64 + 10 * n + 9) (64 + 10 * n)) (BitVec.ofNat 64 (bitsOf v (128 + 64 * n + 63) (128 + 64 * n)))

/-- A received LSSTOP; the master sends it on (05, R166). -/
def Chip.lsStopIn (c : Chip) (p : BitVec 512) : Chip :=
  let v := p.toNat
  let cause := bitsOf v 14 12
  let orig := bitsOf v 51 48
  if c.lsState = 1 ∨ c.lsState = 2 then
    let c := if c.bit GL_LSCTL_MASTER pgGL then
        c.each c.lsLinks fun c m => c.lsSend m true (lsPayload 3 c.member m cause true (bitsOf v 47 16) orig [])
      else c
    c.lsStopAll cause orig true
  else c

/-- A message for this member of the lockstep set. -/
def Chip.lsMine (c : Chip) (p : BitVec 512) : Bool := bitsOf p.toNat 11 8 == c.member

/-- The type of a lockstep message: 1 LSSYNC, 2 LSDATA, 3 LSSTOP. -/
def lsType (p : BitVec 512) : Nat := p.toNat % 16

/-- A lockstep message takes effect (05, R158). -/
def Chip.lsTake (c : Chip) (p : BitVec 512) : Chip :=
  if !c.lsMine p then c
  else match lsType p with
    | 1 => c.lsSyncIn (bitsOf p.toNat 47 16)
    | 2 => c.lsDataIn p
    | 3 => c.lsStopIn p
    | _ => c

end Sys2Proof.Machine
end

