-- ==== Sys2Proof/Machine/Crypto.lean ====
section
/-! DEFINITION. The arithmetic of stored lines: AES-256 (log entry 11), the cipher, the tag and the symbol code
(14, R383 to R391, R396). -/
namespace Sys2Proof.Machine

/-! ## Fields -/

/-- The product of two elements of GF(2^n); `poly` is the field polynomial with its leading term. -/
def gfMul (n poly a b : Nat) : Nat :=
  let p := (List.range n).foldl (fun r i => if b.testBit i then r ^^^ (a <<< i) else r) 0
  (List.range n).foldl (fun r i => let k := 2 * n - 1 - i; if r.testBit k then r ^^^ (poly <<< (k - n)) else r) p

/-- A product in GF(2^8) of AES. -/
def gf8 (a b : Nat) : Nat := gfMul 8 0x11B a b

/-- A product in GF(2^7) of the symbol code (14, R384). -/
def gf7 (a b : Nat) : Nat := gfMul 7 0x89 a b

/-- A product in GF(2^64) of the tag (14, R391). -/
def gf64 (a b : Nat) : Nat := gfMul 64 0x1000000000000001B a b

/-- A power in GF(2^7). -/
def gf7Pow (a : Nat) : Nat → Nat
  | 0 => 1
  | n + 1 => gf7 (gf7Pow a n) a

/-! ## AES-256 (FIPS 197) -/

/-- The substitution of a byte: its inverse, then the affine map. -/
def subByte (x : Nat) : Nat :=
  let sq := fun v => gf8 v v
  let x2 := sq x
  let x4 := sq x2
  let x8 := sq x4
  let x16 := sq x8
  let x32 := sq x16
  let x64 := sq x32
  let x128 := sq x64
  let v := gf8 (gf8 (gf8 x2 x4) (gf8 x8 x16)) (gf8 (gf8 x32 x64) x128)
  ofBits (fun i => (((v.testBit i ^^ v.testBit ((i + 4) % 8)) ^^ (v.testBit ((i + 5) % 8) ^^ v.testBit ((i + 6) % 8))) ^^
    (v.testBit ((i + 7) % 8) ^^ Nat.testBit 0x63 i))) 8

/-- Exclusive or of lists of bytes. -/
def xorBytes (a b : List Nat) : List Nat := List.zipWith (fun x y => x ^^^ y) a b

/-- The key schedule: words of 4 bytes, the newest first; `k` words are still to form, word `60 - k` next. -/
def expandKey : Nat → List (List Nat) → List (List Nat)
  | 0, ws => ws
  | k + 1, ws =>
    let i := 60 - (k + 1)
    let prev := ws.headD []
    let t :=
      if i % 8 = 0 then
        let r := (prev.drop 1 ++ prev.take 1).map subByte
        xorBytes r [(List.range (i / 8 - 1)).foldl (fun a _ => gf8 a 2) 1, 0, 0, 0]
      else if i % 8 = 4 then prev.map subByte
      else prev
    expandKey k (xorBytes t (ws.getD 7 []) :: ws)

/-- The 15 round keys of 16 bytes. -/
def roundKeys (key : List Nat) : List (List Nat) :=
  let first := (List.range 8).map fun i => (key.drop (4 * i)).take 4
  let ws := (expandKey 52 first.reverse).reverse
  (List.range 15).map fun r => ((ws.drop (4 * r)).take 4).flatten

/-- The rows of a state of 16 bytes, column by column, are shifted. -/
def shiftRows (s : List Nat) : List Nat := (List.range 16).map fun i => s.getD ((i + 4 * (i % 4)) % 16) 0

/-- The columns of a state are mixed. -/
def mixColumns (s : List Nat) : List Nat :=
  (List.range 16).map fun i =>
    let a := fun j => s.getD (4 * (i / 4) + (i + j) % 4) 0
    gf8 2 (a 0) ^^^ gf8 3 (a 1) ^^^ a 2 ^^^ a 3

/-- AES-256 of a block of 16 bytes under a key of 32 bytes. -/
def aes256 (key block : List Nat) : List Nat :=
  let ks := roundKeys key
  let s := xorBytes block (ks.getD 0 [])
  let s := (List.range 13).foldl (fun s r => xorBytes (mixColumns (shiftRows (s.map subByte))) (ks.getD (r + 1) [])) s
  xorBytes (shiftRows (s.map subByte)) (ks.getD 14 [])

/-! ## Cipher and tag (14, R389 to R391, R396) -/

/-- The `n` bytes of a number, the most significant first. -/
def beBytes (n v : Nat) : List Nat := (List.range n).map fun i => v / 256 ^ (n - 1 - i) % 256

/-- A number from bytes, the most significant first. -/
def beNat (bs : List Nat) : Nat := bs.foldl (fun a b => 256 * a + b) 0

/-- The bytes of a key as it is held: key byte k in bits 8k + 7 to 8k (14, R387). -/
def keyBytes (k : BitVec 256) : List Nat := (natLe 32 k.toNat).map (·.toNat)

/-- The counter block (14, R389). -/
def counterBlock (V m AW d j : Nat) : List Nat := beBytes 8 V ++ [m % 128] ++ beBytes 5 AW ++ [d, j]

/-- Data of a line encrypted or decrypted under a key (14, R390). -/
def cipher (k : BitVec 256) (V m AW : Nat) (x : BitVec 512) : BitVec 512 :=
  let pad := (List.range 4).flatMap fun j => aes256 (keyBytes k) (counterBlock V m AW 0 j)
  x ^^^ BitVec.ofNat 512 (leNat (pad.map (BitVec.ofNat 8)))

/-- The tag of 64 bytes (14, R391). -/
def lineTag (k : BitVec 256) (V m AW : Nat) (x : BitVec 512) : BitVec 36 :=
  let key := keyBytes k
  let h := beNat ((aes256 key (counterBlock 0 0 0 2 0)).take 8)
  let bs := (natLe 64 x.toNat).map (·.toNat)
  let ms := ((List.range 8).map fun i => beNat ((bs.drop (8 * i)).take 8)) ++ [AW, V, m]
  let y := ms.foldl (fun y v => gf64 (y ^^^ v) h) 0
  let e := beNat ((aes256 key (counterBlock V m AW 1 0)).take 8)
  BitVec.ofNat 36 ((y ^^^ e) >>> 28)

/-! ## Symbol code (14, R383 to R385) -/

/-- The 79 data symbols of 64 bytes and a tag. -/
def symbols (x : BitVec 512) (t : BitVec 36) : List Nat :=
  let s := x.toNat + t.toNat * 2 ^ 512
  (List.range 79).map fun i => s / 128 ^ i % 128

/-- The remainder of the data polynomial by g(x): coefficients of x^0 to x^3 (14, R384). -/
def checkSymbols (ds : List Nat) : List Nat :=
  -- g(x) = (x + 1)(x + a)(x + a^2)(x + a^3) = x^4 + g3 x^3 + g2 x^2 + g1 x + g0
  let g := [0, 1, 2, 3].foldl (fun (p : List Nat) j => xorBytes (0 :: p) (p.map (gf7 (gf7Pow 2 j)) ++ [0])) [1]
  ds.reverse.foldl (fun r d =>
    let f := d ^^^ r.getD 3 0
    (List.range 4).map fun i => (if i = 0 then 0 else r.getD (i - 1) 0) ^^^ gf7 f (g.getD i 0)) [0, 0, 0, 0]

/-- The stored line of 64 bytes and a tag (14, R383). -/
def storedLine (x : BitVec 512) (t : BitVec 36) : BitVec 576 :=
  let cs := checkSymbols (symbols x t)
  let c := cs.zipIdx.foldl (fun a ci => a + ci.1 * 128 ^ ci.2) 0
  BitVec.ofNat 576 (x.toNat + t.toNat * 2 ^ 512 + c * 2 ^ 548)

/-- What a stored line decodes to (14, R385): its data and tag, and whether a symbol was corrected; none where
it is uncorrectable. -/
def lineDecode (w : BitVec 576) : Option (BitVec 512 × BitVec 36 × Bool) :=
  let v := w.toNat
  let x := BitVec.ofNat 512 v
  let t := BitVec.ofNat 36 (v >>> 512)
  let word := ((List.range 4).map fun k => (v >>> 548) / 128 ^ k % 128) ++ symbols x t
  let syn := fun j => word.reverse.foldl (fun a s => gf7 a (gf7Pow 2 j) ^^^ s) 0
  let s := [syn 0, syn 1, syn 2, syn 3]
  if s == [0, 0, 0, 0] then some (x, t, false)
  else
    let e := s.getD 0 0
    match (List.range 83).find? fun p => e != 0 && (List.range 4).all fun j => s.getD j 0 == gf7 e (gf7Pow 2 (j * p % 127)) with
    | none => none
    | some p =>
      if p < 4 then some (x, t, true)
      else
        let full := (x.toNat + t.toNat * 2 ^ 512) ^^^ (e * 128 ^ (p - 4))
        some (BitVec.ofNat 512 full, BitVec.ofNat 36 (full >>> 512), true)

end Sys2Proof.Machine
end

