-- ==== Sys2Proof/Machine/Memory.lean ====
section
/-! DEFINITION. Memory ports and crypto engines: the counter tree, line operations, rekey and the state record
(14). -/
namespace Sys2Proof.Machine

/-! ## Ports (14, R376 to R382) -/

/-- The crypto engine of a port, and its control page. -/
def mcOf (q : Nat) : Nat := pgMC (q / 4) 0

/-- The link port of a memory port is in the link-up state for memory use (14, R382; 15, R435). -/
def Chip.memLink (c : Chip) (q : Nat) : Bool :=
  let l := pgLN (c.get ML_CTL_LPORT (pgML q))
  c.get LN_PSTS_STATE l == 3 && c.get LN_PCFG_USE l == 2

/-- The lowest free PTAG of a port (14, R380). -/
def Chip.freePtag (c : Chip) (q : Nat) : Option Nat :=
  (List.range 1024).find? fun t => !c.mem.pmp.any fun r => r.port == q && r.tag == t

/-- The command flit of a PMP packet (14, Table 14-2). -/
def pmpFlit (type tag count laddr : Nat) : BitVec 512 :=
  BitVec.ofNat 512 (type + tag * 2 ^ 8 + (count - 1) * 2 ^ 18 + laddr / 64 * 2 ^ 26)

/-- The data flits that hold stored lines (14, R380). -/
def pmpData (lines : List (BitVec 576)) : List (BitVec 512) :=
  let v := lines.zipIdx.foldl (fun a li => a + li.1.toNat * 2 ^ (576 * li.2)) 0
  (List.range ((72 * lines.length + 63) / 64)).map fun i => BitVec.ofNat 512 (v >>> (512 * i))

/-- A PMP request leaves a port; none where no PTAG is free. -/
def Chip.pmpSend (c : Chip) (q type laddr : Nat) (use : PmpUse) (lines : List (BitVec 576) := []) : Option Chip :=
  (c.freePtag q).map fun t =>
    let n := max 1 lines.length
    let l := c.get ML_CTL_LPORT (pgML q)
    let flits := pmpFlit type t n laddr :: pmpData lines
    { c with mem := { c.mem with pmp := c.mem.pmp ++ [{ port := q, tag := t, type := type, count := n, use := use }],
                                 out := c.mem.out ++ flits.map (l, ·) } }

/-! ## The counter tree (14, R392 to R398) -/

/-- A crypto engine. -/
def Chip.crypto (c : Chip) (m : Nat) : CryptoSt := Store.get {} c.mem.crypto m

/-- A crypto engine takes a state. -/
def Chip.setCrypto (c : Chip) (m : Nat) (x : CryptoSt) : Chip :=
  { c with mem := { c.mem with crypto := Store.put {} c.mem.crypto m x } }

/-- Port-local address of a counter line or node (14, Table 14-6). -/
def nodeAddr (level index : Nat) : Nat :=
  (match level with
    | 0 => 0x8000000000
    | 1 => 0x8200000000
    | 2 => 0x8240000000
    | 3 => 0x8248000000
    | 4 => 0x8249000000
    | 5 => 0x8249200000
    | 6 => 0x8249240000
    | 7 => 0x8249248000
    | _ => 0x8249249000) + 64 * index

/-- The cache key of a node of a port. -/
def nodeKey (q level index : Nat) : Nat := (q % 4 * 16 + level) * 2 ^ 27 + index

/-- A trusted counter line or node. -/
def Chip.node (c : Chip) (q level index : Nat) : Option CacheLine := (c.crypto (q / 4)).cache.lookup (nodeKey q level index)

/-- A counter line or node enters the cache. -/
def Chip.setNode (c : Chip) (q level index : Nat) (l : CacheLine) : Chip :=
  let x := c.crypto (q / 4)
  c.setCrypto (q / 4) { x with cache := Store.insert x.cache (nodeKey q level index) l }

/-- Entry i of a node (14, Table 14-5). -/
def entryOf (d : BitVec 512) (i : Nat) : Nat := bitsOf d.toNat (64 * i + 63) (64 * i)

/-- The entry of a node's parent, or of the root (14, R395). -/
def Chip.parentEntry (c : Chip) (q level index : Nat) : Option Nat :=
  if 8 ≤ level then some (Store.get 0 (c.crypto (q / 4)).root (8 * (q % 4) + index)).toNat
  else (c.node q (level + 1) (index / 8)).map fun n => entryOf n.data (index % 8)

/-- The entry of a node's parent changes; a node that changes is to be written back. -/
def Chip.setParent (c : Chip) (q level index v : Nat) : Chip :=
  if 8 ≤ level then
    let x := c.crypto (q / 4)
    c.setCrypto (q / 4) { x with root := Store.put 0 x.root (8 * (q % 4) + index) (BitVec.ofNat 64 v) }
  else match c.node q (level + 1) (index / 8) with
    | none => c
    | some n =>
      let i := index % 8
      c.setNode q (level + 1) (index / 8) { data := BitVec.ofNat 512 (setBits n.data.toNat (64 * i + 63) (64 * i) v), dirty := true }

/-- The tag of a counter line or node under a version (14, R396). Without a tree key no tag matches: none. -/
def Chip.nodeTag (c : Chip) (q level index ver : Nat) (d : BitVec 512) : Option (BitVec 36) :=
  (c.crypto (q / 4)).treeKey.map fun k =>
    lineTag k ver 0 (nodeAddr level index / 64 + q % 4 * 2 ^ 34 + 2 ^ 39) d

/-- TREESTS.STATE of a port: 0 UNINIT, 1 INITIALISING, 2 READY, 3 FAILED. -/
def Chip.treeState (c : Chip) (q : Nat) : Nat := c.get MC_TREESTS_STATE (mcOf q) / 4 ^ (q % 4) % 4

/-- TREESTS.STATE of a port takes a value. -/
def Chip.setTree (c : Chip) (q v : Nat) : Chip :=
  c.set MC_TREESTS_STATE (mcOf q) (setBits (c.get MC_TREESTS_STATE (mcOf q)) (2 * (q % 4) + 1) (2 * (q % 4)) v)

/-- The poison entry that covers a group of a port, by its level (14, R398). -/
def Chip.poisonLevel (c : Chip) (q g : Nat) : Option Nat :=
  (List.range 16).findSome? fun n =>
    let p := mcOf q
    let lv := c.get MC_PSNA_LEVEL p n
    if c.bit MC_PSNA_VALID p n && c.get MC_PSNA_PORT p n == q % 4 &&
      c.get MC_PSNB_GROUP p n / 8 ^ lv == g / 8 ^ lv then some lv else none

/-- A group's lines are answered with ERR_INTEG (14, Table 14-7 row 2). -/
def Chip.poisonedGroup (c : Chip) (q g : Nat) : Bool := c.treeState q == 3 || (c.poisonLevel q g).isSome

/-- A counter line or node fails: its subtree is poisoned, or the port (14, R398). -/
def Chip.poison (c : Chip) (q level index : Nat) : Chip :=
  let p := mcOf q
  let c := match (List.range 16).find? fun n => !c.bit MC_PSNA_VALID p n with
    | some n =>
      (((c.setB MC_PSNA_VALID p true n).set MC_PSNA_LEVEL p level n).set MC_PSNA_PORT p (q % 4) n).set MC_PSNB_GROUP p (index * 8 ^ level) n
    | none => c.setTree q 3
  c.report p 5

/-- The port-local group of a device address, and the line in it (14, R376, R392). -/
def Chip.groupAt (c : Chip) (q addr : Nat) : Nat := c.localOf q addr / 4096
def Chip.lineAt (c : Chip) (q addr : Nat) : Nat := c.localOf q addr % 4096 / 64

/-- The device address of a port-local address (14, R376). -/
def Chip.deviceOf (c : Chip) (q l : Nat) : Nat :=
  match c.mem.maps.lookup q with
  | some m => m.base * 2 ^ 30 + (l / 4096 * m.ways + m.pos) * 4096 + l % 4096
  | none => 0

/-- The recorded slot of a group, where its level-1 node is cached (14, R394). -/
def Chip.recordedSlot (c : Chip) (q g : Nat) : Option Nat := (c.parentEntry q 0 g).map fun e => e / 2 ^ 56

/-- The recorded slot of a group changes. -/
def Chip.recordSlot (c : Chip) (q g slot : Nat) : Chip :=
  match c.parentEntry q 0 g with
  | some e => c.setParent q 0 g (e % 2 ^ 56 + slot * 2 ^ 56)
  | none => c

/-- Major counter, and minor counter of line i, of a counter line (14, R392). -/
def majorOf (d : BitVec 512) : Nat := d.toNat % 2 ^ 64
def minorOf (d : BitVec 512) (i : Nat) : Nat := bitsOf d.toNat (64 + 7 * i + 6) (64 + 7 * i)

/-- The background re-encryption of a group (14, R393). -/
def Chip.bgOf (c : Chip) (q g : Nat) : Option BgGroup := (c.crypto (q / 4)).bg.find? fun b => b.port == q && b.group == g

/-- The counters under which a line stands: the old ones while its re-encryption is due (14, R393). -/
def Chip.countersOf (c : Chip) (q g i : Nat) (d : BitVec 512) : Nat × Nat :=
  match c.bgOf q g with
  | some b => if b.left.contains i then (b.oldMajor, bitsOf b.oldMinors.toNat (7 * i + 6) (7 * i)) else (majorOf d, minorOf d i)
  | none => (majorOf d, minorOf d i)

/-- A line of a group is re-encrypted: with the last one the group is done. -/
def Chip.bgDone (c : Chip) (q g i : Nat) : Chip :=
  let x := c.crypto (q / 4)
  c.setCrypto (q / 4) { x with bg := (x.bg.map fun b =>
    if b.port == q && b.group == g then { b with left := b.left.filter (· != i) } else b).filter fun b => !b.left.isEmpty }

/-! ## Keys (14, R386 to R388, R406) -/

/-- The keys of a slot. -/
def CryptoSt.slot (x : CryptoSt) (n : Nat) : KeySlot := Store.get {} x.slots n

/-- The key of a slot for a line: the new one below the boundary of a rekey (14, R406); none where the slot is
EMPTY. -/
def Chip.keyFor (c : Chip) (m slot addr : Nat) : Option (BitVec 256) :=
  let x := c.crypto m
  if c.get MC_KSLOT_STATE (pgMC m 1) slot = 0 || slot = 0 then none
  else match x.rekey with
    | some r => if r.slot = slot ∧ addr < r.bnd then some ((x.slot slot).new.getD (x.slot slot).key) else some (x.slot slot).key
    | none => some (x.slot slot).key

/-- The address word of a data line (14, R389). -/
def lineAW (addr : Nat) : Nat := addr / 64

/-- A data line verifies under a key and counters (14, R391). -/
def verifies (k : Option (BitVec 256)) (V m addr : Nat) (x : BitVec 512) (t : BitVec 36) : Bool :=
  match k with
  | some k => lineTag k V m (lineAW addr) x == t
  | none => false

/-- The plaintext of a data line; without a key, as it stands. -/
def decrypt (k : Option (BitVec 256)) (V m addr : Nat) (x : BitVec 512) : BitVec 512 :=
  match k with
  | some k => cipher k V m (lineAW addr) x
  | none => x

/-- The stored line of a plaintext under a key and counters; in plaintext, with tag 0, without one (14, R383). -/
def sealLine (k : Option (BitVec 256)) (V m addr : Nat) (x : BitVec 512) : BitVec 576 :=
  match k with
  | some k => let y := cipher k V m (lineAW addr) x; storedLine y (lineTag k V m (lineAW addr) y)
  | none => storedLine x 0

/-! ## Line operations (14, R401 to R406) -/

/-- An operation changes. -/
def Chip.onOp (c : Chip) (id : Nat) (f : LineOp → LineOp) : Chip :=
  { c with mem := { c.mem with ops := c.mem.ops.map fun o => if o.id == id then f o else o } }

/-- An operation is over. -/
def Chip.endOp (c : Chip) (id : Nat) : Chip := { c with mem := { c.mem with ops := c.mem.ops.filter fun o => o.id != id } }

/-- A new operation waits. -/
def Chip.addOp (c : Chip) (o : LineOp) : Chip :=
  { c with mem := { c.mem with nextOp := c.mem.nextOp + 1, ops := c.mem.ops ++ [{ o with id := c.mem.nextOp }] } }

/-- The registers that show the boundary of a rekey. -/
def Chip.showRekey (c : Chip) (m : Nat) : Chip :=
  let p := pgMC m 0
  match (c.crypto m).rekey with
  | some r =>
    ((((c.set MC_RKBNDL_ADDR p (r.bnd / 64)).set MC_RKBNDH_ADDR p (r.bnd / 2 ^ 32)).set MC_RKSTS_SLOT p r.slot).set MC_RKSTS_STATE p
      (if r.bnd < r.sure then 2 else 1))
  | none => c.set MC_RKSTS_STATE p 0

/-- The rekey has reached the end of its range (14, R406). -/
def Chip.rekeyEnd (c : Chip) (m : Nat) (r : Rekey) : Chip :=
  let x := c.crypto m
  let k := x.slot r.slot
  let c := c.setCrypto m { x with rekey := none, slots := Store.put {} x.slots r.slot { key := k.new.getD k.key, new := none } }
  let p := pgMC m 1
  let c := (c.set MC_KSLOT_STATE p 1 r.slot).set MC_KSLOT_GEN p (c.get MC_KSLOT_GEN p r.slot + 1) r.slot
  (c.showRekey m).report (pgMC m 0) 9

/-- The boundary moves to an address; after every 1 MiB of the range a checkpoint is appended (14, R405, R407). -/
def Chip.rekeyTo (c : Chip) (m : Nat) (r : Rekey) (upTo : Nat) : Chip :=
  let x := c.crypto m
  let mark := (upTo - r.first) / 2 ^ 20 != (r.bnd - r.first) / 2 ^ 20
  let log := (c.mem.log.lookup m).getD []
  let log := if 2048 ≤ log.length then [] else log
  let c := if mark then
      { c with mem := { c.mem with log := Store.insert c.mem.log m (log ++ [(r.slot, c.get MC_KSLOT_GEN (pgMC m 1) r.slot, upTo)]) } }
    else c
  let r := { r with bnd := upTo }
  let c := (c.setCrypto m { x with rekey := some r }).showRekey m
  if r.last < upTo then c.rekeyEnd m r else c

/-- The line at the boundary is left unchanged (14, R405). -/
def Chip.rekeySkip (c : Chip) (m : Nat) : Chip := (c.count MC_RKSKIP_COUNT (pgMC m 0)).report (pgMC m 0) 10

/-- The boundary moves past its line. -/
def Chip.rekeyNext (c : Chip) (m : Nat) : Chip :=
  match (c.crypto m).rekey with
  | some r => c.rekeyTo m r (r.bnd + 64)
  | none => c

/-- A GRPFREE or GRPINIT moves on to the next group of its range that belongs to the engine (14, MC_KCMD). `k`
bounds how many groups of other engines it passes. -/
def Chip.grpNext (c : Chip) (m : Nat) : Nat → Chip
  | 0 => c
  | k + 1 =>
    let x := c.crypto m
    match x.grp with
    | none => c
    | some gc =>
      if gc.last < gc.next then (c.setCrypto m { x with grp := none }).setB MC_KCMD_BUSY (pgMC m 0) false
      else
        let c := c.setCrypto m { x with grp := some { gc with next := gc.next + 4096 } }
        match c.portOf gc.next with
        | some q => if q / 4 = m then c.addOp { id := 0, kind := .grp gc.init, addr := gc.next, port := q, slot := 0 } else c.grpNext m k
        | none => c.grpNext m k

/-- An operation ends with a code for its line, its data and the code of its verification (14, Table 14-7). For
the rekey engine and a re-encryption the code says whether the line was written; ERR_LINK leaves the line to be
tried again (log entry 47). -/
def Chip.finish (c : Chip) (o : LineOp) (code : Nat) (data : BitVec 512) (late : Nat := 0) : Chip :=
  let c := c.endOp o.id
  let m := o.port / 4
  match o.kind with
  | .read _ => c.lineDone o.dst o.ni o.tag o.line code data late
  | .write _ _ => c.lineDone o.dst o.ni o.tag o.line code data late
  | .rekey => if code = errLink then c else if code = 0 then c.rekeyNext m else (c.rekeySkip m).rekeyNext m
  | .bg =>
    if code = errLink then c
    else
      let c := if code = 0 then c else c.count MC_BGSKIP_COUNT (pgMC m 0)
      c.bgDone o.port (c.groupAt o.port o.addr) (c.lineAt o.port o.addr)
  | .grp _ => c.grpNext m (2 ^ 30)

/-- Something earlier holds an operation up: the same line, or the boundary of a rekey (14, R401, R405, R406,
R409). -/
def Chip.opHeld (c : Chip) (o : LineOp) : Bool :=
  (c.mem.ops.any fun x => decide (x.id < o.id) && x.port == o.port && x.addr == o.addr) ||
  (match (c.crypto (o.port / 4)).rekey, o.kind with
    | some r, .read _ => o.addr == r.bnd || (o.slot == r.slot && decide (r.bnd ≤ o.addr ∧ o.addr < r.sure))
    | some r, .write _ _ => o.addr == r.bnd || (o.slot == r.slot && decide (r.bnd ≤ o.addr ∧ o.addr < r.sure))
    | some _, .rekey => (c.bgOf o.port (c.groupAt o.port o.addr)).isSome
    | _, _ => false)

/-- The operation reads its data line. -/
def LineOp.reads (o : LineOp) : Bool :=
  match o.kind with
  | .read _ => true
  | .write _ mask => mask != BitVec.allOnes 64
  | .rekey => true
  | .bg => true
  | .grp _ => false

/-- The operation needs the counters of its line. -/
def LineOp.counted (o : LineOp) : Bool :=
  match o.kind with
  | .read _ => o.slot != 0
  | .write _ _ => o.slot != 0
  | _ => true

/-- The lowest level of the path that the operation needs. -/
def LineOp.low (o : LineOp) : Nat := match o.kind with | .grp _ => 1 | _ => 0

/-- The next level of the path that is to be read: the highest that is neither cached nor, after a failure, held
as read (14, R397, R403). -/
def Chip.pathNext (c : Chip) (o : LineOp) : Option Nat :=
  let g := c.groupAt o.port o.addr
  ((List.range 9).reverse.filter (o.low ≤ ·)).find? fun k =>
    (c.node o.port k (g / 8 ^ k)).isNone && (o.raw.lookup k).isNone

/-- The counter line as the operation sees it. -/
def Chip.counterLine (c : Chip) (o : LineOp) : BitVec 512 :=
  match c.node o.port 0 (c.groupAt o.port o.addr) with
  | some l => l.data
  | none => (o.raw.lookup 0).getD 0

/-- A line is sent to memory for an operation. -/
def Chip.opStore (c : Chip) (o : LineOp) (w : BitVec 576) : Chip :=
  match c.pmpSend o.port 2 (c.localOf o.port o.addr) (.store o.id) [w] with
  | some c => c.onOp o.id fun x => { x with asked := true }
  | none => c

/-- Bytes of a line merged under a mask (14, R402). -/
def mergeBytes (old new : BitVec 512) (mask : BitVec 64) : BitVec 512 :=
  let m := BitVec.ofNat 512 (ofBits (fun i => mask.getLsbD (i / 8)) 512)
  (old &&& ~~~m) ||| (new &&& m)

/-- A write under a slot takes the next counter of its line, and is sent (14, R392 to R394, R399). -/
def Chip.writeCounted (c : Chip) (o : LineOp) (x : BitVec 512) : Chip :=
  let q := o.port
  let g := c.groupAt q o.addr
  let i := c.lineAt q o.addr
  let d := c.counterLine o
  let mi := minorOf d i
  let inBoundary : Bool := match (c.crypto (q / 4)).rekey with
    | some r => c.portOf r.bnd == some q && c.groupAt q r.bnd == g
    | none => false
  let k := c.keyFor (q / 4) o.slot o.addr
  if (c.freePtag q).isNone then c
  else if mi == 127 && (inBoundary || (c.bgOf q g).isSome) then c
  else if mi = 127 ∧ majorOf d = 2 ^ 64 - 1 then (c.report (mcOf q) 8).finish o errStopped 0
  else
    let c := if c.recordedSlot q g == some 0 then c.recordSlot q g o.slot else c
    if mi = 127 then
      let y := c.crypto (q / 4)
      let c := c.setCrypto (q / 4) { y with bg := y.bg ++
        [{ port := q, group := g, oldMajor := majorOf d, oldMinors := BitVec.ofNat 448 (d.toNat >>> 64), slot := o.slot,
           left := (List.range 64).filter (· != i) }] }
      let c := c.setNode q 0 g { data := BitVec.ofNat 512 (majorOf d + 1), dirty := true }
      c.opStore o (sealLine k (majorOf d + 1) 0 o.addr x)
    else
      let c := c.setNode q 0 g { data := BitVec.ofNat 512 (setBits d.toNat (64 + 7 * i + 6) (64 + 7 * i) (mi + 1)), dirty := true }
      (c.bgDone q g i).opStore o (sealLine k (majorOf d) (mi + 1) o.addr x)

/-- What is decided when everything that an operation reads is there (14, Table 14-7 rows 6 to 8; R402, R403,
R405, R393). -/
def Chip.lineDecide (c : Chip) (o : LineOp) : Chip :=
  let q := o.port
  let p := mcOf q
  let g := c.groupAt q o.addr
  let d := c.counterLine o
  let (V, mi) := c.countersOf q g (c.lineAt q o.addr) d
  let (x, t) := o.got.getD (0, 0)
  let k := c.keyFor (q / 4) o.slot o.addr
  match o.kind with
  | .read spec =>
    if o.slot = 0 then c.finish o 0 x
    else
      let ok := verifies k V mi o.addr x t
      let c := c.reportIf (!ok && !o.fail) p 2
      if spec then c.finish o 0 (decrypt k V mi o.addr x) (if ok && !o.fail then 0 else errInteg)
      else if ok then c.finish o 0 (decrypt k V mi o.addr x) else c.finish o errInteg 0
  | .write data mask =>
    if !c.memLink q then c.finish o errLink 0
    else if o.slot = 0 then
      c.opStore o (sealLine none 0 0 o.addr (mergeBytes x data mask))
    else if o.reads && !verifies k V mi o.addr x t then (c.report p 3).finish o errInteg 0
    else c.writeCounted o (mergeBytes (if o.reads then decrypt k V mi o.addr x else 0) data mask)
  | .rekey =>
    let s := (c.crypto (q / 4)).slot o.slot
    let uncertain := match (c.crypto (q / 4)).rekey with | some r => decide (r.bnd < r.sure) | none => false
    if o.ecc || o.fail then c.finish o errInteg 0
    else if verifies (some s.key) V mi o.addr x t then
      if c.memLink q then c.opStore o (sealLine s.new V mi o.addr (decrypt (some s.key) V mi o.addr x)) else c.finish o errLink 0
    else if uncertain && verifies s.new V mi o.addr x t then c.finish o 0 0
    else c.finish o errInteg 0
  | .bg =>
    if o.ecc || o.fail || !verifies k V mi o.addr x t then c.finish o errInteg 0
    else if c.memLink q then
      c.opStore o (sealLine k (majorOf d) (minorOf d (c.lineAt q o.addr)) o.addr (decrypt k V mi o.addr x))
    else c.finish o errLink 0
  | .grp init =>
    if init then
      ((c.setNode q 0 g { data := 0, dirty := true }).recordSlot q g 0).finish o 0 0
    else (c.recordSlot q g 0).finish o 0 0

/-- An operation goes on as far as it can (14, Table 14-7). -/
def Chip.opTry (c : Chip) (o : LineOp) : Chip :=
  let q := o.port
  let g := c.groupAt q o.addr
  let request := match o.kind with | .read _ => true | .write _ _ => true | _ => false
  let writes := match o.kind with | .write _ _ => true | _ => false
  let wrongSlot := writes && o.slot != 0 && (match c.recordedSlot q g with | some s => s != 0 && s != o.slot | none => false)
  if o.asked || c.opHeld o then c
  else if request && o.slot != 0 && c.poisonedGroup q g then c.finish o errInteg 0
  else if wrongSlot then c.finish o errDenied 0
  else if (o.kind == .rekey || o.kind == .bg) && c.poisonedGroup q g then c.finish o errInteg 0
  else if o.reads && o.got.isNone && !o.ecc then
    if !c.memLink q then c.finish o errLink 0
    else match c.pmpSend q 1 (c.localOf q o.addr) (.data o.id) with
      | some c => c.onOp o.id fun x => { x with asked := true }
      | none => c
  else if o.ecc && (o.slot == 0 || !writes) then c.finish o errEcc 0
  else match if o.counted then c.pathNext o else none with
    | some level =>
      let index := g / 8 ^ level
      let lost := match c.poisonLevel q g with | some lv => decide (level ≤ lv) | none => c.treeState q == 3
      if o.kind == .grp true && lost then
        -- a poisoned node is written anew, and the operation looks again at the next event of its engine (R398)
        c.setNode q level index { data := 0, dirty := true }
      else if !c.memLink q then c.finish o errLink 0
      else match c.pmpSend q 1 (nodeAddr level index) (.node o.id level index) with
        | some c => c.onOp o.id fun x => { x with asked := true }
        | none => c
    | none => if o.ecc then c.finish o errEcc 0 else c.lineDecide o

/-- Every operation goes on as far as it can; `k` bounds the rounds. -/
def Chip.opPump (c : Chip) : Nat → Chip
  | 0 => c
  | k + 1 =>
    let d := c.mem.ops.foldl (fun c o => match c.mem.ops.find? fun x => x.id == o.id with | some o => c.opTry o | none => c) c
    if d.mem.ops == c.mem.ops && d.mem.pmp.length == c.mem.pmp.length && d.mem.crypto == c.mem.crypto then d else d.opPump k

/-! ## The state record (14, R407 to R409) -/

/-- Cached lines of an engine that have changed: port, level, index. -/
def Chip.dirtyLines (c : Chip) (m : Nat) : List (Nat × Nat × Nat) :=
  ((c.crypto m).cache.filter fun kl => kl.2.dirty).map fun kl =>
    (4 * m + kl.1 / 2 ^ 27 / 16, kl.1 / 2 ^ 27 % 16, kl.1 % 2 ^ 27)

/-- A changed line is written back: its version rises, and its tag is formed with the new one (14, R397, R399). -/
def Chip.writeBack (c : Chip) (q level index : Nat) : Chip :=
  match c.node q level index, c.parentEntry q level index with
  | some l, some e =>
    let v := e % 2 ^ 56 + 1
    if v = 2 ^ 56 then c.report (mcOf q) 8
    else match c.nodeTag q level index v l.data with
      | none => c
      | some t =>
        match c.pmpSend q 2 (nodeAddr level index) (.back level index) [storedLine l.data t] with
        | none => c
        | some c => (c.setParent q level index (v + e / 2 ^ 56 * 2 ^ 56)).setNode q level index { l with dirty := false }
  | _, _ => c

/-- The record as the engine stands, with the rekey that its start saves (14, R408). -/
def Chip.recordOf (c : Chip) (m : Nat) : CryptoRec :=
  let x := c.crypto m
  let seq := ((c.mem.recs.filter fun r => r.1 / 2 == m).map fun r => r.2.seq + 1).foldl max 0
  { seq := seq, treeKey := x.treeKey, slots := x.slots,
    regs := (List.range 256).map fun n =>
      (n, c.get MC_KSLOT_STATE (pgMC m 1) n * 2 ^ 30 + c.get MC_KSLOT_GEN (pgMC m 1) n * 2 ^ 16 + c.get MC_KSLOT_RIGHTS (pgMC m 1) n),
    root := x.root, tree := c.get MC_TREESTS_STATE (pgMC m 0), rekey := x.begins.or x.rekey }

/-- A save ends: the rekey that waited for it starts where the record has been written (14, R404, R408). -/
def Chip.saveEnd (c : Chip) (m : Nat) (ok : Bool) : Chip :=
  let x := c.crypto m
  let c := if ok then { c with mem := { c.mem with recs := Store.insert c.mem.recs (2 * m + (c.recordOf m).seq % 2) (c.recordOf m) } }
           else c.report (pgMC m 0) 11
  match ok, x.begins with
  | true, some r =>
    ((c.setCrypto m { x with saving := false, begins := none, rekey := some r }).set MC_KSLOT_STATE (pgMC m 1) 2 r.slot).showRekey m
  | _, _ => c.setCrypto m { x with saving := false, begins := none }

/-- A save goes on: re-encryptions first, then changed lines from the lowest level up, then the record (14,
R408). -/
def Chip.savePump (c : Chip) (m : Nat) : Chip :=
  let x := c.crypto m
  let backs := c.mem.pmp.any fun r => r.port / 4 == m && !r.dead && (match r.use with | .back _ _ => true | _ => false)
  if !x.saving || !x.bg.isEmpty || backs then c
  else
    let ds := c.dirtyLines m
    let low := ds.foldl (fun a d => min a d.2.1) 9
    let now := ds.filter fun d => d.2.1 == low
    if ds.isEmpty then c.saveEnd m true
    else if now.any fun d => !c.memLink d.1 then c.saveEnd m false
    else now.foldl (fun c d => c.writeBack d.1 d.2.1 d.2.2) c

/-- Both engines go on with what they do. -/
def Chip.memPump (c : Chip) : Chip := (((c.opPump 1024).savePump 0).savePump 1).opPump 1024

/-- SAVE, a rekey's start or an ordered power-off begins a save (14, R408). -/
def Chip.saveGo (c : Chip) (m : Nat) (r : Option Rekey) : Chip :=
  let x := c.crypto m
  (c.setCrypto m { x with saving := true, begins := r.or x.begins }).memPump

/-- Domain 76 + m has powered up: the newest valid record is restored (14, R409). -/
def Chip.recordRestore (c : Chip) (m : Nat) : Chip :=
  let rs := (c.mem.recs.filter fun r => r.1 / 2 == m && r.2.valid).map (·.2)
  match rs.foldl (fun (a : Option CryptoRec) r => match a with | some b => if b.seq < r.seq then some r else a | none => some r) none with
  | none => c
  | some r =>
    let mark := ((c.mem.log.lookup m).getD []).getLast?
    let rk := r.rekey.map fun k =>
      let bnd := match mark with | some (s, g, b) => if s = k.slot ∧ g = ((r.regs.lookup k.slot).getD 0) / 2 ^ 16 % 256 ∧ k.first ≤ b ∧ b ≤ k.last then b else k.first | none => k.first
      { k with bnd := bnd, sure := min (k.last + 1) (bnd + 2 ^ 20) }
    let c := c.setCrypto m { treeKey := r.treeKey, slots := r.slots, root := r.root, rekey := rk }
    let p := pgMC m 1
    let c := r.regs.foldl (fun c nv =>
      ((c.set MC_KSLOT_STATE p (nv.2 / 2 ^ 30) nv.1).set MC_KSLOT_GEN p (nv.2 / 2 ^ 16) nv.1).set MC_KSLOT_RIGHTS p nv.2 nv.1) c
    let c := match rk with | some k => c.set MC_KSLOT_STATE p 2 k.slot | none => c
    ((c.set MC_TREESTS_STATE (pgMC m 0) r.tree).setB MC_TREESTS_KEYOK (pgMC m 0) r.treeKey.isSome).showRekey m

/-! ## Requests that arrive (14, R401) -/

/-- A READ or WRITE reaches a memory port; every line is decided for itself. Poisoned data flits of a WRITE are
not written (12, R357). -/
def Chip.memRequest (c : Chip) (a : Arrived) : Chip :=
  let q := 2 * (a.dstNi - 52) + a.bridge
  let up := c.works (mcOf q) && c.accepts (mcOf q) && c.works (pgML q) && c.accepts (pgML q) && c.treeState q != 1
  let c := { c with net := { c.net with arrived := c.net.arrived.map fun (x : Arrived) =>
    if x.ni == a.ni && x.tag == a.tag && x.dstNi == a.dstNi then { x with done := true } else x } }
  let c := c.each (List.range a.req.len) fun c i =>
    let addr := a.req.addr + 64 * i
    if a.bad.contains i && a.req.op == .write then c.lineDone a.dstNi a.ni a.tag i errEcc 0 0
    else if !up then c.lineDone a.dstNi a.ni a.tag i errStopped 0 0
    else
      let kind := match a.req.op, a.req.lines[i]? with
        | .write, some l => LineKind.write l.data l.mask
        | _, _ => LineKind.read a.req.spec
      c.addOp { id := 0, kind := kind, ni := a.ni, tag := a.tag, dst := a.dstNi, line := i, addr := addr, port := q, slot := a.req.kidx }
  (c.grants a.dstNi 16).memPump

/-! ## PMP answers (14, R379 to R382, R398) -/

/-- A PMP packet is discarded (14, R379). -/
def Chip.pmpProto (c : Chip) (q : Nat) : Chip := c.count ML_ERRCNT_PROTO (pgML q)

/-- The outstanding request of a tag. -/
def Chip.pmpOf (c : Chip) (q tag : Nat) : Option PmpReq := c.mem.pmp.find? fun r => r.port == q && r.tag == tag

/-- A PTAG is free again. -/
def Chip.pmpFree (c : Chip) (q tag : Nat) : Chip :=
  { c with mem := { c.mem with pmp := c.mem.pmp.filter fun r => !(r.port == q && r.tag == tag) } }

/-- The data line of an operation has been read (14, R385). -/
def Chip.gotData (c : Chip) (q id : Nat) (failed : Bool) (w : BitVec 576) : Chip :=
  let p := mcOf q
  match if failed then none else lineDecode w with
  | none => (c.report p 1).onOp id fun o => { o with asked := false, ecc := true }
  | some (x, t, fixed) =>
    let c := if fixed then (c.count ML_ERRCNT_CE (pgML q)).report p 0 else c
    c.onOp id fun o => { o with asked := false, got := some (x, t) }

/-- A counter line or node has been read for an operation (14, R397, R398, R403). -/
def Chip.gotNode (c : Chip) (q id level index : Nat) (failed : Bool) (w : BitVec 576) : Chip :=
  let p := mcOf q
  let c := c.onOp id fun o => { o with asked := false }
  if (c.node q level index).isSome then c
  else
    let dec := if failed then none else lineDecode w
    let ver := (c.parentEntry q level index).map (· % 2 ^ 56)
    let o := c.mem.ops.find? fun o => o.id == id
    let after := match o with | some o => o.fail | none => false
    let good := match dec, ver with
      | some (x, t, _), some v => !after && c.nodeTag q level index v x == some t
      | _, _ => false
    let raw := match dec with | some (x, _, _) => x | none => BitVec.ofNat 512 w.toNat
    if good then
      let fixed := match dec with | some (_, _, f) => f | none => false
      let c := if fixed then (c.count ML_ERRCNT_CE (pgML q)).report p 4 else c
      c.setNode q level index { data := raw, dirty := fixed }
    else
      let c := if after then c else c.poison q level index
      match o with
      | some o =>
        match o.kind with
        | .read true => c.onOp id fun x => { x with fail := true, raw := x.raw ++ [(level, raw)] }
        | .read false => c.finish o errInteg 0
        | .write _ _ => if o.ecc then c.finish o errEcc 0 else c.finish o errInteg 0
        | .grp true => c
        | _ => c.finish o errInteg 0
      | none => c

/-- The counter lines and nodes that the size of a port requires, by level (14, R395, R400). -/
def Chip.nodesAt (c : Chip) (q level : Nat) : Nat :=
  let g := match c.mem.maps.lookup q with | some m => m.size * 2 ^ 18 | none => 0
  (g + 8 ^ level - 1) / 8 ^ level

/-- A tree initialisation writes its next lines, or is done (14, R400). -/
def Chip.initNext (c : Chip) (q level index : Nat) : Chip :=
  let (level, index) := if c.nodesAt q level ≤ index then (level + 1, 0) else (level, index)
  if 8 < level then
    let x := c.crypto (q / 4)
    (c.setCrypto (q / 4) { x with root := Store.drop (fun k => k / 8 == q % 4) x.root }).setTree q 2
  else
    let n := min 64 (c.nodesAt q level - index)
    let lines := (List.range n).map fun i => storedLine 0 ((c.nodeTag q level (index + i) 0 0).getD 0)
    if !c.memLink q then c.setTree q 0
    else (c.pmpSend q 2 (nodeAddr level index) (.init level (index + n)) lines).getD c

/-- INIT of a port (14, R400). -/
def Chip.treeInit (c : Chip) (q : Nat) : Chip :=
  let x := c.crypto (q / 4)
  if x.treeKey.isNone || !c.run (pgML q) || (c.mem.maps.lookup q).isNone then c.wign (mcOf q)
  else if c.treeState q = 1 then c
  else
    let c := c.setCrypto (q / 4) { x with cache := Store.drop (fun k => k / 2 ^ 27 / 16 == q % 4) x.cache, bg := x.bg.filter fun b => b.port != q }
    (c.setTree q 1).initNext q 0 0

/-- A PMP request ends without its answer: with ERR_LINK on its lines (14, R382). -/
def Chip.pmpLink (c : Chip) (r : PmpReq) : Chip :=
  match r.use with
  | .data id | .store id | .node id _ _ =>
    (match c.mem.ops.find? fun (o : LineOp) => o.id == id with | some o => c.finish { o with asked := false } errLink 0 | none => c)
  | .back level index =>
    let c := match c.node r.port level index with | some l => c.setNode r.port level index { l with dirty := true } | none => c
    if (c.crypto (r.port / 4)).saving then c.saveEnd (r.port / 4) false else c
  | .init _ _ => c.setTree r.port 0
  | .info => c

/-- RDATA (14, R380). -/
def Chip.pmpRdata (c : Chip) (q tag fail : Nat) (lines : List (BitVec 576)) : Chip :=
  match c.pmpOf q tag with
  | none => c.pmpProto q
  | some r =>
    if r.type != 1 then c.pmpProto q
    else if r.dead then (if r.tillUp then c.pmpProto q else c.pmpFree q tag)
    else
      let c := c.pmpFree q tag
      let w := lines.headD 0
      (match r.use with
        | .data id => c.gotData q id (fail.testBit 0) w
        | .node id level index => c.gotNode q id level index (fail.testBit 0) w
        | _ => c).memPump

/-- WACK (14, R380, R382). -/
def Chip.pmpWack (c : Chip) (q tag fail : Nat) : Chip :=
  match c.pmpOf q tag with
  | none => c.pmpProto q
  | some r =>
    if r.type != 2 then c.pmpProto q
    else if r.dead then (if r.tillUp then c.pmpProto q else c.pmpFree q tag)
    else
      let c := c.pmpFree q tag
      let bad := fail % 2 ^ r.count != 0
      (match r.use with
        | .store id =>
          (match c.mem.ops.find? fun (o : LineOp) => o.id == id with
            | some o => (c.reportIf (bad && o.dst != 0) (mcOf q) 1).finish o (if bad then errEcc else 0) 0
            | none => c)
        | .back _ _ => if bad && (c.crypto (q / 4)).saving then c.saveEnd (q / 4) false else c
        | .init level index => c.initNext q level index
        | _ => c).memPump

/-- The port asks the expander what it provides (14, R381). -/
def Chip.infoAsk (c : Chip) (q : Nat) : Chip :=
  if c.mem.starting.contains q && c.memLink q && !c.mem.pmp.any fun r => r.port == q && r.use == .info && !r.dead then
    (c.pmpSend q 5 0 .info).getD c
  else c

/-- A PMP request is not answered in time (14, R382). -/
def Chip.pmpTimeout (c : Chip) (q tag : Nat) : Chip :=
  match c.pmpOf q tag with
  | none => c
  | some r =>
    if r.dead || !c.stepsRun then c
    else
      let c := { c with mem := { c.mem with pmp := c.mem.pmp.map fun (x : PmpReq) => if x.port == q && x.tag == tag then { x with dead := true } else x } }
      (((c.report (pgML q) 1).pmpLink r).infoAsk q).memPump

/-- The link port of a memory port leaves link-up (14, R382). -/
def Chip.memLinkLost (c : Chip) (q : Nat) : Chip :=
  let rs := c.mem.pmp.filter fun r => r.port == q && !r.dead
  let c := { c with mem := { c.mem with pmp := c.mem.pmp.map fun (x : PmpReq) => if x.port == q && !x.dead then { x with dead := true, tillUp := true } else x } }
  let c := c.reportIf (c.works (pgML q) && c.stepsRun) (pgML q) 0
  (rs.foldl (fun (c : Chip) r => c.pmpLink r) c).memPump

/-- The link port of a memory port is in link-up again: tags held are free (14, R382). -/
def Chip.memLinkUp (c : Chip) (q : Nat) : Chip :=
  ({ c with mem := { c.mem with pmp := c.mem.pmp.filter fun r => !(r.port == q && r.tillUp) } }).infoAsk q

/-- The ML page would start: its map is judged, and INFOREQ is sent (14, R376, R381). -/
def Chip.mlStart (c : Chip) (q : Nat) : Chip :=
  let p := pgML q
  let w := c.get ML_CTL_WAYS p + 1
  if w ≤ c.get ML_CTL_POS p || c.get ML_BASE_GIB p % (w * (c.get ML_SIZE_GIB p + 1)) != 0 then
    (c.setB PG_CTL_RUN p false).setB ML_STS_MAPERR p true
  else ({ c with mem := { c.mem with starting := c.mem.starting ++ [q] } }).infoAsk q

/-- INFO (14, R381, R376). -/
def Chip.pmpInfo (c : Chip) (q tag cap : Nat) (meta_ : Bool) : Chip :=
  match c.pmpOf q tag with
  | none => c.pmpProto q
  | some r =>
    if r.type != 5 then c.pmpProto q
    else if r.dead then (if r.tillUp then c.pmpProto q else c.pmpFree q tag)
    else
      let c := c.pmpFree q tag
      let p := pgML q
      if !c.mem.starting.contains q then c
      else
        let c := { c with mem := { c.mem with starting := c.mem.starting.filter (· != q) } }
        if c.get ML_SIZE_GIB p ≤ cap && meta_ then
          let map : PortMap := { base := c.get ML_BASE_GIB p, size := c.get ML_SIZE_GIB p + 1, ways := c.get ML_CTL_WAYS p + 1, pos := c.get ML_CTL_POS p }
          let ms := Store.erase c.mem.maps q
          ({ c with mem := { c.mem with maps := if c.bit ML_CTL_MAPEN p then Store.insert ms q map else ms } }).setB PG_STS_RUNNING p true
        else ((c.setB PG_CTL_RUN p false).setB ML_STS_CAPERR p true).report p 2

/-- Operations of requests at the ports of a page end with ERR_STOPPED (01, R46). -/
def Chip.memStop (c : Chip) (qs : List Nat) : Chip :=
  let os := c.mem.ops.filter fun o => qs.contains o.port
  let c := os.foldl (fun c o => match o.kind with | .read _ | .write _ _ => c.finish o errStopped 0 | _ => c.endOp o.id) c
  let c := { c with mem := { c.mem with starting := c.mem.starting.filter fun q => !qs.contains q,
                                        pmp := c.mem.pmp.map fun (r : PmpReq) => if qs.contains r.port then { r with dead := true } else r } }
  qs.foldl (fun c q => if c.treeState q = 1 then c.setTree q 0 else c) c

/-- No request is in progress at the ports. -/
def Chip.memQuiet (c : Chip) (qs : List Nat) : Bool :=
  !(c.mem.ops.any fun o => qs.contains o.port) && !(qs.any fun q => c.mem.starting.contains q || c.treeState q == 1)

/-- Domain 76 + m is off: its engine and its ports hold nothing (14, R377; 01, R31). -/
def Chip.memLose (c : Chip) (m : Nat) : Chip :=
  { c with mem := { c.mem with ops := c.mem.ops.filter fun o => o.port / 4 != m,
                               pmp := c.mem.pmp.filter fun r => r.port / 4 != m,
                               maps := c.mem.maps.filter fun x => x.1 / 4 != m,
                               starting := c.mem.starting.filter fun q => q / 4 != m,
                               crypto := Store.put {} c.mem.crypto m {} } }

/-! ## Key commands, rekey and votes (14, R387, R388, R393 to R395, R397, R404, R405) -/

/-- The staged key. -/
def Chip.stagedKey (c : Chip) (m : Nat) : BitVec 256 :=
  BitVec.ofNat 256 ((List.range 8).foldl (fun a i => a + c.get MC_KDATA_KEY (pgMC m 0) i * 2 ^ (32 * i)) 0)

/-- A key command ends: its staging registers hold 0 (14, R387). -/
def Chip.keyDone (c : Chip) (m err : Nat) : Chip :=
  (c.each (List.range 8) fun c i => c.set MC_KDATA_KEY (pgMC m 0) 0 i).set MC_KCMD_ERR (pgMC m 0) err

/-- Whether a command on a slot is refused: 2 for slot 0, 1 for a slot in another state than it needs (14, R387). -/
def Chip.slotErr (c : Chip) (m n : Nat) (need : Option Nat) : Nat :=
  let st := c.get MC_KSLOT_STATE (pgMC m 1) n
  if n = 0 then 2 else if st = 2 then 1 else match need with | some v => if st = v then 0 else 1 | none => 0

/-- LOAD. -/
def Chip.keyLoad (c : Chip) (m n : Nat) : Chip :=
  let e := c.slotErr m n (some 0)
  if e ≠ 0 then c.keyDone m e
  else
    let x := c.crypto m
    ((c.setCrypto m { x with slots := Store.put {} x.slots n { key := c.stagedKey m } }).set MC_KSLOT_STATE (pgMC m 1) 1 n).keyDone m 0

/-- NEWKEY. -/
def Chip.keyNew (c : Chip) (m n : Nat) : Chip :=
  let e := c.slotErr m n (some 1)
  if e ≠ 0 then c.keyDone m e
  else
    let x := c.crypto m
    (c.setCrypto m { x with slots := Store.put {} x.slots n { x.slot n with new := some (c.stagedKey m) } }).keyDone m 0

/-- CLEAR. -/
def Chip.keyClear (c : Chip) (m n : Nat) : Chip :=
  let e := c.slotErr m n none
  if e ≠ 0 then c.keyDone m e
  else
    let x := c.crypto m
    ((c.setCrypto m { x with slots := Store.erase x.slots n }).set MC_KSLOT_STATE (pgMC m 1) 0 n).keyDone m 0

/-- TREEKEY. -/
def Chip.keyTree (c : Chip) (m : Nat) : Chip :=
  ((c.setCrypto m { c.crypto m with treeKey := some (c.stagedKey m) }).setB MC_TREESTS_KEYOK (pgMC m 0) true).keyDone m 0

/-- The range of MC_RKSTART and MC_RKLEN: first and last byte. -/
def Chip.rkRange (c : Chip) (m : Nat) : Nat × Nat :=
  let p := pgMC m 0
  let a := c.get MC_RKSTARTH_ADDR p * 2 ^ 32 + c.get MC_RKSTARTL_ADDR p * 4096
  (a, a + 4096 * (c.get MC_RKLEN_GROUPS p + 1) - 1)

/-- GRPFREE or GRPINIT (14, R394, R398, MC_KCMD). -/
def Chip.keyGroups (c : Chip) (m : Nat) (init : Bool) : Chip :=
  let (a, b) := c.rkRange m
  let busy := match (c.crypto m).rekey with | some r => decide (a ≤ r.last ∧ r.first ≤ b) | none => false
  if 2 ^ 42 ≤ b then c.keyDone m 3
  else if busy then c.keyDone m 4
  else
    let c := (c.setCrypto m { c.crypto m with grp := some { init := init, next := a, last := b } }).setB MC_KCMD_BUSY (pgMC m 0) true
    ((c.keyDone m 0).grpNext m (2 ^ 30)).memPump

/-- A write of MC_RKCTL.GO (14, R404). -/
def Chip.rekeyGo (c : Chip) (m n : Nat) : Chip :=
  let x := c.crypto m
  let (a, b) := c.rkRange m
  if x.rekey.isSome || x.begins.isSome || n = 0 || c.get MC_KSLOT_STATE (pgMC m 1) n != 1 || (x.slot n).new.isNone || 2 ^ 42 ≤ b then
    c.wign (pgMC m 0)
  else c.saveGo m (some { slot := n, first := a, last := b, bnd := a })

/-- The rekey engine takes the line at its boundary (14, R405). -/
def Chip.rekeyLine (c : Chip) (m : Nat) : Chip :=
  let up := c.works (pgMC m 0) && c.stepsRun
  match (c.crypto m).rekey with
  | none => c
  | some r =>
    if !up || (c.mem.ops.any fun o => o.kind == .rekey && o.port / 4 == m) then c
    else match c.portOf r.bnd with
      | some q =>
        if q / 4 = m then (c.addOp { id := 0, kind := .rekey, addr := r.bnd, port := q, slot := r.slot }).memPump
        else c.rekeyTo m r ((r.bnd / 4096 + 1) * 4096)
      | none => c.rekeyTo m r ((r.bnd / 4096 + 1) * 4096)

/-- One line of the oldest group under re-encryption is taken (14, R393). -/
def Chip.bgLine (c : Chip) (m : Nat) : Chip :=
  match (c.crypto m).bg with
  | [] => c
  | b :: _ =>
    match b.left.head? with
    | none => c
    | some i =>
      if !c.works (pgMC m 0) || !c.stepsRun || (c.mem.ops.any fun o => o.kind == .bg && o.port / 4 == m) then c
      else (c.addOp { id := 0, kind := .bg, addr := c.deviceOf b.port (4096 * b.group + 64 * i), port := b.port, slot := b.slot }).memPump

/-- A write of rights (14, R388). -/
def Chip.keyRights (c : Chip) (m n v : Nat) : Chip := c.set MC_KSLOT_RIGHTS (pgMC m 1) v n

/-- A poison entry is cleared by a write of 1 to its VALID (14, R398). -/
def Chip.poisonClear (c : Chip) (m n : Nat) : Chip := c.setB MC_PSNA_VALID (pgMC m 0) false n

/-- A copy of the root of a port disagrees at a vote; `failed` where the vote gives no value (14, R397, R398). -/
def Chip.rootVote (c : Chip) (q : Nat) (failed : Bool) : Chip :=
  if !c.domOn (76 + q / 4) || !c.stepsRun then c
  else if failed then (c.setTree q 3).report (mcOf q) 7 else c.report (mcOf q) 6

end Sys2Proof.Machine
end

