-- ==== Sys2Proof/Machine/Link.lean ====
section
/-! DEFINITION. Quads, lanes and their rings, and the Phitil Link ports (15, R411 to R435). -/
namespace Sys2Proof.Machine

/-! ## Lanes -/

/-- A lane beside its registers. -/
def Chip.laneSt (c : Chip) (l : Nat) : LaneSt := Store.get {} c.link.lane l

/-- A lane takes a state. -/
def Chip.setLane (c : Chip) (l : Nat) (x : LaneSt) : Chip :=
  { c with link := { c.link with lane := Store.put {} c.link.lane l x } }

/-- The page of a lane (15, R411). -/
def lanePg (l : Nat) : Nat := pgLN (l / 4)

/-- A field of a lane. -/
def Chip.laneGet (c : Chip) (F : Fld) (l : Nat) : Nat := c.get F (lanePg l) (l % 4)

/-- A field of a lane takes a value. -/
def Chip.laneSet (c : Chip) (F : Fld) (l v : Nat) : Chip := c.set F (lanePg l) v (l % 4)

/-- PCS lock of a lane. -/
def Chip.laneLock (c : Chip) (l : Nat) : Bool := c.laneGet LN_LSTS_LOCK l == 1

/-- The lane is off, or in Lodge (15, Table 15-7). -/
def Chip.laneDark (c : Chip) (l : Nat) : Bool := c.laneGet LN_LCFG_MODE l == 0 || c.laneGet LN_LPWR_STATE l == 2

/-- The lanes of a quad. -/
def quadLanes (q : Nat) : List Nat := (List.range 4).map (4 * q + ·)

/-- The lane's page works, its quad loop is locked, and the receiver is on (15, R412, R425, Table 15-7). -/
def Chip.laneWorks (c : Chip) (l : Nat) : Bool :=
  c.works (lanePg l) && c.domOn (domOf (lanePg l)) && c.stepsRun && c.bit LN_QSTS_LOCKED (lanePg l) &&
    !c.laneDark l && !(c.laneSt l).idle && !c.gated (lanePg l)

/-- REFCLK in units of 0.25 MHz (16, Table 16-2). -/
def Chip.refQuarter (c : Chip) : Nat :=
  match c.get CK_REFCFG_FREQ pgCK with
  | 0 => 400
  | 1 => 500
  | 2 => 625
  | _ => 0

/-! ## Rings (R419 to R422) -/

/-- Lines of a ring (R419). -/
def Chip.ringLines (c : Chip) (l : Nat) (tx : Bool) : Nat :=
  64 * (c.laneGet (if tx then LN_TXSIZE_SIZE else LN_RXSIZE_SIZE) l + 1)

/-- The base of a ring. -/
def Chip.ringAt (c : Chip) (l : Nat) (tx : Bool) : Nat :=
  c.laneGet (if tx then LN_TXBASEH_ADDR else LN_RXBASEH_ADDR) l * 2 ^ 32 +
    c.laneGet (if tx then LN_TXBASEL_ADDR else LN_RXBASEL_ADDR) l * 4096

/-- A ring is refused, or stopped by an error (R419, R421). -/
def Chip.ringFail (c : Chip) (l : Nat) (tx : Bool) (code : Nat) : Chip :=
  let c := ((c.laneSet (if tx then LN_RINGCTL_TXEN else LN_RINGCTL_RXEN) l 0).laneSet LN_RINGCTL_ERR l code).report (lanePg l) 4
  let x := c.laneSt l
  c.setLane l (if tx then { x with tx := [], txGen := x.txGen + 1 } else { x with rx := [], rxGen := x.rxGen + 1 })

/-- The port, if any, that a lane's rings serve: it is the base lane of a message port that runs (R435). -/
def Chip.portSt (c : Chip) (p : Nat) : PortSt := Store.get {} c.link.port p

/-- A port takes a state. -/
def Chip.setPort (c : Chip) (p : Nat) (x : PortSt) : Chip :=
  { c with link := { c.link with port := Store.put {} c.link.port p x } }

/-- LN_PSTS.STATE: 0 DOWN, 1 LOCK, 2 ANNOUNCE, 3 UP. -/
def Chip.portState (c : Chip) (p : Nat) : Nat := c.get LN_PSTS_STATE (pgLN p)

/-- LN_PCFG.USE. -/
def Chip.portUse (c : Chip) (p : Nat) : Nat := c.get LN_PCFG_USE (pgLN p)

/-- The message port whose base lane is `l`. -/
def Chip.messagePort (c : Chip) (l : Nat) : Option Nat :=
  (List.range 16).find? fun p => (c.portSt p).started && c.portUse p == 3 && c.get LN_PCFG_BASE (pgLN p) == l

/-- Valid K characters of 8b/10b: K28.0 to K28.7, K23.7, K27.7, K29.7, K30.7 (R422; 802.3 Clause 36). -/
def validK (b : Nat) : Bool := b % 32 == 28 || b == 0xF7 || b == 0xFB || b == 0xFD || b == 0xFE

/-- Block types that Clause 49 defines (R422). -/
def validBlock (b : Nat) : Bool :=
  [0x1E, 0x2D, 0x33, 0x66, 0x55, 0x78, 0x4B, 0x87, 0x99, 0xAA, 0xB4, 0xCC, 0xD2, 0xE1, 0xFF].contains b

/-- What a TX line is sent as, and whether something of it was replaced (R422). -/
def txLine (mode : Nat) (d : BitVec 512) : BitVec 512 × Bool :=
  let v := d.toNat
  if mode = 2 then
    (List.range 32).foldl (fun (a : BitVec 512 × Bool) i =>
      let ch := bitsOf v (16 * i + 9) (16 * i)
      if ch.testBit 8 && !validK (ch % 256) then (BitVec.ofNat 512 (setBits a.1.toNat (16 * i + 7) (16 * i) 0xBC), true) else a) (d, false)
  else if mode = 3 then
    (List.range 7).foldl (fun (a : BitVec 512 × Bool) i =>
      let sync := bitsOf v (448 + 2 * i + 1) (448 + 2 * i)
      if sync == 2 && !validBlock (bitsOf v (64 * i + 7) (64 * i)) then
        (BitVec.ofNat 512 (setBits a.1.toNat (64 * i + 63) (64 * i) 0x1E), true) else a) (d, false)
  else (d, false)

/-- What a received line is written as: reserved bits 0, and the loss of lock before it marked (Table 15-6). -/
def rxLine (mode : Nat) (mark : Bool) (d : BitVec 512) : BitVec 512 :=
  let v := d.toNat
  if mode = 2 then BitVec.ofNat 512 ((List.range 32).foldl (fun a i => setBits a (16 * i + 15) (16 * i + 10) 0) v)
  else if mode = 3 then BitVec.ofNat 512 (v % 2 ^ 462 + b2n mark * 2 ^ 464)
  else d

/-- The lane reads TX lines as far as it may: 8 ahead of transmission (R421). -/
def Chip.txPump (c : Chip) (l : Nat) : Nat → Chip
  | 0 => c
  | k + 1 =>
    let x := c.laneSt l
    let mode := c.laneGet LN_LCFG_MODE l
    let ahead := x.tx.length + (match c.messagePort l with | some p => (c.portSt p).queue.length | none => 0)
    let goes := c.laneWorks l && c.accepts (lanePg l) && c.laneGet LN_RINGCTL_TXEN l == 1 &&
      (match c.messagePort l with | some p => c.portState p == 3 | none => 2 ≤ mode)
    let n := c.ringLines l true
    let next := (c.laneGet LN_TXRP_PTR l + x.tx.length) % n
    if goes && decide (ahead < 8) && next != c.laneGet LN_TXWP_PTR l && decide (x.tx.length + 1 ≤ n) then
      ((c.ask { asker := .ringTx l next x.txGen, op := .read, addr := c.ringAt l true + 64 * next }).setLane l
        { x with tx := x.tx ++ [(next, none)] }).txPump l k
    else c

/-- Lines that have come are sent in order: on the lane, or as the flits of a message port (R421, R435). -/
def Chip.txSend (c : Chip) (l : Nat) : Nat → Chip
  | 0 => c
  | k + 1 =>
    let x := c.laneSt l
    match x.tx with
    | (slot, some d) :: rest =>
      let (d', bad) := txLine (c.laneGet LN_LCFG_MODE l) d
      let c := c.setLane l { x with tx := rest, sent := d' }
      let c := if bad then c.laneSet LN_LSTS_TXBADK l 1 else c
      let c := match c.messagePort l with
        | some p => let y := c.portSt p; c.setPort p { y with queue := y.queue ++ [d'] }
        | none => c
      (c.laneSet LN_TXRP_PTR l ((slot + 1) % c.ringLines l true)).txSend l k
    | _ => c

/-- The answer to a read of a TX line (R421). -/
def Chip.txAnswer (c : Chip) (l slot gen code : Nat) (data : BitVec 512) : Chip :=
  let x := c.laneSt l
  if gen ≠ x.txGen then c
  else if code ≠ 0 then c.ringFail l true code
  else
    let c := c.setLane l { x with tx := x.tx.map fun t => if t.1 == slot && t.2.isNone then (slot, some data) else t }
    (c.txSend l 8).txPump l 8

/-- RXWP advances in line order (R421). -/
def Chip.rxAdvance (c : Chip) (l : Nat) : Nat → Chip
  | 0 => c
  | k + 1 =>
    let x := c.laneSt l
    match x.rx with
    | (slot, true) :: rest => ((c.setLane l { x with rx := rest }).laneSet LN_RXWP_PTR l ((slot + 1) % c.ringLines l false)).rxAdvance l k
    | _ => c

/-- The acknowledgement of an RX line (R421). -/
def Chip.rxAnswer (c : Chip) (l slot gen code : Nat) : Chip :=
  let x := c.laneSt l
  if gen ≠ x.rxGen then c
  else if code ≠ 0 then c.ringFail l false code
  else (c.setLane l { x with rx := x.rx.map fun t => if t.1 == slot then (slot, true) else t }).rxAdvance l 8

/-- The slot that the next received line takes (R421). -/
def Chip.rxSlot (c : Chip) (l : Nat) : Nat := (c.laneGet LN_RXWP_PTR l + (c.laneSt l).rx.length) % c.ringLines l false

/-- Slots that lines may still take (R421, R435). -/
def Chip.rxFree (c : Chip) (l : Nat) : Nat :=
  let n := c.ringLines l false
  if c.laneGet LN_RINGCTL_RXEN l = 1 then (c.laneGet LN_RXRP_PTR l + n - 1 - c.rxSlot l) % n else 0

/-- A line is written into the RX ring (R421). -/
def Chip.rxWrite (c : Chip) (l : Nat) (d : BitVec 512) : Chip :=
  let slot := c.rxSlot l
  let x := c.laneSt l
  (c.ask { asker := .ringRx l slot x.rxGen, op := .write, addr := c.ringAt l false + 64 * slot,
           lines := [{ data := d, mask := BitVec.allOnes 64 }] }).setLane l { x with rx := x.rx ++ [(slot, false)] }

/-- A stream lane receives a line (R421 to R423): it is written into the ring, or dropped. With RXEN = 0 it goes
nowhere. -/
def Chip.rxLineIn (c : Chip) (l : Nat) (d : BitVec 512) : Chip :=
  let x := c.laneSt l
  let mode := c.laneGet LN_LCFG_MODE l
  if !c.laneWorks l || !c.laneLock l || mode < 2 || !c.accepts (lanePg l) then c
  else
    let c := c.setLane l { x with mark := false }
    if c.laneGet LN_RINGCTL_RXEN l = 0 then c
    else if c.rxFree l = 0 || 8 ≤ x.rx.length then
      let c := c.laneSet LN_RXDROP_COUNT l (satInc (2 ^ 32 - 1) (c.laneGet LN_RXDROP_COUNT l))
      if x.ovf then c else (c.setLane l { c.laneSt l with ovf := true }).report (lanePg l) 3
    else c.rxWrite l (rxLine mode x.mark d)

/-- RXEN or TXEN goes from 0 to 1 (R419). -/
def Chip.ringEnable (c : Chip) (l : Nat) (tx : Bool) : Chip :=
  if c.laneGet (if tx then LN_RINGCTL_TXEN else LN_RINGCTL_RXEN) l = 1 then c
  else
    let code := c.bufferCheck 58 (c.ringAt l tx) (64 * c.ringLines l tx)
    if code ≠ 0 then c.ringFail l tx code
    else
      let x := c.laneSt l
      if tx then
        (((c.laneSet LN_RINGCTL_TXEN l 1).laneSet LN_TXRP_PTR l 0).laneSet LN_TXWP_PTR l 0).setLane l { x with tx := [], txGen := x.txGen + 1 }
      else
        (((c.laneSet LN_RINGCTL_RXEN l 1).laneSet LN_RXWP_PTR l 0).laneSet LN_RXRP_PTR l 0).setLane l { x with rx := [], rxGen := x.rxGen + 1 }

/-- RXEN or TXEN is written as 0: no further access is made; those outstanding complete. -/
def Chip.ringDisable (c : Chip) (l : Nat) (tx : Bool) : Chip := c.laneSet (if tx then LN_RINGCTL_TXEN else LN_RINGCTL_RXEN) l 0

/-! ## Ports (R426 to R435) -/

/-- The configured lanes of a port (R426). -/
def Chip.portLanes (c : Chip) (p : Nat) : List Nat :=
  (List.range (2 ^ c.get LN_PCFG_WIDTH (pgLN p))).map (c.get LN_PCFG_BASE (pgLN p) + ·)

/-- The lanes in use. -/
def Chip.portNow (c : Chip) (p : Nat) : List Nat :=
  (List.range (2 ^ c.get LN_PSTS_CURW (pgLN p))).map (c.get LN_PSTS_CURBASE (pgLN p) + ·)

/-- The configuration of a port that would start (R426). -/
def Chip.portConfig (c : Chip) (p : Nat) : Bool :=
  let w := 2 ^ c.get LN_PCFG_WIDTH (pgLN p)
  let b := c.get LN_PCFG_BASE (pgLN p)
  let ls := c.portLanes p
  let rate := fun l => c.get LN_QCTL_MH (lanePg l) * 16 / 2 ^ c.laneGet LN_LCFG_OD l
  b % w == 0 && (b + w - 1) / 16 == b / 16 &&
    (ls.all fun l => c.laneGet LN_LCFG_MODE l == 1 && rate l == rate b) &&
    !((List.range 16).any fun p' => p' != p && c.bit LN_PCTL_EN (pgLN p') && (c.portLanes p').any fun l => ls.contains l)

/-- The pages whose RUN a port needs (R426). -/
def Chip.portRuns (c : Chip) (p : Nat) : Bool :=
  c.running (pgLN p) && c.run (pgLN p) && c.domOn (domOf (pgLN p)) && c.stepsRun &&
    (c.portLanes p).all fun l => c.running (lanePg l) && c.run (lanePg l) && c.domOn (domOf (lanePg l))

/-- The memory ports that use a link port (14). -/
def Chip.memUsers (c : Chip) (p : Nat) : List Nat := (List.range 8).filter fun q => c.get ML_CTL_LPORT (pgML q) == p

/-- From DOWN to LOCK when every lane holds block lock (R430). -/
def Chip.portLook (c : Chip) (p : Nat) : Chip :=
  let pg := pgLN p
  if c.portState p = 0 ∧ (c.portSt p).started ∧ c.bit LN_PCTL_EN pg ∧ c.portRuns p ∧ ((c.portLanes p).all c.laneLock) ∧ c.portUse p ≠ 0 then
    ((c.set LN_PSTS_STATE pg 1).set LN_PSTS_CURBASE pg (c.get LN_PCFG_BASE pg)).set LN_PSTS_CURW pg (c.get LN_PCFG_WIDTH pg)
  else c

/-- Payloads that wait outside a port which is not UP go nowhere. -/
def Chip.portDrop (c : Chip) (p : Nat) : Chip :=
  { c with mem := { c.mem with out := c.mem.out.filter fun x => x.1 != p },
           eng := { c.eng with lsOut := c.eng.lsOut.filter fun x => x.1 != p } }

/-- What a port's going out of UP means to its consumer (R430, R435; 14, R382; 05, R165). -/
def Chip.portLeaves (c : Chip) (p : Nat) : Chip :=
  let c := c.reportIf c.stepsRun (pgLN p) 5
  let x := c.portSt p
  let use := c.portUse p
  let c := c.portDrop p
  if use = 2 then
    (c.memUsers p).foldl (fun c q => c.memLinkLost q) (c.setPort p { x with queue := [], sent := [], part := [], inbox := [] })
  else
    let c := c.setPort p { x with queue := [], sent := [], part := [] }
    if use = 1 ∧ (c.lsLinks.any fun m => c.lsPort m == p) ∧ c.stepsRun then (c.lsFail 3).portDrop p else c

/-- The port returns to DOWN (R430); it begins again at once where its lanes hold block lock. -/
def Chip.portDown (c : Chip) (p : Nat) : Chip :=
  let up := c.portState p == 3
  let c := c.set LN_PSTS_STATE (pgLN p) 0
  let x := c.portSt p
  let c := c.setPort p { x with ann := 0, gliding := false, farGlide := false, shedding := false, replays := 0, ctype := 0 }
  let c := if up then c.portLeaves p else c
  c.portLook p

/-- The port reaches UP: SEQ starts at 0 in each direction (R430). -/
def Chip.portUp (c : Chip) (p limit : Nat) : Chip :=
  let c := (c.set LN_PSTS_STATE (pgLN p) 3).portDrop p
  let c := c.setPort p { started := true, limit := limit, inbox := if c.portUse p = 2 then [] else (c.portSt p).inbox }
  if c.portUse p = 2 then (c.memUsers p).foldl (fun c q => c.memLinkUp q) c
  else if c.portUse p = 3 then c.txPump (c.get LN_PCFG_BASE (pgLN p)) 8 else c

/-- The port's lanes come out of Glide (R432). -/
def Chip.portWake (c : Chip) (p : Nat) : Chip :=
  let x := c.portSt p
  if x.gliding then
    ((c.portNow p).foldl (fun c l => if c.laneGet LN_LPWR_STATE l = 1 then c.laneSet LN_LPWR_STATE l 0 else c) c).setPort p
      { x with gliding := false, ctype := 0 }
  else c

/-- A sender sends flit s only while s is at most LIMIT and fewer than 128 flits are unacknowledged (R431). -/
def PortSt.maySend (x : PortSt) : Bool := decide ((x.limit + 256 - x.seq) % 256 < 128) && decide (x.sent.length < 128)

/-- Flits that wait are sent, as far as credit goes (R431). -/
def Chip.portSend (c : Chip) (p : Nat) : Nat → Chip
  | 0 => c
  | k + 1 =>
    let x := c.portSt p
    match x.queue with
    | d :: rest =>
      if x.maySend && !x.shedding then
        let c := c.portWake p
        let x := c.portSt p
        (c.setPort p { x with queue := rest, sent := x.sent ++ [(x.seq, d)], seq := (x.seq + 1) % 256 }).portSend p k
      else c
    | [] => c

/-- What waits for a port is queued and sent as far as it may be (R431, R432, R435). -/
def Chip.portPump (c : Chip) (p : Nat) : Chip :=
  if c.portState p ≠ 3 then c.portDrop p
  else
    let mine := (c.mem.out.filter fun x => x.1 == p).map (·.2) ++ (c.eng.lsOut.filter fun x => x.1 == p).map (·.2)
    let c := c.portDrop p
    let x := c.portSt p
    let c := (c.setPort p { x with queue := x.queue ++ mine }).portSend p (x.queue.length + mine.length)
    if c.portUse p = 3 then c.txPump (c.get LN_PCFG_BASE (pgLN p)) 8 else c

/-- A port with EN and RUN starts, checking its configuration (R426). -/
def Chip.portStart (c : Chip) (p : Nat) : Chip :=
  let pg := pgLN p
  if !(c.bit LN_PCTL_EN pg && c.running pg && c.accepts pg) || (c.portSt p).started || c.portUse p = 0 then c
  else if !c.portConfig p then c.setB LN_PSTS_CFGERR pg true
  else (c.setPort p { c.portSt p with started := true }).portLook p

/-- LN_PCTL.EN is written as 1 (R426). -/
def Chip.portEnable (c : Chip) (p : Nat) : Chip := (c.setB LN_PCTL_EN (pgLN p) true).portStart p

/-- LN_PCTL.EN is written as 0 (R430). -/
def Chip.portDisable (c : Chip) (p : Nat) : Chip :=
  let c := (c.setB LN_PCTL_EN (pgLN p) false).portDown p
  c.setPort p { c.portSt p with started := false }

/-- The sender sends again from ACKSEQ + 1 (R431); the eighth replay without progress takes the port down (R430). -/
def Chip.replay (c : Chip) (p : Nat) : Chip :=
  let x := c.portSt p
  if x.sent.isEmpty then c
  else
    let c := (c.count LN_PERRCNT_REPLAY (pgLN p)).setPort p { x with replays := x.replays + 1 }
    if 8 ≤ x.replays + 1 then c.portDown p else c

/-- The port sheds: the widest, then the lowest, aligned group of locked lanes among its current ones (R433). -/
def Chip.shed (c : Chip) (p : Nat) : Chip :=
  let pg := pgLN p
  let cur := c.get LN_PSTS_CURBASE pg
  let w := c.get LN_PSTS_CURW pg
  let options := ((List.range w).reverse.map fun k => (List.range (2 ^ (w - k))).map fun i => (k, cur + i * 2 ^ k)).flatten
  match options.find? fun o => (List.range (2 ^ o.1)).all fun i => c.laneLock (o.2 + i) with
  | some (k, b) =>
    let c := (((c.set LN_PSTS_CURW pg k).set LN_PSTS_CURBASE pg b).setB LN_PSTS_SHED pg true).report pg 6
    c.setPort p { c.portSt p with shedding := true, ctype := 4 }
  | none => c.portDown p

/-- The ports that use a lane. -/
def Chip.portsOn (c : Chip) (l : Nat) : List Nat :=
  (List.range 16).filter fun p => (c.portSt p).started && (c.portLanes p).contains l

/-- A lane gains PCS lock (R417, R418). -/
def Chip.laneLocks (c : Chip) (l : Nat) : Chip :=
  if c.laneWorks l && c.get CK_STS_REFST pgCK == 2 then
    (c.portsOn l).foldl (fun c p => c.portLook p) (c.laneSet LN_LSTS_LOCK l 1)
  else c

/-- A lane loses PCS lock (R418, R430, R433). A loss that the far end's Glide causes is not reported, and the
port holds its deskew (R432). -/
def Chip.laneLoses (c : Chip) (l : Nat) : Chip :=
  if !c.laneLock l then c
  else
    let ps := c.portsOn l
    let quiet := ps.any fun p => (c.portSt p).farGlide
    let c := (c.laneSet LN_LSTS_LOCK l 0).setLane l { c.laneSt l with mark := true }
    if quiet then c
    else
      let told := c.laneGet LN_LPWR_STATE l < 2 && c.laneGet LN_LCFG_MODE l != 0
      let c := if told then (c.laneSet LN_LSTS_LOSS l 1).report (lanePg l) 2 else c
      ps.foldl (fun c p =>
        if c.portState p = 0 then c
        else if c.portState p = 3 then (if (c.portNow p).contains l then c.shed p else c)
        else c.portDown p) c

/-- A lane leaves lock without a report (R418). -/
def Chip.laneQuiets (c : Chip) (l : Nat) : Chip :=
  if c.laneLock l then
    (c.portsOn l).foldl (fun c p =>
        if c.portState p = 3 then (if (c.portNow p).contains l then c.shed p else c) else if c.portState p = 0 then c else c.portDown p)
      (c.laneSet LN_LSTS_LOCK l 0)
  else c

/-- The quad loop stands still while all four lanes are in Lodge or OFF (Table 15-7). -/
def Chip.quadRest (c : Chip) (q : Nat) : Chip :=
  if (quadLanes q).all c.laneDark then c.setB LN_QSTS_LOCKED (pgLN q) false else c

/-- A lane starts towards a power state (R424). -/
def Chip.lanePower (c : Chip) (l target : Nat) : Chip :=
  let now := c.laneGet LN_LPWR_STATE l
  let auto := (c.portsOn l).any fun p => c.bit LN_PCFG_AUTOGLIDE (pgLN p)
  let target := if auto && target != 2 then (if now = 2 then 0 else now) else target
  if now = target then c
  else
    let c := if target = 2 then c.laneQuiets l else c
    (c.laneSet LN_LPWR_STATE l 3).setLane l { c.laneSt l with target := target }

/-- A write of LN_LPWRk.REQ (R424): during a transition it waits. -/
def Chip.lanePowerReq (c : Chip) (l req : Nat) : Chip :=
  let c := c.laneSet LN_LPWR_REQ l req
  if c.laneGet LN_LPWR_STATE l = 3 then c else c.lanePower l req

/-- The lane reaches the requested power state (R424). -/
def Chip.lanePowerDone (c : Chip) (l : Nat) : Chip :=
  if c.laneGet LN_LPWR_STATE l = 3 then
    let c := (c.laneSet LN_LPWR_STATE l (c.laneSt l).target).quadRest (l / 4)
    c.lanePower l (c.laneGet LN_LPWR_REQ l)
  else c

/-- A quad loop locks after its page has started (R412). -/
def Chip.quadLocks (c : Chip) (q : Nat) : Chip :=
  let pg := pgLN q
  if c.running pg && c.domOn (domOf pg) && c.get CK_STS_REFST pgCK == 2 && !(quadLanes q).all c.laneDark then
    c.setB LN_QSTS_LOCKED pg true
  else c

/-! ## Pages -/

/-- The LN page would start: the loop's range is judged (R412), the FIR settings too (LN_LEQ), and its port
starts (R426). True where the page has started. -/
def Chip.lnStart (c : Chip) (q : Nat) : Chip :=
  let pg := pgLN q
  let rate := c.refQuarter * c.get LN_QCTL_MH pg
  if rate < 80000 || 112500 < rate then ((c.setB PG_CTL_RUN pg false).setB LN_QSTS_RANGE pg true).report pg 0
  else
    let c := c.setB PG_STS_RUNNING pg true
    let c := (quadLanes q).foldl (fun c l =>
      let tooFar := decide (63 < c.laneGet LN_LEQ_PRE l + c.laneGet LN_LEQ_MAIN l + c.laneGet LN_LEQ_POST l)
      let c := c.setLane l { c.laneSt l with idle := tooFar }
      if tooFar then c.laneSet LN_LSTS_EQERR l 1 else c) c
    ((c.portStart q).each (List.range 16) Chip.portLook).each (quadLanes q) fun c l => c.txPump l 8

/-- The ports that need a page. -/
def Chip.portsAt (c : Chip) (q : Nat) : List Nat :=
  (List.range 16).filter fun p => p == q || ((c.portSt p).started && (c.portLanes p).any fun l => l / 4 == q)

/-- RUN of an LN page is cleared: its ports go DOWN (R430). -/
def Chip.lnRunClear (c : Chip) (q : Nat) : Chip :=
  let c := c.each (c.portsAt q) fun c p => if c.portState p = 0 then c else c.portDown p
  c.setPort q { c.portSt q with started := false }

/-- No ring access of the quad is outstanding (R425). -/
def Chip.lnQuiet (c : Chip) (q : Nat) : Bool :=
  (quadLanes q).all fun l => (c.laneSt l).rx.isEmpty && (c.laneSt l).tx.isEmpty

/-- The function of an LN page has ended: its lanes idle, their locks gone without a report (R418, R425). -/
def Chip.lnEnd (c : Chip) (q : Nat) : Chip :=
  (c.each (quadLanes q) fun c l => c.laneSet LN_LSTS_LOCK l 0).setB LN_QSTS_LOCKED (pgLN q) false

/-- STOP_REQ on an LN page (Table 15-9). -/
def Chip.lnStop (c : Chip) (q : Nat) : Chip :=
  let c := c.lnRunClear q
  (c.each (quadLanes q) fun c l =>
    let x := c.laneSt l
    c.setLane l { x with rx := [], tx := [], rxGen := x.rxGen + 1, txGen := x.txGen + 1 }).lnEnd q

/-- A lane sector domain leaves the on state, or the device freezes: locks go, and ports go DOWN (Table 15-9). -/
def Chip.lanesFall (c : Chip) (mine : Nat → Bool) : Chip :=
  let ls := (List.range 64).filter mine
  let ps := (List.range 16).filter fun p => c.portState p != 0 && (mine (4 * p) || (c.portLanes p).any mine)
  let c := c.each ls fun c l => c.laneSet LN_LSTS_LOCK l 0
  c.each ps Chip.portDown

/-- REFCLK is lost: every lane leaves PCS lock, reported once per lane, and every port goes DOWN (R412, R430). -/
def Chip.lanesLoseRef (c : Chip) : Chip :=
  let c := c.each (List.range 64) fun c l =>
    if c.laneLock l then
      let c := (c.laneSet LN_LSTS_LOCK l 0).setLane l { c.laneSt l with mark := true }
      if c.laneGet LN_LPWR_STATE l < 2 && c.laneGet LN_LCFG_MODE l != 0 then (c.laneSet LN_LSTS_LOSS l 1).report (lanePg l) 2 else c
    else c
  c.each ((List.range 16).filter fun p => c.portState p != 0) Chip.portDown

/-- Offset of the equalisation table in flash (R415; 21). -/
def eqBase : Nat := 0x41000

/-- The equalisation table is valid (R415). -/
def Chip.eqValid (c : Chip) : Bool :=
  let b := c.flashBytes eqBase 588
  leAt b 0 4 == 0x31545145 && leAt b 4 2 == 1 && leAt b 6 2 < 32 && leAt b 584 4 == (crc32 (b.take 584)).toNat &&
    (List.range (leAt b 6 2 + 1)).all fun i =>
      let o := 72 + 16 * i
      leAt b o 1 + leAt b (o + 1) 1 + leAt b (o + 2) 1 ≤ 63 && leAt b (o + 3) 1 < 16 &&
        ((List.range 5).all fun t => leAt b (o + 4 + t) 1 < 64) && leAt b (o + 9) 7 == 0

/-- Lanes load their profiles (R415). -/
def Chip.eqLanes (c : Chip) (ls : List Nat) (told : Bool) : Chip :=
  let b := c.flashBytes eqBase 588
  let ok := c.eqValid
  c.each ls fun c l =>
    let m := if ok then leAt b (8 + l) 1 else 0
    let found := ok && m % 32 ≤ leAt b 6 2
    let o := 72 + 16 * (m % 32)
    let at_ := fun (i dflt : Nat) => if found then leAt b (o + i) 1 else dflt
    let c := ((c.laneSet LN_LCFG_PROF l (m % 32)).laneSet LN_LCFG_TXINV l (bitsOf m 5 5)).laneSet LN_LCFG_RXINV l (bitsOf m 6 6)
    let c := (((c.laneSet LN_LEQ_PRE l (at_ 0 0)).laneSet LN_LEQ_MAIN l (at_ 1 63)).laneSet LN_LEQ_POST l (at_ 2 0)).laneSet LN_LEQ_CTLE l (at_ 3 0)
    let c := c.laneSet LN_LDFE_TAP l ((List.range 5).foldl (fun a t => a + at_ (4 + t) 0 % 64 * 2 ^ (6 * t)) 0)
    c.reportIf (told && !found) (lanePg l) 1

/-- Every lane of a lane sector loads its profile (R415). -/
def Chip.eqLoad (c : Chip) (n : Nat) : Chip := c.eqLanes ((List.range 16).map (16 * n + ·)) true

/-! ## What arrives on a port -/

/-- TYPE of a PMP command flit (14, Table 14-2). -/
def pmpType (d : BitVec 512) : Nat := d.toNat % 16

/-- The flits of the PMP packet that a command flit begins (14, R380). -/
def pmpFlits (d : BitVec 512) : Nat :=
  if pmpType d = 2 ∨ pmpType d = 3 then 1 + (72 * (bitsOf d.toNat 23 18 + 1) + 63) / 64 else 1

/-- The stored lines in the data flits of a packet (14, R380). -/
def pmpLines (n : Nat) (ds : List (BitVec 512)) : List (BitVec 576) :=
  let v := ds.zipIdx.foldl (fun a di => a + di.1.toNat * 2 ^ (512 * di.2)) 0
  (List.range n).map fun i => BitVec.ofNat 576 (v / 2 ^ (576 * i))

/-- A delivered payload reaches the port's consumer (R435). A PMP packet whose TYPE is no answer's is discarded
and counted (14, R379). -/
def Chip.portDeliver (c : Chip) (p : Nat) (d : BitVec 512) : Chip :=
  let x := c.portSt p
  match c.portUse p with
  | 1 => c.setPort p { x with inbox := x.inbox ++ [[d]] }
  | 2 =>
    let part := x.part ++ [d]
    match part with
    | h :: _ =>
      if part.length < pmpFlits h then c.setPort p { x with part := part }
      else
        let ok := pmpType h == 3 || pmpType h == 4 || pmpType h == 6
        let c := c.setPort p { x with part := [], inbox := if ok then x.inbox ++ [part] else x.inbox }
        if ok then c else (c.memUsers p).foldl (fun c q => c.pmpProto q) c
    | [] => c
  | _ => c.rxWrite (c.get LN_PCFG_BASE (pgLN p)) d

/-- A message port can take a flit (R435). -/
def Chip.portTakes (c : Chip) (p : Nat) : Bool :=
  c.portUse p != 3 || (decide (0 < c.rxFree (c.get LN_PCFG_BASE (pgLN p))) && decide ((c.laneSt (c.get LN_PCFG_BASE (pgLN p))).rx.length < 8))

/-- The CRC of a flit (R428). -/
def flitCrc (f : BitVec 576) : Nat := (crc32 ((natLe 4 f.toNat) ++ natLe 64 (f.toNat / 2 ^ 64))).toNat

/-- The port receives: it is at work, and its lanes in use hold lock. -/
def Chip.portHears (c : Chip) (p : Nat) : Bool :=
  (c.portSt p).started && c.portRuns p && c.portState p != 0 && (c.portNow p).all c.laneLock

/-- A received flit (R428, R431). -/
def Chip.linkFlit (c : Chip) (p : Nat) (f : BitVec 576) : Chip :=
  let c := c.portPump p
  if !c.portHears p || c.portState p ≠ 3 then c
  else
    let v := f.toNat
    let x := { c.portSt p with farGlide := false }
    let c := c.setPort p x
    let seq := v % 256
    let ch := bitsOf v 9 8
    if flitCrc f ≠ bitsOf v 63 32 then
      (c.count LN_PERRCNT_CRC (pgLN p)).setPort p { x with skip := true, ctype := 1 }
    else if ch = 0 ∨ seq ≠ (x.rseq + 1) % 256 ∨ !c.portTakes p then c
    else
      let c := c.setPort p { x with rseq := seq, skip := false, ctype := if x.ctype = 1 then 0 else x.ctype }
      if ch = c.portUse p then c.portDeliver p (f.extractLsb' 64 512) else c

/-- CRC-8 of a control block (R429). -/
def crc8 (bs : List (BitVec 8)) : Nat :=
  bs.foldl (fun r b => (List.range 8).foldl (fun (a : Nat) _ => if a.testBit 7 then ((a <<< 1) % 256) ^^^ 0x07 else (a <<< 1) % 256) (r ^^^ b.toNat)) 0

/-- The check of a control block (R429). -/
def ctlOk (b : BitVec 64) : Bool := crc8 (natLe 7 b.toNat) == bitsOf b.toNat 63 56

/-- Consecutive ANNOUNCE blocks are interrupted by any other. -/
def Chip.linkOther (c : Chip) (p : Nat) : Chip := c.setPort p { c.portSt p with ann := 0, farGlide := false }

/-- ACKSEQ and LIMIT of a control block (R429, R431). -/
def Chip.linkCredit (c : Chip) (p : Nat) (b : BitVec 64) : Chip :=
  let x := c.portSt p
  let a := bitsOf b.toNat 23 16
  let x := { x with limit := bitsOf b.toNat 31 24 }
  c.setPort p (match x.sent.findIdx? fun s => s.1 == a with
    | some i => { x with sent := x.sent.drop (i + 1), acked := a, replays := 0 }
    | none => x)

/-- A control block of a type arrives: one that fails its check is counted on its lane and ignored (R418, R429);
the first that arrives whole shows the lanes deskewed (R430). -/
def Chip.control (c : Chip) (p type : Nat) (b : BitVec 64) (f : Chip → Chip) : Chip :=
  let c := c.portPump p
  if !c.portHears p then c
  else if !ctlOk b then
    let ls := c.portNow p
    let l := ls.getD ((10 * bitsOf b.toNat 11 8 + 9) % ls.length) 0
    c.laneSet LN_LERR_COUNT l (satInc (2 ^ 32 - 1) (c.laneGet LN_LERR_COUNT l))
  else if b.toNat % 256 ≠ type then c
  else
    let c := if c.portState p = 1 then (c.set LN_PSTS_STATE (pgLN p) 2).setPort p { c.portSt p with ctype := 2, ann := 0 } else c
    let c := if c.portState p = 3 then c.linkCredit p b else c
    (f c).portPump p

/-- ACK (R431). -/
def Chip.linkAck (c : Chip) (p : Nat) (b : BitVec 64) : Chip := c.control p 0 b fun c => c.linkOther p

/-- NAK (R431). -/
def Chip.linkNak (c : Chip) (p : Nat) (b : BitVec 64) : Chip :=
  c.control p 1 b fun c => let c := c.linkOther p; if c.portState p = 3 then c.replay p else c

/-- ANNOUNCE (R430): eight in a row bring the port to UP; one that an UP port receives takes it down. One
ANNOUNCE counts as sent with each received (log entry 49). -/
def Chip.linkAnnounce (c : Chip) (p : Nat) (b : BitVec 64) : Chip :=
  c.control p 2 b fun c =>
    let v := b.toNat
    let c := c.set LN_PSTS_RDEV (pgLN p) (bitsOf v 42 37)
    if c.portState p = 3 then c.portDown p
    else if bitsOf v 33 32 = c.get LN_PSTS_CURW (pgLN p) ∧ bitsOf v 44 43 = c.portUse p then
      let x := c.portSt p
      if 8 ≤ x.ann + 1 then c.portUp p (bitsOf v 31 24) else c.setPort p { x with ann := x.ann + 1 }
    else c.linkOther p

/-- GLIDE (R432). -/
def Chip.linkGlide (c : Chip) (p : Nat) (b : BitVec 64) : Chip :=
  c.control p 3 b fun c =>
    let c := c.linkOther p
    if c.portState p = 3 then c.setPort p { c.portSt p with farGlide := true } else c

/-- SHED (R433): the new width and offset are applied, and flits not acknowledged are sent again. -/
def Chip.linkShed (c : Chip) (p : Nat) (b : BitVec 64) : Chip :=
  c.control p 4 b fun c =>
    let c := c.linkOther p
    let pg := pgLN p
    let w := bitsOf b.toNat 33 32
    let o := bitsOf b.toNat 36 34
    if c.portState p = 3 ∧ w < c.get LN_PCFG_WIDTH pg ∧ o % 2 ^ w = 0 ∧ o + 2 ^ w ≤ 2 ^ c.get LN_PCFG_WIDTH pg then
      let c := (((c.set LN_PSTS_CURW pg w).set LN_PSTS_CURBASE pg (c.get LN_PCFG_BASE pg + o)).setB LN_PSTS_SHED pg true).report pg 6
      (c.setPort p { c.portSt p with ctype := 5 }).replay p
    else c

/-- SHEDACK (R433). -/
def Chip.linkShedack (c : Chip) (p : Nat) (b : BitVec 64) : Chip :=
  c.control p 5 b fun c =>
    let c := c.linkOther p
    if (c.portSt p).shedding then (c.setPort p { c.portSt p with shedding := false, ctype := 0 }).replay p else c

/-- ACKSEQ has not advanced for 2 us while flits are unacknowledged (R431). -/
def Chip.replayTimeout (c : Chip) (p : Nat) : Chip :=
  let c := c.portPump p
  if c.portState p = 3 && c.stepsRun then (c.replay p).portPump p else c

/-- An idle port puts its lanes into Glide (R432). -/
def Chip.glideIdle (c : Chip) (p : Nat) : Chip :=
  let c := c.portPump p
  let x := c.portSt p
  if c.portState p = 3 && c.bit LN_PCFG_AUTOGLIDE (pgLN p) && x.queue.isEmpty && x.sent.isEmpty && !x.gliding && c.stepsRun then
    ((c.portNow p).foldl (fun c l => if c.laneGet LN_LPWR_STATE l = 0 then c.laneSet LN_LPWR_STATE l 1 else c) c).setPort p
      { x with gliding := true, ctype := 3 }
  else c

/-- REWIDEN (R433): both ends go through ANNOUNCE; the port leaves UP. -/
def Chip.rewiden (c : Chip) (p : Nat) : Chip :=
  let pg := pgLN p
  if c.portState p = 3 ∧ (c.portLanes p).all c.laneLock then
    let c := c.set LN_PSTS_STATE pg 2
    let c := (c.set LN_PSTS_CURBASE pg (c.get LN_PCFG_BASE pg)).set LN_PSTS_CURW pg (c.get LN_PCFG_WIDTH pg)
    (c.setPort p { c.portSt p with ann := 0, gliding := false, farGlide := false, shedding := false, replays := 0, ctype := 2 }).portLeaves p
  else c

/-- The oldest payload that has come for a port's consumer, if a test accepts it. -/
def Chip.inboxTake (c : Chip) (p : Nat) (mine : BitVec 512 → Bool) : Option (List (BitVec 512) × Chip) :=
  let x := c.portSt p
  match x.inbox with
  | (h :: t) :: rest => if mine h then some (h :: t, c.setPort p { x with inbox := rest }) else none
  | _ => none

/-- LSSYNC, LSDATA and LSSTOP: the oldest message of a lockstep port takes effect (05, R158). -/
def Chip.lsMessage (c : Chip) (p type : Nat) : Chip :=
  if !c.stepsRun then c
  else match c.inboxTake p fun h => lsType h == type with
    | some (h :: _, c) => c.lsTake h
    | _ => c

/-- A PMP answer of a type is taken by the memory port that uses the link port: tag, command flit, data (14,
R379). -/
def Chip.pmpTake (c : Chip) (q type : Nat) (f : Chip → Nat → Nat → List (BitVec 512) → Chip) : Chip :=
  let p := c.get ML_CTL_LPORT (pgML q)
  if !c.stepsRun || c.portUse p != 2 then c
  else match c.inboxTake p fun h => pmpType h == type with
    | some (h :: t, c) => f c (bitsOf h.toNat 17 8) h.toNat t
    | _ => c

/-- RDATA. -/
def Chip.takeRdata (c : Chip) (q : Nat) : Chip :=
  c.pmpTake q 3 fun c tag h ds => c.pmpRdata q tag (bitsOf h 127 64) (pmpLines (bitsOf h 23 18 + 1) ds)

/-- WACK. -/
def Chip.takeWack (c : Chip) (q : Nat) : Chip := c.pmpTake q 4 fun c tag h _ => c.pmpWack q tag (bitsOf h 127 64)

/-- INFO. -/
def Chip.takeInfo (c : Chip) (q : Nat) : Chip :=
  c.pmpTake q 6 fun c tag h _ => c.pmpInfo q tag (bitsOf h 72 64) (h.testBit 80)

end Sys2Proof.Machine
end

