-- ==== Sys2Proof/Machine/LoosePort.lean ====
section
/-! DEFINITION. The loose port, trace buffers and the admission of loose laps (07, R195 to R200, R210 to
R213; 17, R478 to R484). -/
namespace Sys2Proof.Machine

/-! ## Batches (07, R195 to R200) -/

/-- Base address of the loose input records, and of the output records. -/
def Chip.batchIn (c : Chip) (g : Nat) : Nat := c.get EG_LPINH_ADDR (pgEG g) * 2 ^ 32 + c.get EG_LPINL_ADDR (pgEG g) * 128
def Chip.batchOut (c : Chip) (g : Nat) : Nat := c.get EG_LPOUTH_ADDR (pgEG g) * 2 ^ 32 + c.get EG_LPOUTL_ADDR (pgEG g) * 128

/-- Input records are fetched in order, at most 2 ahead (07, R196). -/
def Chip.batchFill (c : Chip) (g : Nat) : Nat → Chip
  | 0 => c
  | k + 1 =>
    let x := c.grp g
    let b := x.batch
    if b.active && decide (b.buf.length + b.reads.length < 2 ∧ b.fetch ≤ c.get EG_LPCNT_COUNT (pgEG g)) then
      let c := c.setGrp g { x with batch := { b with fetch := b.fetch + 1, reads := b.reads ++ [b.fetch] } }
      (c.ask { asker := .batchIn g b.fetch, op := .read, addr := c.batchIn g + 128 * b.fetch, len := 2, whole := 2,
               kidx := c.get EG_LPCTL_KIDX (pgEG g) }).batchFill g k
    else c

/-- EG_LPCTL.BUSY (07, R198, R200). -/
def Chip.batchBusy (c : Chip) (g : Nat) : Bool :=
  let x := c.grp g
  x.batch.active || !x.batch.reads.isEmpty || !x.batch.out.isEmpty || x.loose.on

/-- EG_LPCTL.EN goes from 0 to 1 (07, R196). -/
def Chip.batchEnable (c : Chip) (g : Nat) : Chip :=
  let p := pgEG g
  if c.bit EG_LPCTL_EN p then c
  else
    let n := 128 * (c.get EG_LPCNT_COUNT p + 1)
    let ni := (Asker.batchIn g 0).place.1
    let e1 := c.bufferCheck ni (c.batchIn g) n
    let err := if e1 != 0 then e1 else c.bufferCheck ni (c.batchOut g) n
    if err != 0 then (c.set EG_LPSTS_ERR p err).report p 8
    else
      let c := (((c.setB EG_LPCTL_EN p true).set EG_LPSTS_DONE p 0).set EG_LPSTS_ERR p 0).setB EG_LPCTL_FIN p false
      let x := c.grp g
      (c.setGrp g { x with batch := { x.batch with active := true, fail := false, buf := [], fetch := 0, lap := 0 } }).batchFill g 2

/-- EG_LPCTL.EN is written 0 (07, R200). -/
def Chip.batchDisable (c : Chip) (g : Nat) : Chip :=
  let x := c.grp g
  (c.setB EG_LPCTL_EN (pgEG g) false).setGrp g { x with batch := { x.batch with active := false } }

/-- A record access failed (07, R199). -/
def Chip.batchError (c : Chip) (g code : Nat) : Chip :=
  let c := c.set EG_LPSTS_ERR (pgEG g) code
  let x := c.grp g
  if x.loose.on then c.setGrp g { x with batch := { x.batch with active := false, fail := true } }
  else
    let c := c.setGrp g { x with batch := { x.batch with active := false } }
    (c.eeStop (((List.range 8).map (8 * g + ·)).filter fun e => c.isLoose e)).report (pgEG g) 9

/-- The first error among the codes of a request's lines; 0 where every line succeeded. -/
def firstError (codes : List Nat) : Nat := (codes.find? (· != 0)).getD 0

/-- An input record arrives (07, R196). -/
def Chip.batchRecord (c : Chip) (g n : Nat) (codes : List Nat) (data : List (BitVec 512)) : Chip :=
  let x := c.grp g
  if !x.batch.reads.contains n then c
  else
    let c := c.setGrp g { x with batch := { x.batch with reads := x.batch.reads.filter (· != n) } }
    let e := firstError codes
    if e != 0 then (if x.batch.active then c.batchError g e else c)
    else if x.batch.active then
      let v := BitVec.ofNat 1024 ((data.getD 0 0).toNat + (data.getD 1 0).toNat * 2 ^ 512)
      let x := c.grp g
      (c.setGrp g { x with batch := { x.batch with buf := x.batch.buf ++ [(n, v)] } }).batchFill g 2
    else c

/-- The write of an output record is answered (07, R198, R199). -/
def Chip.batchWritten (c : Chip) (g n : Nat) (codes : List Nat) : Chip :=
  let x := c.grp g
  if !x.batch.out.contains n then c
  else
    let c := c.setGrp g { x with batch := { x.batch with out := x.batch.out.filter (· != n) } }
    let e := firstError codes
    if e != 0 then (if x.batch.active then c.batchError g e else c.set EG_LPSTS_ERR (pgEG g) e)
    else
      let d := c.get EG_LPSTS_DONE (pgEG g) + 1
      let c := c.set EG_LPSTS_DONE (pgEG g) d
      if d = c.get EG_LPCNT_COUNT (pgEG g) + 1 then
        let x := c.grp g
        (c.setB EG_LPCTL_FIN (pgEG g) true).setGrp g { x with batch := { x.batch with active := false } }
      else c

/-- A loose lap is offered to the admission controller (07, R197). -/
def Chip.offered (c : Chip) (g : Nat) : Bool :=
  let b := (c.grp g).batch
  c.groupUp g && c.bit EG_LPCTL_EN (pgEG g) && !c.bit EG_LPCTL_FIN (pgEG g) && b.active &&
    (b.buf.any fun r => r.1 == b.lap) && decide (b.out.length < 2) && !(c.ready g true).isEmpty

/-! ## Admission (17, R478, R479, R484) -/

/-- The reading of a thermal sensor as R479 takes it: failed sensors count as 127.75 degrees, and a sensor
that has given no reading counts for nothing. -/
def Chip.sensorFor (c : Chip) (n : Nat) : Option Int :=
  if (c.get PW_SENSFAIL_FAIL pgPW (n / 32)).testBit (n % 32) then some 511
  else if c.pow.seen.contains n then some (sgn 10 (c.get PW_TEMP_TEMP pgPW n)) else none

/-- The hottest sensor among a group's own and those of its grid neighbours, in quarters of a degree. -/
def Chip.hotOf (c : Chip) (g : Nat) : Int :=
  let ns := g :: (List.range 4).filterMap fun d => neighbour g d
  (ns.filterMap fun n => c.sensorFor n).foldl max (-512)

/-- The estimate C of a group (17, R478). -/
def Chip.costOf (c : Chip) (g : Nat) : Nat :=
  match (c.grp g).adm.cost with
  | some e => e
  | none => c.get EG_ADMCOST_INIT (pgEG g) + 1

/-- The admission decision for an offered loose lap (17, R479). -/
def Chip.admits (c : Chip) (g : Nat) : Bool :=
  c.get EG_ADMSTS_THROT (pgEG g) == 0 && decide (c.hotOf g < 4 * sgn 8 (c.get EG_ADMTH_TLIM (pgEG g))) &&
    (c.bit EG_ADMCTL_FREE (pgEG g) || decide ((c.costOf g : Int) ≤ sgn 32 (c.get EG_ADMBKT_BKT (pgEG g))))

/-- A step edge of the admission controller: an offered loose lap is admitted when temperature and bucket
allow, and it starts (17, R479, R481; 20, R537, R539). -/
def Chip.looseAdmit (c : Chip) (g : Nat) : Chip :=
  let x := c.grp g
  if c.offered g then
    let c := c.setGrp g { x with adm := { x.adm with demand := true } }
    if !x.loose.on && c.accepts (pgEG g) && c.lapsStart && x.haltAllows true && c.admits g then
      let free := c.bit EG_ADMCTL_FREE (pgEG g)
      let cost := c.costOf g
      let c := if free then c else c.addBucket g (-(cost : Int))
      let y := c.grp g
      let c := c.setGrp g { y with adm := { y.adm with charged := cost, free := free } }
      let c := c.startLap g true { recIdx := x.batch.lap }
      { c with eng := { c.eng with edge := c.eng.edge + 1 } }
    else c
  else c

/-- A group receives the budget word (17, R477, R478). -/
def Chip.budgetWord (c : Chip) (g : Nat) : Chip :=
  let x := c.grp g
  if x.adm.due && c.domOn g then
    let w := c.get PW_BUDGET_WORD pgPW
    let c := c.setGrp g { x with adm := { x.adm with due := false } }
    let c := c.setB EG_ADMSTS_THROT (pgEG g) (w.testBit 24)
    c.addBucket g ((w % 65536 * 32 * (c.get EG_ADMCTL_WT (pgEG g) + 1) : Nat) : Int)
  else c

/-! ## Trace (07, R210 to R213) -/

/-- EG_TRCCTL.EN goes from 0 to 1 (07, R211). -/
def Chip.traceEnable (c : Chip) (g : Nat) : Chip :=
  let p := pgEG g
  if c.bit EG_TRCCTL_EN p then c
  else
    let base := c.get EG_TRCBASEH_ADDR p * 2 ^ 32 + c.get EG_TRCBASEL_ADDR p * 64
    let err := c.bufferCheck (Asker.trace g 0).place.1 base (8 * c.traceUnits g)
    if err != 0 then (c.set EG_TRCSTS_ERR p err).report p 11
    else
      let c := (((c.setB EG_TRCCTL_EN p true).set EG_TRCWPTR_WPTR p 0).setB EG_TRCSTS_FULL p false).set EG_TRCSTS_ERR p 0
      let x := c.grp g
      let sent := x.trace.sent.map fun s => (s.1, 0, s.2.2)
      c.setGrp g { x with trace := { x.trace with held := [], pos := 0, lost := false, sent := sent } }

/-- EG_TRCCTL.EN is written 0: the partly filled flit is written (07, R212). -/
def Chip.traceDisable (c : Chip) (g : Nat) : Chip := (c.setB EG_TRCCTL_EN (pgEG g) false).traceFlush g

/-- The acknowledged writes at the front enter WPTR; `k` bounds how many. -/
def Chip.traceAdvance (c : Chip) (g : Nat) : Nat → Chip
  | 0 => c
  | k + 1 =>
    let x := c.grp g
    match x.trace.sent with
    | (_, n, true) :: rest =>
      let p := pgEG g
      let w := c.get EG_TRCWPTR_WPTR p + n
      let w := if c.bit EG_TRCCTL_WRAP p then w % c.traceUnits g else w
      ((c.set EG_TRCWPTR_WPTR p w).setGrp g { x with trace := { x.trace with sent := rest } }).traceAdvance g k
    | _ => c

/-- A trace write is answered (07, R210, R213). -/
def Chip.traceAnswer (c : Chip) (g n : Nat) (codes : List Nat) : Chip :=
  let x := c.grp g
  let t := x.trace
  let e := firstError codes
  if !(t.sent.any fun s => s.1 == n) then c
  else if e != 0 then
    let mine := fun (r : Req) => match r.asker with | .trace h _ => h == g | _ => false
    let gone := c.net.want.filterMap fun r => match r.asker with | .trace h m => if h == g then some m else none | _ => none
    let c := { c with net := { c.net with want := c.net.want.filter fun r => !mine r } }
    let sent := (t.sent.filter fun s => s.1 != n && !gone.contains s.1).map fun s => (s.1, 0, s.2.2)
    let c := c.setGrp g { x with trace := { t with held := [], sent := sent } }
    let len := t.sent.any fun s => s.1 == n && s.2.1 != 0
    if len then ((c.set EG_TRCSTS_ERR (pgEG g) e).setB EG_TRCCTL_EN (pgEG g) false).report (pgEG g) 11 else c
  else
    let sent := t.sent.map fun s => if s.1 == n then (s.1, s.2.1, true) else s
    (c.setGrp g { x with trace := { t with sent := sent } }).traceAdvance g (sent.length)

end Sys2Proof.Machine
end

