-- ==== Sys2Proof/Machine/Fabric.lean ====
section
/-! DEFINITION. The product-term fabric (08): tiles, routing, logic blocks, clock and set/reset trees,
fences (10, R301) and I/O cells (22, R583, R584; 04, R123). A fabric value is an optional bit: none
stands for a value that cannot be predicted (08, R233). -/
namespace Sys2Proof.Machine

/-! ## Values that may be unpredictable -/

/-- And over optional bits. -/
def kAnd : Option Bool → Option Bool → Option Bool
  | some false, _ => some false
  | _, some false => some false
  | some true, b => b
  | a, some true => a
  | none, none => none

/-- Not over optional bits. -/
def kNot : Option Bool → Option Bool
  | some b => some (!b)
  | none => none

/-- Or over optional bits. -/
def kOr (a b : Option Bool) : Option Bool := kNot (kAnd (kNot a) (kNot b))

/-- Exclusive or over optional bits. -/
def kXor : Option Bool → Option Bool → Option Bool
  | some a, some b => some (a ^^ b)
  | _, _ => none

/-- An unpredictable bit is drawn when something samples it (log entry 3). -/
def Chip.take (c : Chip) : Option Bool → Bool × Chip
  | some b => (b, c)
  | none => c.drawBit

/-- Several sampled bits, the first the lowest. -/
def Chip.takeBits (c : Chip) : List (Option Bool) → Nat × Chip
  | [] => (0, c)
  | b :: bs =>
    let (x, c) := c.take b
    let (v, c) := c.takeBits bs
    (b2n x + 2 * v, c)

/-! ## Configuration memory (10, R286; 11, R311) -/

/-- The bit `b` of configuration frame `F`. -/
def Chip.cfgBit (c : Chip) (F b : Nat) : Bool := (Store.get 0 c.fab.cfg (64 * F + b / 64)).getLsbD (b % 64)

/-- The frame of quarter `q` of a tile, by the device number of its LB. -/
def tileFrame (t q : Nat) : Nat := 8448 * (t / 2048) + 4 * (t % 2048) + q

/-- The frame of a site pair, by its device number (09, R252). -/
def siteFrame (n : Nat) : Nat := 8448 * (n / 256) + 8192 + n % 256

/-- The `w` bits of a tile from bit `lo` (08, Table 8-5). -/
def Chip.tileBits (c : Chip) (t lo w : Nat) : Nat :=
  ofBits (fun i => c.cfgBit (tileFrame t ((lo + i) / 4096)) ((lo + i) % 4096)) w

/-- The `w` bits of a site pair from bit `lo` (09, Table 9-4). -/
def Chip.siteBits (c : Chip) (n lo w : Nat) : Nat := ofBits (fun i => c.cfgBit (siteFrame n) (lo + i)) w

/-- The configuration word of a macrocell (08, Table 8-4). -/
def Chip.mcWord (c : Chip) (t m : Nat) : Nat := c.tileBits t (14336 + 32 * m) 32

/-! ## Sectors, regions and fences -/

/-- The device number of the region of a tile (08, R218). -/
def tileRegion (t : Nat) : Nat := 16 * (t / 2048) + 4 * (t % 2048 / 64 / 8) + t % 64 / 16

/-- The device number of the region of a site (09, R252). -/
def siteRegion (n : Nat) : Nat := 16 * (n / 256) + 4 * (n % 32 / 8) + n % 256 / 32 / 2

/-- The sector is on and started. -/
def Chip.started (c : Chip) (s : Nat) : Bool := c.domOn (64 + s) && c.bit FB_STATE_STARTED (pgFB s)

/-- The flip-flops and sites of a region act: its sector is started and no PARTIAL holds it (10, R299). -/
def Chip.regionLive (c : Chip) (r : Nat) : Bool := c.started (r / 16) && !c.fab.regHeld.contains r

/-- The fence of a region is raised (10, CF_RFUP). -/
def Chip.regionFenced (c : Chip) (r : Nat) : Bool := (c.get CF_RFUP_UP pgCF (r / 32)).testBit (r % 32)

/-- The value that a raised fence gives to what carried `key` (10, Table 10-9). -/
def Chip.regionFence (c : Chip) (r key : Nat) : Option Bool :=
  match Store.get 0 c.fab.rCode r with
  | 1 => some (Store.get false c.fab.rHold key)
  | 2 => some true
  | _ => some false

/-- The fence of a group is raised (10, CF_GFUPL, CF_GFUPH). -/
def Chip.groupFenced (c : Chip) (g : Nat) : Bool :=
  if g < 32 then (c.get CF_GFUPL_UP pgCF).testBit g else (c.get CF_GFUPH_UP pgCF).testBit (g - 32)

/-- What the fabric side of an output bit of a group port carries (07, R191, R192; 10, R303). -/
def Chip.groupOut (c : Chip) (g i : Nat) : Bool :=
  let x := Store.get {} c.eng.group g
  if c.groupFenced g || !c.domOn g then
    match Store.get 0 c.fab.gCode g with
    | 1 => (Store.get 0 c.fab.gHold g).getLsbD i
    | 2 => true
    | _ => false
  else x.outReg.getLsbD i && !c.bit EE_LAPCTL_CLASS (pgEE (8 * g + i / 128))

/-! ## I/O cells -/

/-- The sector of a cell (01, R25). -/
def cellSector (n : Nat) : Nat := if n < 288 then n / 72 else 4 + (n - 288) / 48

/-- The number of a cell in its sector (08, Table 8-2). -/
def cellIndex (n : Nat) : Nat := if n < 288 then n % 72 else (n - 288) % 48

/-- The cell of a number in a sector. -/
def cellOf (s u : Nat) : Option Nat :=
  if s < 4 then (if u < 72 then some (72 * s + u) else none) else (if u < 48 then some (288 + 48 * (s - 4) + u) else none)

/-- The tile of a cell (08, Table 8-2). -/
def cellTile (n : Nat) : Nat := 2048 * cellSector n + 64 * (cellIndex n % 32) + 63

/-- The cell of a pace input (04, Table 4-2). -/
def paceCell (p : Nat) : Nat := (if p / 2 < 4 then 72 * (p / 2) else 288 + 48 * (p / 2 - 4)) + 12 * (p % 2)

/-- The word of a cell in effect (22, R583). -/
def Chip.ioWord (c : Chip) (n : Nat) : BitVec 128 := Store.get 0 c.fab.ioWord n

/-- The standard of a cell: 0 where it is unused (22, R584). -/
def Chip.ioStd (c : Chip) (n : Nat) : Nat :=
  let d := (c.ioWord n).toNat % 16
  if n % 2 == 1 && (c.ioWord (n - 1)).toNat % 16 == 0xA then 0
  else if d = 0xA ∧ n % 2 = 1 then 0
  else if d ≤ 0xA then d else 0

/-- The pace edges of a cell: its pace input, rising, falling (22, R584). -/
def Chip.ioPace (c : Chip) (n : Nat) : Nat × Bool × Bool :=
  let w := (c.ioWord n).toNat
  let e := bitsOf w 23 20
  let e := if e = 2 ∧ !c.fab.ioOpt.contains n then 0 else if 2 < e then 0 else e
  (bitsOf w 19 16, e == 0 || e == 2, e == 1 || e == 2)

/-- The level at a ball that nothing inside the device drives: what the board drives, else the pull;
none where the ball floats or a keeper holds it (22, R584). -/
def Chip.ballLevel (c : Chip) (n : Nat) : Option Bool :=
  match c.pin.io.find? fun p => p.1 == n with
  | some p => some p.2
  | none =>
    match bitsOf (c.ioWord n).toNat 9 8 with
    | 1 => some true
    | 2 => some false
    | _ => none

/-- The VCCO of the bank of a cell is present (17, PW_VCCOSTS). -/
def Chip.bankUp (c : Chip) (n : Nat) : Bool := (c.get PW_VCCOSTS_PRESENT pgPW).testBit (n / 24)

/-! ## Values of the fabric -/

/-- A point whose value is formed by logic: what driver `k` of tile `t` sends (56 the long-line driver,
57 + i crosser i), or D of macrocell `m` of LB `t`. -/
inductive Node where
  | drv (t k : Nat)
  | dval (t m : Nat)
  deriving DecidableEq, Repr

/-- The key under which a hold fence keeps a wire, a slot or a substituted crossing wire. -/
def wireKey (t k : Nat) : Nat := 128 * t + k
def slotKey (t i : Nat) : Nat := 128 * t + 96 + i
def crossKey (n w : Nat) : Nat := 2 ^ 24 + 128 * n + w

/-- Q of a macrocell. -/
def FabVals.qOf (v : FabVals) (t m : Nat) : Bool := Store.get false v.q (16 * t + m)

/-- What a block RAM port presents: DO, SBE and DBE, after its output register where it has one
(09, R259). -/
def Chip.portDo (c : Chip) (v : FabVals) (n port : Nat) : BitVec 74 :=
  if (c.siteBits n 3176 64).testBit (10 + port) then Store.get 0 v.oreg (2 * n + port) else Store.get 0 v.core (2 * n + port)

/-- The lead slice of the cluster of a site (09, R252). -/
def leadOf (n : Nat) : Nat := n - n % 16

/-- The cluster of a site. -/
def clusterOf (n : Nat) : Nat := 16 * (n / 256) + n % 256 / 16

/-- The cluster has a sequencer (09, R271). -/
def Chip.hasSeq (c : Chip) (n : Nat) : Bool := (c.siteBits (leadOf n) 3240 64).testBit 20

/-- Pair output `o` of a site (09, Table 9-3). -/
def Chip.siteOut (c : Chip) (v : FabVals) (n o : Nat) : Option Bool :=
  let z := Store.get {} v.slice n
  some <|
    if o < 72 then (c.portDo v n 0).getLsbD o
    else if o < 144 then (c.portDo v n 1).getLsbD (o - 72)
    else if o < 146 then (c.portDo v n 0).getLsbD (72 + (o - 144))
    else if o < 148 then (c.portDo v n 1).getLsbD (72 + (o - 146))
    else if o < 184 then z.z.getLsbD (o - 148)
    else if o < 190 then z.bexp.getLsbD (o - 184)
    else if o = 190 then z.zovf
    else if o = 191 then z.ovf
    else n % 16 == 0 && c.hasSeq n &&
      (let s := c.get AS_SEQSTS_STATE (pgAS (n / 256)) (clusterOf n % 16)
       s == 1 || s == 2)

/-- The tile that lies `span` tiles from tile `t` in direction `d`, in the same sector (08, R234). -/
def tileAt (t d span : Nat) : Option Nat :=
  let r := t % 2048 / 64
  let x := t % 64
  match d with
  | 0 => if span ≤ r then some (t - 64 * span) else none
  | 1 => if x + span < 64 then some (t + span) else none
  | 2 => if r + span < 32 then some (t + 64 * span) else none
  | _ => if span ≤ x then some (t - span) else none

/-- The number of a wire driver (08, R234). -/
def driverNo (d span i : Nat) : Nat :=
  if span = 1 then 8 * d + i else if span = 4 then 32 + 4 * d + i else 48 + 2 * d + i

/-- What a driver sends, seen from a region: the fence stands at the border (10, R301). -/
def Chip.sentTo (c : Chip) (rec : Node → Option Bool) (t k region : Nat) : Option Bool :=
  let r := tileRegion t
  if c.regionFenced r && r != region then c.regionFence r (wireKey t k) else rec (.drv t k)

/-- The crossing-wire number of a horizontal wire at site column `j` (09, Table 9-2). -/
def crossNo (east : Bool) (span a i : Nat) : Nat :=
  if span = 1 then (if east then i else 8 + i)
  else if span = 4 then (if east then 16 else 32) + 4 * a + i
  else (if east then 48 else 80) + 2 * a + i

/-- A wire passes a site: its substitution code may replace it (09, R255; 10, R301). -/
def Chip.passSite (c : Chip) (v : FabVals) (n w region : Nat) (b : Option Bool) : Option Bool :=
  let code := c.siteBits n (2280 + 8 * w) 8
  if code = 0 ∨ 0xC1 < code then b
  else if c.regionFenced (siteRegion n) && siteRegion n != region then c.regionFence (siteRegion n) (crossKey n w)
  else c.siteOut v n (code - 1)

/-- Wire `i` of a span that arrives in tile `t` from direction `d` (08, R234; 09, R255). -/
def Chip.arrive (c : Chip) (v : FabVals) (rec : Node → Option Bool) (t d span i : Nat) : Option Bool :=
  match tileAt t d span with
  | none => some false
  | some t0 =>
    let b := c.sentTo rec t0 (driverNo ((d + 2) % 4) span i) (tileRegion t)
    let site := fun j => 256 * (t / 2048) + 32 * j + t % 2048 / 64
    if d = 3 then
      (List.range 8).foldl (fun b j =>
        if t0 % 64 ≤ 8 * j + 3 ∧ 8 * j + 3 < t % 64 then
          c.passSite v (site j) (crossNo true span (8 * j + 3 - t0 % 64) i) (tileRegion t) b
        else b) b
    else if d = 1 then
      (List.range 8).reverse.foldl (fun b j =>
        if t % 64 ≤ 8 * j + 3 ∧ 8 * j + 4 ≤ t0 % 64 then
          c.passSite v (site j) (crossNo false span (t0 % 64 - (8 * j + 4)) i) (tileRegion t) b
        else b) b
    else b

/-- Long line `n` of a row, in a tile of the row (08, R234). -/
def Chip.longLine (c : Chip) (rec : Node → Option Bool) (t n : Nat) : Option Bool :=
  c.sentTo rec (t - t % 64 + 4 * n) 56 (tileRegion t)

/-- Crosser `i` that arrives in a tile of row 0 or 31 (08, R235; 07: 0 from a sector that is not on). -/
def Chip.crosserIn (c : Chip) (rec : Node → Option Bool) (t i : Nat) : Option Bool :=
  let s := t / 2048
  let r := t % 2048 / 64
  if r = 0 then
    (if s = 0 ∨ !c.domOn (64 + s - 1) then some false else c.sentTo rec (t - 64) (57 + i) (tileRegion t))
  else if r = 31 then
    (if s = 7 ∨ !c.domOn (64 + s + 1) then some false else c.sentTo rec (t + 64) (57 + i) (tileRegion t))
  else some false

/-- The routing output of a macrocell (08, R222). -/
def Chip.mcOut (c : Chip) (v : FabVals) (rec : Node → Option Bool) (t m : Nat) : Option Bool :=
  if (c.mcWord t m).testBit 7 then some (v.qOf t m) else rec (.dval t m)

/-- What an endpoint select code takes (08, Table 8-7). -/
def Chip.slotRaw (c : Chip) (v : FabVals) (rec : Node → Option Bool) (t i : Nat) : Option Bool :=
  let k := c.tileBits t (15808 + 6 * i) 6
  if k = 0 then some false
  else if k ≤ 0x10 then c.mcOut v rec t (k - 1)
  else if k ≤ 0x20 then c.arrive v rec t ((k - 0x11) / 8) 1 ((k - 0x11) % 8)
  else if k ≤ 0x30 then c.arrive v rec t ((k - 0x21) / 8 + 2) 1 ((k - 0x21) % 8)
  else if k ≤ 0x34 then c.arrive v rec t (k - 0x31) 4 (i % 4)
  else if k ≤ 0x38 then c.arrive v rec t (k - 0x35) 16 (i % 2)
  else if k ≤ 0x3C then c.longLine rec t (4 * (i % 4) + (k - 0x39))
  else if k = 0x3D then some true
  else if k = 0x3E then c.crosserIn rec t (2 * i % 16)
  else c.crosserIn rec t ((2 * i + 1) % 16)

/-- An endpoint slot as its hard site sees it: 0 while its sector is off or held, the fence value while
its region is fenced (10, R297, R301). -/
def Chip.slot (c : Chip) (v : FabVals) (rec : Node → Option Bool) (t i : Nat) : Option Bool :=
  if !c.started (t / 2048) then some false
  else if c.regionFenced (tileRegion t) then c.regionFence (tileRegion t) (slotKey t i)
  else c.slotRaw v rec t i

/-- The output enable of a cell: none where it cannot be predicted (22, Table 22-8, R584; 17, R468). The boundary
register takes the cell from the fabric (20, R526; 22, R593). -/
def Chip.cellEnable (c : Chip) (v : FabVals) (rec : Node → Option Bool) (n : Nat) : Option Bool :=
  let w := (c.ioWord n).toNat
  if c.pin.scan ≠ 0 then some (c.bankUp n && c.pin.scan == 1 && c.pin.cells.getLsbD (3 * n + 2))
  else if c.ioStd n = 0 ∨ !c.bankUp n ∨ !c.domOn (64 + cellSector n) then some false
  else
    match bitsOf w 12 11 with
    | 1 => if w.testBit 14 then some (Store.get false c.fab.ioEn n) else c.slot v rec (cellTile n) (2 * (cellIndex n / 32) + 1)
    | 2 => some true
    | _ => some false

/-- The output data of a cell: launched at a pace edge, or the endpoint (04, R123). -/
def Chip.cellData (c : Chip) (v : FabVals) (rec : Node → Option Bool) (n : Nat) : Option Bool :=
  if c.pin.scan = 1 then some (c.pin.cells.getLsbD (3 * n + 1))
  else if (c.ioWord n).toNat.testBit 14 then some (Store.get false c.fab.ioData n)
  else c.slot v rec (cellTile n) (2 * (cellIndex n / 32))

/-- The level at a ball of a user I/O cell. -/
def Chip.cellLevel (c : Chip) (v : FabVals) (rec : Node → Option Bool) (n : Nat) : Option Bool :=
  match c.cellEnable v rec n with
  | some true => c.cellData v rec n
  | some false => c.ballLevel n
  | none => none

/-- The pin value as received: 0 where the cell is unused or its receiver off (22, R584). -/
def Chip.cellIn (c : Chip) (v : FabVals) (rec : Node → Option Bool) (n : Nat) : Option Bool :=
  if c.ioStd n = 0 ∨ !(c.ioWord n).getLsbD 10 then some false else c.cellLevel v rec n

/-- The tile and slot of signal `e` of master port `p` of sector `s` (08, Table 8-2). -/
def fmpSlot (s p e : Nat) : Nat × Nat := (2048 * s + 64 * (8 * p + e / 16 % 8) + 16 + e / 128, e % 16)

/-- The requests outstanding at a master port. -/
def FabVals.reqs (v : FabVals) (s p : Nat) : List FmpReq := Store.get [] v.port (4 * s + p)

/-- The tag of a request is outstanding: its RSP_LAST beat or a late beat is still to come (08, R249). -/
def FmpReq.outstanding (q : FmpReq) : Bool := !(q.lastDone && q.late.isEmpty && !q.lateDue)

/-- Nothing of a request is left: no beat to deliver and no write beat to take (08, R246, R247). -/
def FmpReq.done (q : FmpReq) : Bool := !q.outstanding && (!q.wr || decide (q.len ≤ q.beats.length))

/-- The beat that a port presents: a late beat of a delivered line first, else the next line of the oldest
request that has it (log entry 40). Tag, line, code, data, last, late. -/
def FabVals.beat (v : FabVals) (s p : Nat) : Option (Nat × Nat × Nat × BitVec 512 × Bool × Bool) :=
  let qs := v.reqs s p
  match qs.findSome? fun q => (q.late.head?).bind fun l => if l.1 < q.given then some (q.tag, l.1, l.2, (0 : BitVec 512), false, true) else none with
  | some b => some b
  | none => qs.findSome? fun q => (q.rsp.head?).bind fun r =>
      if r.1 = q.given ∨ q.refused.isSome then some (q.tag, r.1, r.2.1, r.2.2.1, r.2.2.2, false) else none

/-- The accepted write that still wants data beats (08, R246). -/
def FabVals.writing (v : FabVals) (s p : Nat) : Option FmpReq :=
  (v.reqs s p).find? fun q => q.wr && q.beats.length < q.len

/-- The port accepts requests at all (08, R245, R250). -/
def Chip.fmpOpen (c : Chip) (v : FabVals) (s p : Nat) : Bool :=
  c.domOn (64 + s) && c.works (pgFB s) && c.accepts (pgFB s) && c.bit FB_FMPCTL_EN (pgFB s) p &&
    decide (((v.reqs s p).filter FmpReq.outstanding).length < c.get FB_FMPCTL_MAXOUT (pgFB s) p + 1)

/-- Signal tap `e` of a master port (08, Table 8-10). -/
def Chip.fmpTap (c : Chip) (v : FabVals) (rec : Node → Option Bool) (s p e : Nat) : Option Bool :=
  let sig := fun i => let ts := fmpSlot s p i; c.slot v rec ts.1 ts.2
  let b := v.beat s p
  if e = 0 then
    if c.fmpOpen v s p then
      ((v.reqs s p).filter FmpReq.outstanding).foldl (fun a q => kAnd a (kNot ((List.range 5).foldl (fun m i =>
        kAnd m (kNot (kXor (sig (61 + i)) (some (q.tag.testBit i))))) (some true)))) (some true)
    else some false
  else if e = 1 then some (c.domOn (64 + s) && (v.writing s p).isSome)
  else
    match b with
    | none => some false
    | some (tag, line, code, data, last, late) =>
      some (if e = 2 then true else if e = 3 then last else if e = 4 then late
        else if e < 10 then tag.testBit (e - 5)
        else if e < 16 then line.testBit (e - 10)
        else if e < 24 then code.testBit (e - 16)
        else if e < 536 then data.getLsbD (e - 24)
        else false)

/-- Tap slot `i` of a tile (08, Table 8-2). -/
def Chip.tap (c : Chip) (v : FabVals) (rec : Node → Option Bool) (t i : Nat) : Option Bool :=
  let s := t / 2048
  let r := t % 2048 / 64
  let x := t % 64
  if x < 16 then some (c.groupOut (8 * s + x / 2) (512 * (x % 2) + 16 * r + i))
  else if x < 22 then c.fmpTap v rec s (r / 8) (128 * (x - 16) + 16 * (r % 8) + i)
  else if x = 63 then
    match cellOf s (32 * (i / 2) + r) with
    | none => some false
    | some n => if i % 2 = 0 then c.cellIn v rec n else some (Store.get false v.cap n)
  else some false

/-- What a wire driver's select code takes (08, Table 8-6). -/
def Chip.wireSel (c : Chip) (v : FabVals) (rec : Node → Option Bool) (t i code : Nat) : Option Bool :=
  if code = 0 then some false
  else if code ≤ 0x10 then c.mcOut v rec t (code - 1)
  else if code < 0x15 then c.arrive v rec t (code - 0x11) 1 (i % 8)
  else if code < 0x19 then c.arrive v rec t (code - 0x15) 4 (i % 4)
  else if code < 0x1D then c.arrive v rec t (code - 0x19) 16 (i % 2)
  else if code = 0x1D then c.tap v rec t (2 * i % 16)
  else if code = 0x1E then c.tap v rec t ((2 * i + 1) % 16)
  else c.longLine rec t (i % 16)

/-- What LB input `i` receives (08, Table 8-7). -/
def Chip.lbInput (c : Chip) (v : FabVals) (rec : Node → Option Bool) (t i : Nat) : Option Bool :=
  let k := c.tileBits t (15104 + 6 * i) 6
  if k = 0 then some false
  else if k ≤ 0x10 then c.arrive v rec t ((k - 1) / 8) 1 ((k - 1) % 8)
  else if k ≤ 0x20 then c.arrive v rec t ((k - 0x11) / 8 + 2) 1 ((k - 0x11) % 8)
  else if k ≤ 0x30 then c.arrive v rec t ((k - 0x21) / 4) 4 ((k - 0x21) % 4)
  else if k ≤ 0x34 then c.arrive v rec t ((k - 0x31) / 2) 16 ((k - 0x31) % 2)
  else if k ≤ 0x38 then c.arrive v rec t ((k - 0x35) / 2 + 2) 16 ((k - 0x35) % 2)
  else if k ≤ 0x3C then c.longLine rec t (4 * (i % 4) + (k - 0x39))
  else if k = 0x3D then some true
  else if k = 0x3E then c.crosserIn rec t (2 * i % 16)
  else c.crosserIn rec t ((2 * i + 1) % 16)

/-- The feedback of a macrocell to the array (08, R222). -/
def Chip.feedback (c : Chip) (v : FabVals) (rec : Node → Option Bool) (t m : Nat) : Option Bool :=
  if (c.mcWord t m).testBit 8 then some (v.qOf t m) else rec (.dval t m)

/-- Signal `x` of the product-term array (08, R220). -/
def Chip.signal (c : Chip) (v : FabVals) (rec : Node → Option Bool) (t x : Nat) : Option Bool :=
  if x < 48 then c.lbInput v rec t x else c.feedback v rec t (x - 48)

/-- Wide-multiplexer mode of an LB (08, R231). -/
def Chip.wmux (c : Chip) (t : Nat) : Bool := (c.tileBits t 15424 16).testBit 0

/-- Combined mode of an LB (08, R231). -/
def Chip.comb (c : Chip) (t : Nat) : Bool := (c.tileBits t 15424 16).testBit 1

/-- The inputs from `lo` read as a number equal `x` (08, R229, R230). -/
def Chip.inputsAre (c : Chip) (v : FabVals) (rec : Node → Option Bool) (t lo w x : Nat) : Option Bool :=
  (List.range w).foldl (fun a i => kAnd a (kNot (kXor (c.lbInput v rec t (lo + i)) (some (x.testBit i))))) (some true)

/-- Product term `p` of an LB (08, R220, R229). -/
def Chip.productTerm (c : Chip) (v : FabVals) (rec : Node → Option Bool) (t p : Nat) : Option Bool :=
  if c.wmux t && decide (80 ≤ p) && decide (p < 96) then
    kAnd (c.lbInput v rec t (p - 80)) (c.inputsAre v rec t 16 4 (p - 80))
  else
    let w := c.tileBits t (128 * p) 128
    (setBitsOf 128 w).foldl (fun a l =>
      let b := c.signal v rec t (l / 2)
      kAnd a (if l % 2 = 0 then b else kNot b)) (some true)

/-- The gated 16-way term of an LB in wide-multiplexer mode (08, R229, R230). -/
def Chip.wideTerm (c : Chip) (v : FabVals) (rec : Node → Option Bool) (t : Nat) : Option Bool :=
  let o := (List.range 16).foldl (fun a i => kOr a (c.productTerm v rec t (80 + i))) (some false)
  if c.comb t then kAnd o (c.inputsAre v rec t 20 2 (t % 2048 / 64 % 4)) else o

/-- The sum of a macrocell (08, R221, R222, R223, R229, R230). -/
def Chip.sumOf (c : Chip) (v : FabVals) (rec : Node → Option Bool) (t m : Nat) : Option Bool :=
  let w := c.mcWord t m
  let role := fun k => (k == 0 && bitsOf w 6 5 == 2) || (k == 2 && bitsOf w 16 14 == 5) ||
    (k == 3 && w.testBit 13) || (k == 4 && w.testBit 11)
  let own := (List.range 5).foldl (fun a k =>
    if w.testBit k && !role k then kOr a (c.productTerm v rec t (5 * m + k)) else a) (some false)
  let wide := c.wmux t
  let pool := (List.range 32).foldl (fun a i =>
    let st := c.tileBits t (14848 + 8 * i) 8
    if st.testBit 4 && st % 16 == m && !(wide && decide (i < 16)) then kOr a (c.productTerm v rec t (80 + i)) else a) own
  if wide ∧ m = 0 then
    let mine := c.wideTerm v rec t
    let j := t % 2048 / 64 % 4
    if c.comb t ∧ j = 0 then
      kOr pool ((List.range 3).foldl (fun a i =>
        let u := t + 64 * (i + 1)
        if c.wmux u && c.comb u then kOr a (c.wideTerm v rec u) else a) mine)
    else kOr pool mine
  else pool

/-- One point from the points below it. -/
def Chip.evalNode (c : Chip) (v : FabVals) (rec : Node → Option Bool) : Node → Option Bool
  | .drv t k =>
    if k < 56 then
      let i := if k < 32 then k % 8 else if k < 48 then k % 4 else k % 2
      c.wireSel v rec t i (c.tileBits t (15440 + 5 * k) 5)
    else if k = 56 then c.wireSel v rec t (t % 64 / 4) (c.tileBits t 15720 5)
    else c.wireSel v rec t (k - 57) (c.tileBits t (15728 + 5 * (k - 57)) 5)
  | .dval t m =>
    let x :=
      match bitsOf (c.mcWord t m) 6 5 with
      | 0 => some false
      | 1 => some true
      | 2 => c.productTerm v rec t (5 * m)
      | _ => some (v.qOf t m)
    kXor (c.sumOf v rec t m) x

/-- A point, by recursion to a depth that no loop-free configuration reaches; a loop has no
predictable value (08, R233). -/
def Chip.fabVal (c : Chip) (v : FabVals) : Nat → Node → Option Bool
  | 0, _ => none
  | n + 1, x => c.evalNode v (c.fabVal v n) x

/-- More than the drivers and macrocells that a device has. -/
def fabDepth : Nat := 2 ^ 21

/-- An endpoint slot as its hard site sees it. -/
def Chip.endpoint (c : Chip) (v : FabVals) (t i : Nat) : Option Bool := c.slot v (c.fabVal v fabDepth) t i

/-- A product term. -/
def Chip.term (c : Chip) (v : FabVals) (t p : Nat) : Option Bool := c.productTerm v (c.fabVal v fabDepth) t p

/-- Crossing wire `w` of a site as its driver sends it (09, Table 9-2). -/
def Chip.siteCross (c : Chip) (v : FabVals) (n w : Nat) : Option Bool :=
  let rc := c.fabVal v fabDepth
  let t0 := 2048 * (n / 256) + 64 * (n % 32)
  let j := n % 256 / 32
  let east := fun (a k : Nat) => if a ≤ 8 * j + 3 then c.sentTo rc (t0 + (8 * j + 3 - a)) k (siteRegion n) else some false
  let west := fun (a k : Nat) => if 8 * j + 4 + a < 64 then c.sentTo rc (t0 + (8 * j + 4 + a)) k (siteRegion n) else some false
  if w < 8 then east 0 (driverNo 1 1 w)
  else if w < 16 then west 0 (driverNo 3 1 (w - 8))
  else if w < 32 then east ((w - 16) / 4) (driverNo 1 4 (w % 4))
  else if w < 48 then west ((w - 32) / 4) (driverNo 3 4 (w % 4))
  else if w < 80 then east ((w - 48) / 2) (driverNo 1 16 (w % 2))
  else west ((w - 80) / 2) (driverNo 3 16 (w % 2))

/-- Site input `i` of Table 9-3 (09, R254). -/
def Chip.siteIn (c : Chip) (v : FabVals) (n i : Nat) : Option Bool :=
  let code := c.siteBits n (8 * i) 8
  if code = 0 then some false
  else if code ≤ 0x70 then c.siteCross v n (code - 1)
  else if code ≤ 0x80 then
    c.sentTo (c.fabVal v fabDepth) (2048 * (n / 256) + 64 * (n % 32) + 4 * (code - 0x71)) 56 (siteRegion n)
  else some (code == 0x81)

/-- Site inputs `lo` to `lo + w - 1`, sampled. -/
def Chip.siteSample (c : Chip) (v : FabVals) (n lo w : Nat) : Nat × Chip :=
  c.takeBits ((List.range w).map fun i => c.siteIn v n (lo + i))

/-- The group input bits that the fabric drives (08, Table 8-2; 04, R113). -/
def Chip.groupIn (c : Chip) (g : Nat) : BitVec 1024 × Chip :=
  let (x, c) := c.takeBits ((List.range 1024).map fun i =>
    c.endpoint c.fab.now (2048 * (g / 8) + 64 * (i / 16 % 32) + 2 * (g % 8) + i / 512) (i % 16))
  (BitVec.ofNat 1024 x, c)

/-! ## Set/reset trees and clocks -/

/-- Driver level of GSRn (08, R241). -/
def Chip.gsrDrv (c : Chip) (v : FabVals) (n : Nat) : Option Bool := c.endpoint v (33 + n) 0

/-- Level of GSRn in a sector (08, R241). -/
def Chip.gsr (c : Chip) (v : FabVals) (s n : Nat) : Option Bool :=
  kOr (kAnd (c.gsrDrv v n) (some !(c.get FB_GSRCTL_MASK (pgFB s)).testBit n)) (some ((c.get FB_GSRCTL_FRC (pgFB s)).testBit n))

/-- The asynchronous set/reset source of a macrocell (08, R225). -/
def Chip.setReset (c : Chip) (v : FabVals) (t m : Nat) : Option Bool :=
  let k := bitsOf (c.mcWord t m) 16 14
  if 1 ≤ k ∧ k ≤ 4 then c.gsr v (t / 2048) (k - 1)
  else if k = 5 then c.term v t (5 * m + 2)
  else some false

/-- The LBs with a configuration bit in effect. -/
def Chip.usedTiles (c : Chip) : List Nat :=
  (c.fab.cfg.filterMap fun kv =>
    let F := kv.1 / 64
    if F < 67584 ∧ F % 8448 < 8192 then some (2048 * (F / 8448) + F % 8448 / 4) else none).eraseDups

/-- The macrocells that an asynchronous set/reset may act on. -/
def Chip.asyncCells (c : Chip) : List (Nat × Nat) :=
  c.usedTiles.flatMap fun t =>
    if c.regionLive (tileRegion t) then
      ((List.range 16).filter fun m => let k := bitsOf (c.mcWord t m) 16 14; 1 ≤ k && k ≤ 5).map fun m => (t, m)
    else []

/-- A flip-flop takes a value. -/
def Chip.setQ (c : Chip) (t m : Nat) (b : Bool) : Chip :=
  { c with fab := { c.fab with now := { c.fab.now with q := Store.put false c.fab.now.q (16 * t + m) b } } }

/-- One pass of the asynchronous set/reset sources over their flip-flops (08, R225). -/
def Chip.asyncPass (c : Chip) (cells : List (Nat × Nat)) : Chip :=
  cells.foldl (fun d tm =>
    let (b, d) := d.take (d.setReset d.fab.now tm.1 tm.2)
    if b then d.setQ tm.1 tm.2 ((d.mcWord tm.1 tm.2).testBit 17) else d) c

/-- The flip-flops settle under their asynchronous set/reset sources (08, R225, R226): as many passes as
there are such flip-flops, so that every chain of them settles. -/
def Chip.settle (c : Chip) : Chip :=
  let cells := c.asyncCells
  cells.foldl (fun d _ => d.asyncPass cells) c

/-- A select code of R238 in a sector names this clock, and the clock reaches the sector (08, R239). -/
def Chip.clkIs (c : Chip) (s code : Nat) (k : ClkSrc) : Bool :=
  match k with
  | .gclk n => code == n && n < 8 && (c.get FB_GCLKEN_EN (pgFB s)).testBit n
  | .tree s' n => s == s' && code == 8 + n && n < 16
  | .term _ _ => false

/-- Macrocell `m` of LB `t` is clocked by an edge of this clock (08, R224, R238). -/
def Chip.mcClocked (c : Chip) (t m : Nat) (k : ClkSrc) (rising : Bool) : Bool :=
  let w := c.mcWord t m
  (w.testBit 12 != rising) &&
    (if w.testBit 11 then k == .term t m
     else c.clkIs (t / 2048) (c.tileBits t (15392 + 5 * bitsOf w 10 9) 5) k)

/-- Levels that the board drives on user I/O balls. -/
def Chip.setPins (c : Chip) (ps : List (Nat × Bool)) : Chip :=
  { c with pin := { c.pin with io := ps.foldl (fun io p => Store.insert io p.1 p.2) c.pin.io } }

/-- A clock edge begins; an edge of the same moment as the one before samples what stood before both. -/
def Chip.edgeBegins (c : Chip) (same : Bool) : Chip :=
  if same then c else { c with fab := { c.fab with pre := c.fab.now, wrote := [], taken := [] } }

/-- The fabric clocks run: no freeze has stopped them (20, R545). -/
def Chip.fabClocks (c : Chip) : Bool := c.stepsRun

/-- The clock source is at the level that its edge leaves. -/
def Chip.clkLevel (c : Chip) (k : ClkSrc) : Option Bool :=
  match k with
  | .gclk _ => none
  | .tree s n => c.endpoint c.fab.now (2048 * s + 64 * (2 * n) + 32) 0
  | .term t m => c.term c.fab.now t (5 * m + 4)

/-- An edge of a fabric clock, with the levels that stand on the user I/O: the macrocells clocked by it
take D or keep Q (08, R224, R226). -/
def Chip.clockEdge (c : Chip) (k : ClkSrc) (rising same : Bool) (pins : List (Nat × Bool)) : Chip :=
  if !c.fabClocks then c
  else
    let c := ((c.setPins pins).edgeBegins same).settle
    if (c.clkLevel k).all (· == rising) then
      let v := c.fab.pre
      let cells := c.usedTiles.flatMap fun t =>
        if c.regionLive (tileRegion t) then ((List.range 16).filter fun m => c.mcClocked t m k rising).map fun m => (t, m) else []
      let c := cells.foldl (fun d tm =>
        let w := d.mcWord tm.1 tm.2
        let (en, d) := if w.testBit 13 then d.take (d.term v tm.1 (5 * tm.2 + 3)) else (true, d)
        if en then
          let (b, d) := d.take (d.fabVal v fabDepth (.dval tm.1 tm.2))
          d.setQ tm.1 tm.2 b
        else d) c
      c.settle
    else c

/-! ## Pace edges at the I/O cells (04, R123, R602; 22, R584) -/

/-- A pace input delivers (04, R118, R602). -/
def Chip.paceDelivers (c : Chip) (p : Nat) : Bool :=
  c.started (p / 2) && (c.ioStd (paceCell p) != 0) && (c.ioWord (paceCell p)).getLsbD 10

/-- A transition of a pace input, with the levels that stand on the user I/O. `held` says that the input
has held one level for 5 ns since it began to deliver (04, R602). -/
def Chip.paceEdge (c : Chip) (p : Nat) (rising held : Bool) (pins : List (Nat × Bool)) : Chip :=
  let c := (c.setPins pins).settle
  if held && decide (p < 16) && c.paceDelivers p && c.fabClocks && c.get GL_FRZSTS_STATE pgGL == 0 then
    let v := c.fab.now
    let hit := fun (d : Chip) n =>
      let q := d.ioPace n
      q.1 == p && (if rising then q.2.1 else q.2.2) && d.started (cellSector n) && d.ioStd n != 0
    let c := c.each (List.range 480) fun d n =>
      let w := (c.ioWord n).toNat
      if hit c n then
        let d := if w.testBit 13 then
            let (b, d) := d.take (c.cellIn v (c.fabVal v fabDepth) n)
            { d with fab := { d.fab with now := { d.fab.now with cap := Store.put false d.fab.now.cap n b } } }
          else d
        if w.testBit 14 then
          let (b, d) := d.take (c.endpoint v (cellTile n) (2 * (cellIndex n / 32)))
          let d := { d with fab := { d.fab with ioData := Store.put false d.fab.ioData n b } }
          if bitsOf w 12 11 = 1 then
            let (b, d) := d.take (c.endpoint v (cellTile n) (2 * (cellIndex n / 32) + 1))
            { d with fab := { d.fab with ioEn := Store.put false d.fab.ioEn n b } }
          else d
        else d
      else d
    c.settle
  else c

/-! ## Holds, fences and START (10, R297 to R304; 09, R262, R270) -/

/-- A region's flip-flops and sites return to their held state: Q, DO and slice state 0 (10, R299). -/
def Chip.holdRegion (c : Chip) (r : Nat) : Chip :=
  let v := c.fab.now
  { c with fab := { c.fab with now := { v with
      q := Store.drop (fun k => tileRegion (k / 16) == r) v.q,
      core := Store.drop (fun k => siteRegion (k / 2) == r) v.core,
      oreg := Store.drop (fun k => siteRegion (k / 2) == r) v.oreg,
      slice := Store.drop (fun k => siteRegion k == r) v.slice,
      coef := Store.drop (fun k => siteRegion (k / 32) == r) v.coef } } }

/-- What every wire and slot of a region carries, as a hold fence keeps it (10, R301, Table 10-9). -/
def Chip.holdValues (c : Chip) (r : Nat) : List (Nat × Bool) × Chip :=
  let v := c.fab.now
  let rc := c.fabVal v fabDepth
  let tiles := (List.range 128).map fun i => 2048 * (r / 16) + 64 * (8 * (r % 16 / 4) + i / 16) + 16 * (r % 4) + i % 16
  let sites := (List.range 16).map fun i => 256 * (r / 16) + 32 * (2 * (r % 4) + i / 8) + 8 * (r % 16 / 4) + i % 8
  let pts := (tiles.flatMap fun t =>
      ((List.range 73).map fun k => (wireKey t k, rc (.drv t k))) ++
      ((List.range 16).map fun i => (slotKey t i, c.slot v rc t i))) ++
    (sites.flatMap fun n => (List.range 112).map fun w =>
      (crossKey n w, c.passSite v n w (siteRegion n) (c.siteCross v n w)))
  pts.foldl (fun (a : List (Nat × Bool) × Chip) p =>
    let (b, d) := a.2.take p.2
    (Store.put false a.1 p.1 b, d)) (Store.drop (fun k =>
      (if k < 2 ^ 24 then tileRegion (k / 128) else siteRegion ((k - 2 ^ 24) / 128)) == r) c.fab.rHold, c)

/-- The fence of a region rises; its code is sampled (10, R301). -/
def Chip.raiseRegion (c : Chip) (r : Nat) : Chip :=
  let code := bitsOf (c.get CF_RFNC_CODE pgCF (r / 16)) (2 * (r % 16) + 1) (2 * (r % 16))
  let (held, c) := if code = 1 then c.holdValues r else (c.fab.rHold, c)
  let c := { c with fab := { c.fab with rHold := held, rCode := Store.put 0 c.fab.rCode r code } }
  c.orBits CF_RFUP_UP pgCF (2 ^ (r % 32)) (r / 32)

/-- The fence of a region drops. -/
def Chip.dropRegion (c : Chip) (r : Nat) : Chip :=
  c.set CF_RFUP_UP pgCF (setBit (c.get CF_RFUP_UP pgCF (r / 32)) (r % 32) false) (r / 32)

/-- The fence of a group rises: at a PARTIAL that names it, or when its domain leaves the on state
(10, R301, R303). -/
def Chip.raiseGroup (c : Chip) (g : Nat) : Chip :=
  if c.groupFenced g then c
  else
    let code := bitsOf (c.get CF_GFNC_CODE pgCF (g / 16)) (2 * (g % 16) + 1) (2 * (g % 16))
    let held : BitVec 1024 := BitVec.ofNat 1024 (ofBits (fun i => c.groupOut g i) 1024)
    let c := { c with fab := { c.fab with gCode := Store.put 0 c.fab.gCode g code,
                                          gHold := if code = 1 then Store.put 0 c.fab.gHold g held else c.fab.gHold } }
    if g < 32 then c.orBits CF_GFUPL_UP pgCF (2 ^ g) else c.orBits CF_GFUPH_UP pgCF (2 ^ (g - 32))

/-- The fence of a group drops (10, R303). -/
def Chip.dropGroup (c : Chip) (g : Nat) : Chip :=
  if g < 32 then c.set CF_GFUPL_UP pgCF (setBit (c.get CF_GFUPL_UP pgCF) g false)
  else c.set CF_GFUPH_UP pgCF (setBit (c.get CF_GFUPH_UP pgCF) (g - 32) false)

/-- A sector returns to the held state; its region fences drop (10, R297, R304). Block RAM words and
configuration memory are kept. -/
def Chip.holdSector (c : Chip) (s : Nat) : Chip :=
  let c := (c.setB FB_STATE_STARTED (pgFB s) false).each ((List.range 16).map (16 * s + ·)) fun c r => (c.holdRegion r).dropRegion r
  let mine := fun n => cellSector n == s
  { c with fab := { c.fab with
      regHeld := c.fab.regHeld.filter fun r => r / 16 != s,
      ioWord := Store.drop mine c.fab.ioWord,
      ioOpt := c.fab.ioOpt.filter fun n => !mine n,
      ioData := Store.drop mine c.fab.ioData,
      ioEn := Store.drop mine c.fab.ioEn,
      now := { c.fab.now with cap := Store.drop mine c.fab.now.cap } } }

/-- A sector's domain loses its power: configuration memory, block RAMs and everything else of it
return to what they read with nothing written (01, R31; log entry 5). -/
def Chip.loseSector (c : Chip) (s : Nat) : Chip :=
  let c := c.holdSector s
  let bankSec := fun b => cellSector (24 * b)
  { c with fab := { c.fab with
      cfg := Store.drop (fun k => let F := k / 64; if F < 67584 then F / 8448 == s else bankSec (F - 67584) == s) c.fab.cfg,
      seq := Store.drop (fun k => k / 16 == s) c.fab.seq,
      now := { c.fab.now with ram := Store.drop (fun k => k / 512 / 256 == s) c.fab.now.ram,
                              port := Store.drop (fun k => k / 4 == s) c.fab.now.port } } }

/-- The word of a cell in configuration memory (10, R286). -/
def Chip.cfgCell (c : Chip) (n : Nat) : BitVec 128 :=
  BitVec.ofNat 128 (ofBits (fun i => c.cfgBit (67584 + n / 24) (128 * (n % 24) + i)) 128)

/-- The words of cells take effect, and each samples GL_OPTIN.PACEDG (22, R584). A cell that leaves pace
clocking, or newly enters it, keeps what it has launched. -/
def Chip.cellsTake (c : Chip) (ns : List Nat) : Chip :=
  let opt := c.bit GL_OPTIN_PACEDG pgGL
  c.each ns fun c n =>
    { c with fab := { c.fab with
        ioWord := Store.put 0 c.fab.ioWord n (c.cfgCell n),
        ioOpt := if opt then (if c.fab.ioOpt.contains n then c.fab.ioOpt else c.fab.ioOpt ++ [n]) else c.fab.ioOpt.filter (· != n) } }

/-- The flip-flops of a region load INIT, or SRVAL where their set/reset source is 1 (08, R226; 10,
Table 10-8). -/
def Chip.loadInit (c : Chip) (r : Nat) : Chip :=
  let c := (c.usedTiles.filter fun t => tileRegion t == r).foldl (fun d t =>
    (List.range 16).foldl (fun d m => d.setQ t m ((d.mcWord t m).testBit 18)) d) c
  c

/-- START in a sector: the edges E_S, E_S + 1 and E_S + 2 of GCLK0 (10, Table 10-8). -/
def Chip.startSector (c : Chip) (s : Nat) : Chip :=
  let c := c.setB FB_STATE_STARTED (pgFB s) true
  let c := c.each ((List.range 16).map (16 * s + ·)) Chip.loadInit
  c.settle.cellsTake ((List.range 480).filter fun n => cellSector n == s)

/-- START of named regions of a sector at the end of a partial stream: flip-flops load, fences drop, the
cell words that the stream wrote take effect (10, R302). -/
def Chip.startRegions (c : Chip) (rs cells : List Nat) : Chip :=
  let c := { c with fab := { c.fab with regHeld := c.fab.regHeld.filter fun r => !rs.contains r } }
  let c := c.each rs Chip.loadInit
  let c := c.settle.each rs Chip.dropRegion
  c.settle.cellsTake cells

end Sys2Proof.Machine
end

