-- ==== Sys2Proof/Machine/Sites.lean ====
section
/-! DEFINITION. Block RAMs and arithmetic slices of the fabric's site pairs (09). -/
namespace Sys2Proof.Machine

/-- A clock select code of a site gives edges: the clock exists and reaches the sector (08, R238, R239). -/
def Chip.siteClock (c : Chip) (s code : Nat) : Bool :=
  if code < 8 then (c.get FB_GCLKEN_EN (pgFB s)).testBit code else decide (code < 0x18)

/-! ## Block RAM words (09, R257, R258, R261) -/

/-- Width, depth and bits of a write lane by width code; no access under code 7 (09, Table 9-5). -/
def ramShape : Nat → Option (Nat × Nat × Nat)
  | 0 => some (1, 32768, 1)
  | 1 => some (2, 16384, 2)
  | 2 => some (4, 8192, 4)
  | 3 => some (9, 4096, 9)
  | 4 => some (18, 2048, 9)
  | 5 => some (36, 1024, 9)
  | 6 => some (72, 512, 9)
  | _ => none

/-- The first array bit of word `w` at a width (09, R258). -/
def ramBase (width w : Nat) : Nat := if 9 ≤ width then width * w else 9 * (width * w / 8) + width * w % 8

/-- A 72-bit array word of a block RAM. -/
def FabVals.ramWord (v : FabVals) (n w : Nat) : BitVec 72 := Store.get 0 v.ram (512 * n + w)

/-- An array word takes a value. -/
def Chip.setRam (c : Chip) (n w : Nat) (x : BitVec 72) : Chip :=
  { c with fab := { c.fab with now := { c.fab.now with ram := Store.put 0 c.fab.now.ram (512 * n + w) x } } }

/-- The `width` array bits from `lo`, which lie in one array word. -/
def FabVals.ramBits (v : FabVals) (n lo width : Nat) : Nat := bitsOf (v.ramWord n (lo / 72)).toNat (lo % 72 + width - 1) (lo % 72)

/-- Array bits from `lo` take the bits of `x` that `mask` names. -/
def Chip.setRamBits (c : Chip) (n lo mask x : Nat) : Chip :=
  let w := (c.fab.now.ramWord n (lo / 72)).toNat
  let m := mask <<< (lo % 72)
  c.setRam n (lo / 72) (BitVec.ofNat 72 ((w &&& ((2 ^ 72 - 1) ^^^ m)) ||| ((x <<< (lo % 72)) &&& m)))

/-- ECC is in force in a block RAM (09, R261). -/
def Chip.ramEcc (c : Chip) (n : Nat) : Bool :=
  let w := c.siteBits n 3176 64
  w.testBit 12 && w % 8 == 6 && w / 8 % 8 == 6

/-- What a port presents of a word read under ECC: corrected data, stored check bits, SBE and DBE. -/
def eccDo (w : BitVec 72) : BitVec 74 :=
  let e := eccDecode w
  BitVec.ofNat 74 (e.data.toNat + w.toNat / 2 ^ 64 * 2 ^ 64 + b2n e.isFixed * 2 ^ 72 + b2n e.isBad * 2 ^ 73)

/-- A corrected or an uncorrectable read of a block RAM is counted and reported (09, R261, R280). -/
def Chip.ramFlags (c : Chip) (n : Nat) (d : BitVec 74) : Chip :=
  let p := pgBR (n / 256)
  let m := n % 256
  let c := if d.getLsbD 72 then
      (((c.orBits BR_CESTK_CE p (2 ^ (m % 32)) (m / 32)).count BR_CECNT_COUNT p).report p 0)
    else c
  if d.getLsbD 73 then (c.orBits BR_UESTK_UE p (2 ^ (m % 32)) (m / 32)).report p 1 else c

/-- The write mask of a port in its word (09, Table 9-5, R261). -/
def laneMask (ecc : Bool) (width lane we : Nat) : Nat :=
  if ecc ∨ width < 18 then (if we.testBit 0 then 2 ^ width - 1 else 0)
  else ofBits (fun i => we.testBit (i / lane)) width

/-! ## A port's clock edge (09, R259 to R262) -/

/-- What a port presents at an edge: enable, address, write lanes, data in, reset of its output. -/
structure PortIn where
  en : Bool := false
  addr : Nat := 0
  we : Nat := 0
  di : Nat := 0
  orst : Bool := false
  deriving DecidableEq, Repr

/-- Both ports of a block RAM take the same clock (09, R260). -/
def Chip.ramOneClock (c : Chip) (n : Nat) : Bool :=
  let w := c.siteBits n 3176 64
  let a := if w.testBit 23 then 32 else bitsOf w 17 13
  let b := if w.testBit 24 || (n % 16 == 15 && c.hasSeq n) then 32 else bitsOf w 22 18
  a == b

/-- Bits of a word that both ports touch at edges that fall together and are not one edge: each is open
(09, R260). -/
def Chip.openBits (c : Chip) (x y mask width : Nat) : Nat × Chip :=
  (List.range width).foldl (fun (a : Nat × Chip) i =>
    if mask.testBit i && x.testBit i != y.testBit i then
      let (b, d) := a.2.drawBit
      (setBit a.1 i b, d)
    else a) (x, c)

/-- The array bits that the other port wrote at this edge, as a mask over the `width` bits from `lo`. -/
def Chip.otherWrote (c : Chip) (n port lo width : Nat) : Nat :=
  (c.fab.wrote.filter fun w => w.1 == 2 * n + (1 - port)).foldl (fun a w =>
    a ||| ((w.2.2 <<< w.2.1) >>> lo) % 2 ^ width) 0

/-- The rising edge of a port's clock (09, R259, R260, R261). -/
def Chip.portEdge (c : Chip) (n port : Nat) (x : PortIn) : Chip :=
  let word := c.siteBits n 3176 64
  let k := 2 * n + port
  let core := Store.get 0 c.fab.now.core k
  let oreg := word.testBit (10 + port)
  let c :=
    match ramShape (if port = 0 then word % 8 else word / 8 % 8) with
    | none => c
    | some (width, depth, lane) =>
      if x.en && !(port == 1 && c.fab.taken.contains n) then
        let ecc := c.ramEcc n
        let lo := ramBase width (x.addr % depth)
        let mask := laneMask ecc width lane x.we
        let one := c.ramOneClock n
        let other := c.otherWrote n port lo width
        let old := c.fab.pre.ramBits n lo width
        let (old, c) := if one then (old, c) else c.openBits old (c.fab.now.ramBits n lo width) other width
        let di := if ecc then (secded (BitVec.ofNat 64 x.di)).toNat else x.di % 2 ^ width
        -- lanes that port A writes at the same edge take its data; of two clocks, either value may stay
        let lose := if port = 1 ∧ one then mask &&& other else 0
        let (di', c) := if one then (di, c) else c.openBits di (c.fab.now.ramBits n lo width) (mask &&& other) width
        let c := c.setRamBits n lo (mask ^^^ lose) di'
        let c := { c with fab := { c.fab with wrote := c.fab.wrote ++ (if mask = 0 then [] else [(k, lo, mask)]) } }
        let after := (old &&& ((2 ^ width - 1) ^^^ mask)) ||| (di &&& mask)
        let mode := bitsOf word (7 + 2 * port) (6 + 2 * port)
        let shown := if mode = 0 then some after else if mode = 1 then some old
          else if mask = 0 then some old else none
        match shown with
        | none => c
        | some v =>
          let d : BitVec 74 := if ecc then eccDo (BitVec.ofNat 72 v) else BitVec.ofNat 74 v
          ({ c with fab := { c.fab with now := { c.fab.now with core := Store.put 0 c.fab.now.core k d } } }).ramFlags n d
      else c
  let v := c.fab.now
  if oreg then
    { c with fab := { c.fab with now := { v with oreg := Store.put 0 v.oreg k (if x.orst then 0 else core) } } }
  else if x.orst then { c with fab := { c.fab with now := { v with core := Store.put 0 v.core k 0 } } }
  else c

/-- Data in of a port: Z of the pair's slice in DIA[35:0] under ZWA (09, Table 9-6). -/
def Chip.portDi (c : Chip) (n port : Nat) : Nat × Chip :=
  let v := c.fab.pre
  let (d, c) := c.siteSample v n (if port = 0 then 15 else 112) 72
  if port = 0 ∧ (c.siteBits n 3176 64).testBit 25 then
    (d / 2 ^ 36 * 2 ^ 36 + (Store.get {} v.slice n).z.toNat, c)
  else (d, c)

/-- A port is served by the cluster's sequencer: SEQA or SEQB, or the program RAM's port B (09, R271). -/
def Chip.portSeq (c : Chip) (n port : Nat) : Bool :=
  (c.siteBits n 3176 64).testBit (23 + port) || (port == 1 && n % 16 == 15 && c.hasSeq n)

/-- The sequencer of a cluster is running (09, AS_SEQSTS). -/
def Chip.seqActive (c : Chip) (cl : Nat) : Bool :=
  let s := c.get AS_SEQSTS_STATE (pgAS (cl / 16)) (cl % 16)
  s == 1 || s == 2

/-- The edge of a block RAM port's clock (09, R259, R262): under routing control with the inputs that the
routing presents; a port of a sequencer that does not run is not enabled. -/
def Chip.bramEdge (c : Chip) (n : Nat) (b same : Bool) : Chip :=
  let port := b2n b
  let word := c.siteBits n 3176 64
  if n < 2048 && c.regionLive (siteRegion n) && c.fabClocks then
    if c.portSeq n port then
      if c.seqActive (clusterOf n) then c
      else
        let c := c.edgeBegins same
        let (r, c) := c.take (c.siteIn c.fab.pre n (96 + 97 * port))
        c.portEdge n port { orst := r }
    else if c.siteClock (n / 256) (bitsOf word (17 + 5 * port) (13 + 5 * port)) then
      let c := c.edgeBegins same
      let v := c.fab.pre
      let (en, c) := c.take (c.siteIn v n (95 + 97 * port))
      let (r, c) := c.take (c.siteIn v n (96 + 97 * port))
      let (a, c) := c.siteSample v n (97 * port) 15
      let (we, c) := c.siteSample v n (87 + 97 * port) 8
      let (di, c) := c.portDi n port
      c.portEdge n port { en := en, addr := a, we := we, di := di, orst := r }
    else c
  else c

/-! ## Window access (09, R263, R264) -/

/-- Byte `a` of a block RAM's window: array bits 8a to 8a + 7. -/
def FabVals.ramByte (v : FabVals) (n a : Nat) : Nat := v.ramBits n (8 * a) 8

/-- A 64-byte line of the window as stored (09, R263). -/
def Chip.windowRead (c : Chip) (n line : Nat) : BitVec 512 :=
  BitVec.ofNat 512 ((List.range 64).foldl (fun a i => a + c.fab.now.ramByte n (64 * line + i) * 2 ^ (8 * i)) 0)

/-- A line of a window write under its byte mask; under ECC a read-modify-write of each word touched
(09, R263, R264). The flag says that a word was uncorrectable. -/
def Chip.windowWrite (c : Chip) (n line : Nat) (data : BitVec 512) (mask : BitVec 64) : Chip × Bool :=
  let bits := ofBits (fun i => mask.getLsbD (i / 8)) 512
  let lo := 512 * line
  (List.range 9).foldl (fun (a : Chip × Bool) i =>
    let w := lo / 72 + i
    -- the part of array word w that the line covers
    let m := if lo ≤ 72 * w then (bits >>> (72 * w - lo)) % 2 ^ 72 else (bits <<< (lo - 72 * w)) % 2 ^ 72
    let d := if lo ≤ 72 * w then (data.toNat >>> (72 * w - lo)) % 2 ^ 72 else (data.toNat <<< (lo - 72 * w)) % 2 ^ 72
    if m = 0 ∨ 512 ≤ w then a
    else
      let old := a.1.fab.now.ramWord n w
      let put := fun (o : Nat) => (o &&& ((2 ^ 72 - 1) ^^^ m)) ||| (d &&& m)
      if a.1.ramEcc n then
        match eccDecode old with
        | .bad _ => (a.1, true)
        | e => (a.1.setRam n w (secded (BitVec.ofNat 64 (put e.data.toNat % 2 ^ 64))), a.2)
      else (a.1.setRam n w (BitVec.ofNat 72 (put old.toNat)), a.2)) (c, false)

/-! ## Slices (09, R265 to R270) -/

/-- A slice's state. -/
def FabVals.sliceOf (v : FabVals) (n : Nat) : SliceSt := Store.get {} v.slice n

/-- A slice takes a state. -/
def Chip.setSlice (c : Chip) (n : Nat) (z : SliceSt) : Chip :=
  { c with fab := { c.fab with now := { c.fab.now with slice := Store.put {} c.fab.now.slice n z } } }

/-- n(Z): bits of Z[34:0] from bit 34 down that equal Z[35] (09, R268). -/
def leading (z : BitVec 36) : Nat :=
  ((List.range 35).map fun i => z.getLsbD (34 - i)).takeWhile (· == z.getLsbD 35) |>.length

/-- Z, ZOVF and BEXP from ACC (09, R267, R268). -/
def SliceSt.update (z : SliceSt) (op : SliceOp) (osat : Bool) : SliceSt :=
  if op.out then
    let q : Int := z.acc.toInt / (2 ^ op.shift : Nat)
    let ov := q < -(2 ^ 35 : Int) ∨ (2 ^ 35 : Int) - 1 < q
    let q := if ov ∧ osat then (if q < 0 then -(2 ^ 35 : Int) else (2 ^ 35 : Int) - 1) else q
    let v : BitVec 36 := BitVec.ofInt 36 q
    let base := if op.bclr then 35 else z.bexp.toNat
    { z with z := v, zovf := decide ov, bexp := BitVec.ofNat 6 (min base (leading v)) }
  else if op.bclr then { z with bexp := 35 } else z

/-- The term T of an operation (09, R266). -/
def sliceTerm (xs ms : Bool) (op : SliceOp) : Int :=
  let rd := fun (s : Bool) (b : BitVec 27) => if s then b.toInt else (b.toNat : Int)
  let t : Int :=
    if op.acc = 5 ∨ op.acc = 6 then rd ms op.y * (2 ^ 26 : Nat)
    else rd xs op.x * rd ms (if op.msel then op.y else op.k)
  if op.neg then -t else t

/-- The accumulator after an operation, and whether it saturated (09, R266). -/
def accumulate (acc cin : BitVec 72) (op : SliceOp) (t : Int) : BitVec 72 × Bool :=
  let sat := fun (v : Int) =>
    if (2 ^ 71 : Int) - 1 < v then (BitVec.ofInt 72 ((2 ^ 71 : Int) - 1), true)
    else if v < -(2 ^ 71 : Int) then (BitVec.ofInt 72 (-(2 ^ 71 : Int)), true)
    else (BitVec.ofInt 72 v, false)
  match op.acc with
  | 1 => sat t
  | 2 => sat (acc.toInt + t)
  | 3 => sat (cin.toInt + t)
  | 4 => (0, false)
  | 5 => sat t
  | 6 => sat (acc.toInt + t)
  | _ => (acc, false)

/-- What a sequencer has issued to a slice and is due at this edge; the other operations of the slice
come one edge nearer (09, R273). -/
def Chip.takeIssued (c : Chip) (n : Nat) : Option SeqOp × Chip :=
  let cl := clusterOf n
  let s : SeqSt := Store.get {} c.fab.seq cl
  let due := s.issued.find? fun i => i.2.1 == n % 16 && i.1 == 0
  let rest := (s.issued.filter fun i => !(i.2.1 == n % 16 && i.1 == 0)).map fun i =>
    if i.2.1 == n % 16 then (i.1 - 1, i.2) else i
  (due.map fun i => i.2.2, { c with fab := { c.fab with seq := Store.put {} c.fab.seq cl { s with issued := rest } } })

/-- The operation that a slice samples at an edge: its fields and operands, as they stood before the edge
(09, R265, R266, R271, R273). None where CE = 0. -/
def Chip.sliceSample (c : Chip) (n : Nat) : Option SliceOp × Chip :=
  let v := c.fab.pre
  let w := c.siteBits n 3240 64
  let shift := min (bitsOf w 18 13) 36
  let byData := fun (c : Chip) (opc kaddr : Nat) (bclr : Bool) (sh : Nat) =>
    let src := fun (sel lo port : Nat) (c : Chip) =>
      if sel = 1 then (bitsOf (c.portDo v n port).toNat 26 0, c)
      else if sel = 2 then (bitsOf (c.portDo v n port).toNat 62 36, c)
      else c.siteSample v n lo 27
    let (x, c) := src (bitsOf w 7 6) 194 0 c
    let (y, c) := src (bitsOf w 9 8) 221 1 c
    let (k, c) := if w.testBit 10 then ((Store.get 0 v.coef (32 * n + kaddr)).toNat, c) else c.siteSample v n 248 27
    (some { acc := opc % 8, msel := opc.testBit 3, neg := opc.testBit 4, out := opc.testBit 5, bclr := bclr,
            x := BitVec.ofNat 27 x, y := BitVec.ofNat 27 y, k := BitVec.ofNat 27 k, shift := sh : SliceOp }, c)
  if w.testBit 5 then
    let (op, c) := c.takeIssued n
    match op with
    | none => (some {}, c)
    | some o =>
      byData c o.opc o.kaddr o.bclr
        (if o.dshen then min (shift + (Store.get {} c.fab.seq (clusterOf n) : SeqSt).dshPre) 36 else shift)
  else
    let (ce, c) := c.take (c.siteIn v n 283)
    if ce then
      let (opc, c) := c.siteSample v n 275 8
      let (bclr, c) := c.take (c.siteIn v n 284)
      byData c opc 0 bclr shift
    else (none, c)

/-- The class of an operation as the rows of the command table name it: codes 0 and 7 are HOLD. -/
def accClass (a : Nat) : Nat := if a = 7 then 0 else a

/-- The edge of a slice's clock at which it samples an operation with this accumulator code: the pipeline
of Table 9-9 advances. -/
def Chip.sliceEdge (c : Chip) (acc n : Nat) (same : Bool) : Chip :=
  let w := c.siteBits n 3240 64
  let code := if w.testBit 5 then c.siteBits (leadOf n) 3240 5 else w % 32
  if n < 2048 && c.regionLive (siteRegion n) && c.fabClocks && c.siteClock (n / 256) code then
    let d := c.edgeBegins same
    match d.sliceSample n with
    | (none, d) => { c with free := d.free }
    | (some op, d) =>
      if accClass op.acc = acc then
        let z := d.fab.now.sliceOf n
        let z := match z.st3 with | some o => z.update o (w.testBit 19) | none => z
        let cin := if n % 32 = 0 then 0 else (d.fab.pre.sliceOf (n - 1)).acc
        let (z, overflowed) := match z.st2 with
          | some (o, t) =>
            let r := accumulate z.acc cin o t
            ({ z with acc := r.1, ovf := r.2, st3 := some o }, r.2)
          | none => ({ z with st3 := none }, false)
        let z := { z with st2 := z.st1.map fun o => (o, sliceTerm (w.testBit 11) (w.testBit 12) o), st1 := some op }
        let d := d.setSlice n z
        let p := pgAS (n / 256)
        if overflowed then (d.orBits AS_OVFSTK_OVF p (2 ^ (n % 32)) (n % 256 / 32)).report p 0 else d
      else { c with free := d.free }
  else c

end Sys2Proof.Machine
end

