-- ==== Sys2Proof/Machine/Seq.lean ====
section
/-! DEFINITION. The sequencers of the slice clusters (09, R271 to R278). -/
namespace Sys2Proof.Machine

/-- A sequencer's state beside its registers; clusters are numbered 16s + 2j + h. -/
def Chip.seqOf (c : Chip) (cl : Nat) : SeqSt := Store.get {} c.fab.seq cl

/-- A sequencer takes a state. -/
def Chip.setSeq (c : Chip) (cl : Nat) (s : SeqSt) : Chip :=
  { c with fab := { c.fab with seq := Store.put {} c.fab.seq cl s } }

/-- AS_SEQSTS.STATE. -/
def Chip.seqState (c : Chip) (cl : Nat) : Nat := c.get AS_SEQSTS_STATE (pgAS (cl / 16)) (cl % 16)

/-- AS_SEQSTS.STATE takes a code. -/
def Chip.setSeqState (c : Chip) (cl v : Nat) : Chip := c.set AS_SEQSTS_STATE (pgAS (cl / 16)) v (cl % 16)

/-- The address of the next instruction. -/
def Chip.seqPc (c : Chip) (cl : Nat) : Nat :=
  c.get AS_SEQSTS_PC (pgAS (cl / 16)) (cl % 16) + (if (c.seqOf cl).pastEnd then 512 else 0)

/-- The address of the next instruction takes a value. -/
def Chip.setSeqPc (c : Chip) (cl v : Nat) : Chip :=
  (c.setSeq cl { c.seqOf cl with pastEnd := decide (512 ≤ v) }).set AS_SEQSTS_PC (pgAS (cl / 16)) v (cl % 16)

/-- The cluster has a sequencer, its sector is started and its clock reaches it (09, R271). -/
def Chip.seqLive (c : Chip) (cl : Nat) : Bool :=
  cl < 128 && c.hasSeq (16 * cl) && c.regionLive (siteRegion (16 * cl)) && c.fabClocks && !c.gated (pgAS (cl / 16)) &&
    c.siteClock (cl / 16) (c.siteBits (16 * cl) 3240 5)

/-- Fields of an instruction word (09, Table 9-10). -/
def insClass (w : BitVec 64) : Nat := bitsOf w.toNat 63 60
def insLock (w : BitVec 64) : Bool := w.getLsbD 59

/-- The next instruction: from the loop cache, or fetched through the program RAM's port B; an error
code where the fetch is illegal (09, R271, R275, R277). -/
def Chip.seqFetch (c : Chip) (cl : Nat) : BitVec 64 × Nat :=
  let s := c.seqOf cl
  let n := 16 * cl + 15
  let pc := c.seqPc cl
  match s.loop with
  | some l =>
    if l.cached then (l.cache.getD l.idx 0, 0)
    else fetch n pc
  | none => fetch n pc
where
  /-- A word of the program RAM. A window access that has taken the port's edge leaves what DOB holds. -/
  fetch (n pc : Nat) : BitVec 64 × Nat :=
    if 511 < pc then (0, 5)
    else if c.fab.taken.contains n then (BitVec.ofNat 64 (Store.get 0 c.fab.now.core (2 * n + 1)).toNat, 0)
    else
      let w := c.fab.now.ramWord n pc
      if c.ramEcc n then
        match eccDecode w with
        | .bad d => (d, 4)
        | e => (e.data, 0)
      else (BitVec.ofNat 64 w.toNat, 0)

/-- The code of AS_SEQSTS.ERR of an instruction, 0 where it is legal (09, R277). -/
def Chip.seqIllegal (c : Chip) (cl : Nat) : Nat :=
  let s := c.seqOf cl
  let (w, e) := c.seqFetch cl
  let k := insClass w
  if e != 0 then e
  else if 9 ≤ k then 1
  else if s.loop.isSome && (k == 2 || k == 3 || k == 5 || k == 7) then 2
  else if insLock w && !s.lock && (k == 3 || k == 7 || (match s.loop with | some l => l.idx + 1 == l.len | none => false)) then 3
  else if k == 2 && 511 < c.seqPc cl + (bitsOf w.toNat 4 0 + 1) then 5
  else 0

/-- The slices of a cluster, by position, that LANE names. -/
def laneSites (cl : Nat) (w : BitVec 64) : List Nat :=
  ((List.range 16).filter fun q => w.getLsbD (32 + q)).map (16 * cl + ·)

/-- The ports of the cluster's block RAMs that the sequencer serves act at its edge (09, R272, R273). -/
def Chip.seqPorts (c : Chip) (cl : Nat) (ins : Option (BitVec 64)) (ar : List Nat) : Chip :=
  c.each (List.range 16) fun c q =>
    let n := 16 * cl + q
    if c.regionLive (siteRegion n) then
      let word := c.siteBits n 3176 64
      let port := fun (c : Chip) (p : Nat) =>
        if word.testBit (23 + p) && !(p == 1 && q == 15) then
          let (r, c) := c.take (c.siteIn c.fab.pre n (96 + 97 * p))
          match ins with
          | some w =>
            if w.getLsbD (32 + q) then
              let (di, c) := c.portDi n p
              let a := ar.getD (bitsOf w.toNat (28 - 5 * p) (27 - 5 * p)) 0
              c.portEdge n p { en := w.getLsbD (26 - 5 * p), addr := a, we := if w.getLsbD (25 - 5 * p) then 0xFF else 0, di := di, orst := r }
            else c.portEdge n p { orst := r }
          | none => c.portEdge n p { orst := r }
        else c
      port (port c 0) 1
    else c

/-- An edge of a sequencer begins: what DSH stood at is kept for operations sampled at this edge. -/
def Chip.seqBegins (c : Chip) (cl : Nat) (same : Bool) : Chip :=
  let c := c.edgeBegins same
  c.setSeq cl { c.seqOf cl with dshPre := c.get AS_SEQDSH_DSH (pgAS (cl / 16)) (cl % 16) }

/-- The sequencer stops: IDLE, with nothing pending (09, R278). -/
def Chip.seqIdle (c : Chip) (cl : Nat) : Chip :=
  let s := c.seqOf cl
  (c.setSeqState cl 0).setSeq cl { s with loop := none, lock := false, armed := false, stall := false, wantHalt := false,
                                          stepping := false, wantStop := false, inWait := false }

/-- What follows an instruction that has issued: the boundary rules of LOCK pairs, stops, debug halts
and steps (09, R276; 20, R541). -/
def Chip.seqBoundary (c : Chip) (cl : Nat) (locked : Bool) : Chip :=
  let s := c.seqOf cl
  let c := c.setSeq cl { s with lock := locked }
  if locked then c
  else if s.wantStop then c.seqIdle cl
  else if (s.wantHalt || s.stepping) && (c.seqActive cl) then
    let w := c.seqState cl == 2
    (c.setSeqState cl 4).setSeq cl { c.seqOf cl with wantHalt := false, stepping := false, inWait := w }
  else c

/-- The address after an instruction that does not jump (09, R275). -/
def Chip.seqAdvance (c : Chip) (cl : Nat) (w : BitVec 64) : Chip :=
  let s := c.seqOf cl
  match s.loop with
  | none => c.setSeqPc cl (c.seqPc cl + 1)
  | some l =>
    let l := if l.cached then l else { l with cache := l.cache ++ [w] }
    if l.idx + 1 < l.len then
      (c.setSeq cl { s with loop := some { l with idx := l.idx + 1 } }).setSeqPc cl (l.start + l.idx + 1)
    else if 0 < l.left then
      (c.setSeq cl { s with loop := some { l with idx := 0, left := l.left - 1, cached := true } }).setSeqPc cl l.start
    else (c.setSeq cl { s with loop := none }).setSeqPc cl (l.start + l.len)

/-- The program RAM's port B presents what it fetched (09, R259, R271). -/
def Chip.seqDob (c : Chip) (cl : Nat) : Chip :=
  let n := 16 * cl + 15
  let cached := match (c.seqOf cl).loop with | some l => l.cached | none => false
  let pc := c.seqPc cl
  if cached || 511 < pc || c.fab.taken.contains n then c
  else
    let w := c.fab.now.ramWord n pc
    let d : BitVec 74 := if c.ramEcc n then eccDo w else BitVec.ofNat 74 w.toNat
    let v := c.fab.now
    { c with fab := { c.fab with now := { v with oreg := Store.put 0 v.oreg (2 * n + 1) (Store.get 0 v.core (2 * n + 1)),
                                                 core := Store.put 0 v.core (2 * n + 1) d } } }

/-- A sequencer issues an instruction of a class at an edge of its clock, where that is the next
instruction and it is legal. -/
def Chip.seqIssue (c : Chip) (cl k : Nat) (same : Bool) (f : Chip → BitVec 64 → Chip) : Chip :=
  let s := c.seqState cl
  if c.seqLive cl && (s == 1 || s == 2) && !(c.seqOf cl).stall then
    let d := c.seqBegins cl same
    let (w, e) := d.seqFetch cl
    if e = 0 ∧ d.seqIllegal cl = 0 ∧ insClass w = k then
      let pair := insLock w && !(d.seqOf cl).lock
      let d := f (d.seqDob cl) w
      d.seqBoundary cl pair
    else c
  else c

/-- An instruction that drives no port: NOP, LOOP, SETAR, BSCALE, SETK and the like. -/
def Chip.seqQuiet (c : Chip) (cl : Nat) : Chip := c.seqPorts cl none []

/-- NOP (09, Table 9-10). -/
def Chip.seqNop (c : Chip) (cl : Nat) (same : Bool) : Chip :=
  c.seqIssue cl 0 same fun c w => (c.seqQuiet cl).seqAdvance cl w

/-- SLICE: operations to the lanes, block RAM port edges, address registers (09, R272, R273). -/
def Chip.seqSlice (c : Chip) (cl : Nat) (same : Bool) : Chip :=
  c.seqIssue cl 1 same fun c w =>
    let s := c.seqOf cl
    let c := c.seqPorts cl (some w) s.ar
    let op : SeqOp := { opc := bitsOf w.toNat 55 48, kaddr := bitsOf w.toNat 18 14, bclr := w.getLsbD 13, dshen := w.getLsbD 12 }
    let new := (laneSites cl w).map fun n =>
      let word := c.siteBits n 3176 64
      (if word.testBit 10 || word.testBit 11 then 2 else 1, n % 16, op)
    let a := bitsOf w.toNat 28 27
    let b := bitsOf w.toNat 23 22
    let step := fun (ar : List Nat) r => ar.set r ((ar.getD r 0 + s.stride.getD r 0) % 2 ^ 15)
    let ar := if w.getLsbD 24 then step s.ar a else s.ar
    let ar := if w.getLsbD 19 && !(w.getLsbD 24 && a == b) then step ar b else ar
    let s := c.seqOf cl
    (c.setSeq cl { s with ar := ar, issued := s.issued ++ new }).seqAdvance cl w

/-- LOOP (09, R275). -/
def Chip.seqLoop (c : Chip) (cl : Nat) (same : Bool) : Chip :=
  c.seqIssue cl 2 same fun c w =>
    let c := c.seqQuiet cl
    let a := c.seqPc cl
    (c.setSeq cl { c.seqOf cl with loop := some { start := a + 1, len := bitsOf w.toNat 4 0 + 1, left := bitsOf w.toNat 41 32, idx := 0 } }).setSeqPc cl (a + 1)

/-- JUMP, which takes two cycles (09, R273): the second one issues nothing. -/
def Chip.seqJump (c : Chip) (cl : Nat) (same : Bool) : Chip :=
  if c.seqLive cl && (c.seqOf cl).stall then
    let c := (c.seqBegins cl same).seqQuiet cl
    (c.setSeq cl { c.seqOf cl with stall := false }).seqBoundary cl false
  else
    let s := c.seqState cl
    if c.seqLive cl && (s == 1 || s == 2) then
      let d := c.seqBegins cl same
      let (w, e) := d.seqFetch cl
      if e = 0 ∧ d.seqIllegal cl = 0 ∧ insClass w = 3 then
        let d := (d.seqDob cl).seqQuiet cl
        let d := d.setSeqPc cl (bitsOf w.toNat 8 0)
        d.setSeq cl { d.seqOf cl with stall := true }
      else c
    else c

/-- SETAR (09, Table 9-10). -/
def Chip.seqSetar (c : Chip) (cl : Nat) (same : Bool) : Chip :=
  c.seqIssue cl 4 same fun c w =>
    let c := c.seqQuiet cl
    let s := c.seqOf cl
    let n := bitsOf w.toNat 57 56
    (c.setSeq cl { s with ar := s.ar.set n (bitsOf w.toNat 14 0), stride := s.stride.set n (bitsOf w.toNat 29 15) }).seqAdvance cl w

/-- WAIT: issues again until the lead's routing input OPC[0] is 1 at an edge (09, Table 9-10). -/
def Chip.seqWait (c : Chip) (cl : Nat) (same : Bool) : Chip :=
  c.seqIssue cl 5 same fun c w =>
    let c := c.seqQuiet cl
    let (go, c) := c.take (c.siteIn c.fab.pre (16 * cl) 275)
    if go then (c.setSeqState cl 1).seqAdvance cl w else c.setSeqState cl 2

/-- BSCALE (09, R274). The minimum over no slice is open (log entry 41). -/
def Chip.seqBscale (c : Chip) (cl : Nat) (same : Bool) : Chip :=
  c.seqIssue cl 6 same fun c w =>
    let c := c.seqQuiet cl
    let lanes := laneSites cl w
    let v := c.fab.pre
    let (m, c) := match lanes.map fun n => (v.sliceOf n).bexp.toNat with
      | [] => let (x, c) := c.drawWord; (x.toNat % 64, c)
      | b :: bs => (bs.foldl min b, c)
    let lim := bitsOf w.toNat 5 0
    let p := pgAS (cl / 16)
    let c := (c.set AS_SEQDSH_CEXP p m (cl % 16)).set AS_SEQDSH_DSH p (lim - min m lim) (cl % 16)
    let c := c.each lanes fun c n => c.setSlice n { c.fab.now.sliceOf n with bexp := 35 }
    c.seqAdvance cl w

/-- HALT (09, Table 9-10). -/
def Chip.seqHalt (c : Chip) (cl : Nat) (same : Bool) : Chip :=
  c.seqIssue cl 7 same fun c w =>
    let c := (c.seqQuiet cl).seqAdvance cl w
    (c.seqIdle cl).setSeqState cl 3

/-- SETK (09, Table 9-10). -/
def Chip.seqSetk (c : Chip) (cl : Nat) (same : Bool) : Chip :=
  c.seqIssue cl 8 same fun c w =>
    let c := c.seqQuiet cl
    let c := c.each (laneSites cl w) fun c n =>
      if c.regionLive (siteRegion n) then
        { c with fab := { c.fab with now := { c.fab.now with
            coef := Store.put 0 c.fab.now.coef (32 * n + bitsOf w.toNat 52 48) (BitVec.ofNat 27 w.toNat) } } }
      else c
    c.seqAdvance cl w

/-! ## Start and stop -/

/-- The sequencers of a sector stop at once and the pipelines of their slices are abandoned: STOP_REQ
of the AS page, or a C2 fault of it (09, R278; 01, R46, R50). -/
def Chip.asAbandon (c : Chip) (s : Nat) : Chip :=
  c.each ((List.range 16).map (16 * s + ·)) fun c cl =>
    let c := if c.seqActive cl || c.seqState cl == 4 then c.seqIdle cl else c
    let c := if c.seqOf cl = {} then c else c.setSeq cl { c.seqOf cl with armed := false, issued := [] }
    c.each ((List.range 16).map (16 * cl + ·)) fun c n =>
      if (c.siteBits n 3240 64).testBit 5 then c.setSlice n { c.fab.now.sliceOf n with st1 := none, st2 := none, st3 := none } else c

/-- A stop of one sequencer at its next instruction boundary: EN = 0, or RUN = 0 (09, R276, R278). -/
def Chip.seqStop (c : Chip) (cl : Nat) : Chip :=
  let s := c.seqOf cl
  if c.seqActive cl || c.seqState cl == 4 then
    if s.lock && c.seqState cl != 4 then c.setSeq cl { s with wantStop := true } else c.seqIdle cl
  else if s.armed then c.setSeq cl { s with armed := false } else c

/-- RUN and EN come to hold: the start is due (09, R278). -/
def Chip.seqArm (c : Chip) (cl : Nat) : Chip := c.setSeq cl { c.seqOf cl with armed := true, wantStop := false }

/-- An illegal instruction, or a program RAM of another width at a start (09, R277). -/
def Chip.seqError (c : Chip) (cl code : Nat) : Chip :=
  let s := cl / 16
  let p := pgAS s
  let c := ((c.seqIdle cl).setSeqState cl 5).set AS_SEQSTS_ERR p code (cl % 16)
  let c := (c.asAbandon s).report p 1
  (c.set PG_CTL_RUN p 0).set PG_STS_RUNNING p 0

/-- The start of a sequencer (09, R278). -/
def Chip.seqEnable (c : Chip) (cl : Nat) : Chip :=
  let p := pgAS (cl / 16)
  let s := c.seqOf cl
  if c.seqLive cl && s.armed && c.run p && c.running p && c.bit AS_SEQCTL_EN p (cl % 16) then
    let c := c.setSeq cl { issued := s.issued }
    let c := (c.set AS_SEQDSH_CEXP p 0 (cl % 16)).set AS_SEQDSH_DSH p 0 (cl % 16)
    let c := (c.setSeqPc cl (c.get AS_SEQCTL_START p (cl % 16))).set AS_SEQSTS_ERR p 0 (cl % 16)
    if c.siteBits (16 * cl + 15) 3179 3 = 6 then c.setSeqState cl 1 else c.seqError cl 6
  else c

/-- The next instruction is illegal: ERROR (09, R277). -/
def Chip.seqFault (c : Chip) (cl : Nat) (same : Bool) : Chip :=
  if c.seqLive cl && c.seqActive cl && !(c.seqOf cl).stall then
    let d := c.seqBegins cl same
    let e := d.seqIllegal cl
    if e = 0 then c else d.seqError cl e
  else c

/-- The AS page has completed its orderly stop: no sequencer runs and the slices have completed every
operation issued (09, R278). -/
def Chip.asQuiet (c : Chip) (s : Nat) : Bool :=
  ((List.range 16).map (16 * s + ·)).all fun cl =>
    !(c.seqActive cl) && c.seqState cl != 4 && (c.seqOf cl).issued.isEmpty &&
      ((List.range 16).map (16 * cl + ·)).all fun n =>
        !(c.siteBits n 3240 64).testBit 5 ||
          (let z := c.fab.now.sliceOf n
           let idle := fun (o : SliceOp) => o.acc == 0 && !o.out && !o.bclr
           z.st1.all idle && z.st2.all (fun o => idle o.1) && z.st3.all idle)

/-- The sequencer presents an access of port B of a block RAM at its next edge (09, R263). -/
def Chip.seqWantsB (c : Chip) (n : Nat) : Bool :=
  let cl := clusterOf n
  if c.seqActive cl && !(c.seqOf cl).stall then
    if n % 16 = 15 ∧ c.hasSeq n then !(match (c.seqOf cl).loop with | some l => l.cached | none => false)
    else
      let (w, e) := c.seqFetch cl
      e == 0 && insClass w == 1 && w.getLsbD (32 + n % 16) && w.getLsbD 21
  else false

/-! ## Window edges (09, R263) -/

/-- An edge of port B of a block RAM is free for a window access, or PRIO takes it; the flag says that
an access of the port is displaced. None where the edge cannot serve (09, R263). -/
def Chip.windowEdge (c : Chip) (n : Nat) : Option Bool × Chip :=
  let word := c.siteBits n 3176 64
  let s := n / 256
  let seq := c.portSeq n 1
  let code := if seq then c.siteBits (leadOf n) 3240 5 else bitsOf word 22 18
  if n < 2048 && c.domOn (64 + s) && c.fabClocks && c.siteClock s code then
    let (busy, c) :=
      if !c.regionLive (siteRegion n) then (false, c)
      else if seq then (c.seqWantsB n, c)
      else c.take (c.siteIn c.fab.now n 192)
    if busy && !c.bit BR_WINCTL_PRIO (pgBR s) then (none, c) else (some busy, c)
  else (none, c)

end Sys2Proof.Machine
end

