-- ==== Sys2Proof/Machine/MasterPort.lean ====
section
/-! DEFINITION. The fabric master ports (08, R244 to R251). -/
namespace Sys2Proof.Machine

/-- The requests outstanding at a port take a list. -/
def Chip.setReqs (c : Chip) (s p : Nat) (qs : List FmpReq) : Chip :=
  { c with fab := { c.fab with now := { c.fab.now with port := Store.put [] c.fab.now.port (4 * s + p) (qs.filter fun q => !q.done) } } }

/-- The outstanding request of a tag. -/
def Chip.onReq (c : Chip) (s p tag : Nat) (f : FmpReq → FmpReq) : Chip :=
  c.setReqs s p ((c.fab.now.reqs s p).map fun q => if q.tag == tag && q.outstanding then f q else q)

/-- Signal endpoints `lo` to `lo + w - 1` of a port, sampled (08, Table 8-10). -/
def Chip.fmpSample (c : Chip) (s p lo w : Nat) : Nat × Chip :=
  let v := c.fab.pre
  c.takeBits ((List.range w).map fun i => let ts := fmpSlot s p (lo + i); c.endpoint v ts.1 ts.2)

/-- The port's clock gives edges: its GCLK reaches the sector (08, R239, R244). -/
def Chip.fmpClock (c : Chip) (s p : Nat) : Bool :=
  s < 8 && p < 4 && c.domOn (64 + s) && c.fabClocks &&
    (c.get FB_GCLKEN_EN (pgFB s)).testBit (c.get FB_FMPCTL_CKSEL (pgFB s) p)

/-- A request as it goes into the network. -/
def FmpReq.toReq (q : FmpReq) (s p : Nat) : Req :=
  { asker := .fabric s p q.tag, op := if q.wr then .write else .read, addr := q.addr, len := q.len, spec := q.spec && !q.wr,
    kidx := q.kidx, whole := q.len, lines := q.beats.map fun b => { data := b.1, mask := b.2 } }

/-- The registers of a port show its state (08, FB_FMPSTS). -/
def Chip.fmpShow (c : Chip) (s p : Nat) : Chip :=
  let qs := c.fab.now.reqs s p
  let busy := !qs.isEmpty
  (c.setB FB_FMPSTS_BUSY (pgFB s) busy p).set FB_FMPSTS_OUTST (pgFB s) (qs.filter FmpReq.outstanding).length p

/-- A request is accepted (08, R245, R247): checks 1 to 4 over the whole range first; a read is handed to
the network, a write when its beats are there. -/
def Chip.fmpAccept (c : Chip) (s p : Nat) (q : FmpReq) : Chip :=
  let code := c.niCheck (q.toReq s p)
  let q := if code = 0 then { q with lateDue := q.spec && !q.wr }
    else { q with refused := some code, rsp := [(0, code, 0, true)] }
  let c := c.setReqs s p (c.fab.now.reqs s p ++ [{ q with asked := !q.wr }])
  let c := if code = 0 ∧ !q.wr then c.ask (q.toReq s p) else c
  c.fmpShow s p

/-- An edge of the port's clock at which REQ_VALID and REQ_READY are 1 (08, R245). -/
def Chip.fmpRequest (c : Chip) (s p : Nat) (same : Bool) : Chip :=
  if c.fmpClock s p then
    let d := c.edgeBegins same
    let v := d.fab.pre
    let (valid, d) := d.take (let ts := fmpSlot s p 0; d.endpoint v ts.1 ts.2)
    let (ready, d) := d.take (d.fmpTap v (d.fabVal v fabDepth) s p 0)
    if valid && ready then
      let (wr, d) := d.fmpSample s p 1 1
      let (spec, d) := d.fmpSample s p 2 1
      let (addr, d) := d.fmpSample s p 3 44
      let (len, d) := d.fmpSample s p 47 6
      let (kidx, d) := d.fmpSample s p 53 8
      let (tag, d) := d.fmpSample s p 61 5
      d.fmpAccept s p { tag := tag, wr := wr == 1, spec := spec == 1, addr := addr, len := len + 1, kidx := kidx }
    else { c with free := d.free }
  else c

/-- An edge at which the port takes a data beat of the oldest write that still wants one; a write whose
beats are all there goes into the network (08, R246, R247). -/
def Chip.fmpWriteBeat (c : Chip) (s p : Nat) (same : Bool) : Chip :=
  if c.fmpClock s p then
    let d := c.edgeBegins same
    let v := d.fab.pre
    let (valid, d) := d.take (let ts := fmpSlot s p 66; d.endpoint v ts.1 ts.2)
    match d.fab.now.writing s p with
    | some q =>
      if valid then
        let (data, d) := d.fmpSample s p 67 512
        let (mask, d) := d.fmpSample s p 579 64
        let q := { q with beats := q.beats ++ [(BitVec.ofNat 512 data, BitVec.ofNat 64 mask)] }
        let full := q.beats.length == q.len
        let go := full && q.refused.isNone
        let qs := d.fab.now.reqs s p
        let i := qs.findIdx fun q => q.wr && q.beats.length < q.len
        let d := d.setReqs s p (qs.set i { q with asked := go })
        let d := if go then d.ask (q.toReq s p) else d
        d.fmpShow s p
      else { c with free := d.free }
    | none => { c with free := d.free }
  else c

/-- An error beat is counted and reported (08, R251, FB_FMPSTS, FB_FMPERRC). -/
def Chip.fmpErr (c : Chip) (s p code : Nat) : Chip :=
  if code = 0 then c
  else ((c.set FB_FMPSTS_LASTERR (pgFB s) code p).count FB_FMPERRC_COUNT (pgFB s) p).report (pgFB s) 0

/-- The edge at which the presented beat is delivered: RSP_READY is 1 (08, R248, R249). -/
def Chip.fmpBeat (c : Chip) (s p : Nat) (late same : Bool) : Chip :=
  if c.fmpClock s p then
    let d := c.edgeBegins same
    let (ready, d) := d.take (let ts := fmpSlot s p 643; d.endpoint d.fab.pre ts.1 ts.2)
    match d.fab.now.beat s p with
    | some (tag, _, code, _, last, isLate) =>
      if ready && late == isLate then
        let d := if isLate then d.onReq s p tag fun q => { q with late := q.late.drop 1 }
          else d.onReq s p tag fun q => { q with rsp := q.rsp.drop 1, lastDone := last, given := q.given + 1 }
        (d.fmpErr s p code).fmpShow s p
      else { c with free := d.free }
    | none => { c with free := d.free }
  else c

/-- The answers to a port's request arrive: codes and data per line of a part, and whether a LATE packet
is still due (08, R248; 12, R349). -/
def Chip.fmpAnswer (c : Chip) (s p tag base : Nat) (codes : List Nat) (data : List (BitVec 512)) : Chip :=
  c.onReq s p tag fun q =>
    let new := codes.zipIdx.map fun ci => (base + ci.2, ci.1, data.getD ci.2 0, base + ci.2 + 1 == q.len)
    { q with rsp := sortBy (fun a b => decide (a.1 ≤ b.1)) (q.rsp ++ new) }

/-- The LATE codes of a part arrive: each failed line gives one further beat (08, R249). -/
def Chip.fmpLate (c : Chip) (s p tag base : Nat) (codes : List Nat) (lastPart : Bool) : Chip :=
  (c.onReq s p tag fun q =>
    { q with late := q.late ++ ((codes.zipIdx.filter fun ci => ci.1 != 0).map fun ci => (base + ci.2, ci.1)),
             lateDue := !lastPart && q.lateDue }).fmpShow s p

/-- STOP_REQ: every line not answered is answered with ERR_STOPPED, untaken beats are discarded (08,
R250). -/
def Chip.fmpStop (c : Chip) (s : Nat) : Chip :=
  c.each (List.range 4) fun c p =>
    let qs := (c.fab.now.reqs s p).map fun q =>
      if q.lastDone then { q with lateDue := false }
      else
        let got := q.rsp.map (·.1)
        let missing := ((List.range q.len).drop q.given).filter fun l => !got.contains l
        { q with beats := q.beats ++ List.replicate (q.len - q.beats.length) (0, 0), lateDue := false,
                 rsp := if q.refused.isSome then q.rsp
                        else sortBy (fun a b => decide (a.1 ≤ b.1)) (q.rsp ++ missing.map fun l => (l, errStopped, 0, l + 1 == q.len)) }
    (c.setReqs s p qs).fmpShow s p

/-- The ports of a sector have completed their outstanding requests (08, R250). -/
def Chip.fmpQuiet (c : Chip) (s : Nat) : Bool := (List.range 4).all fun p => (c.fab.now.reqs s p).isEmpty

end Sys2Proof.Machine
end

