-- ==== Sys2Proof/Machine/Scratch.lean ====
section
/-! DEFINITION. The scratchpad: lines, ownership, retention and the DMA (13). -/
namespace Sys2Proof.Machine

/-! ## Lines (13, R365) -/

/-- A stored scratchpad word, by offset / 8. -/
def Chip.spWord (c : Chip) (w : Nat) : BitVec 72 := Store.get 0 c.sp.word w

/-- A scratchpad word is stored with new check bits. -/
def Chip.setSp (c : Chip) (w : Nat) (d : BitVec 64) : Chip :=
  { c with sp := { c.sp with word := Store.put 0 c.sp.word w (secded d) } }

/-- What decoding a word that was read leaves: a corrected word is counted, reported and waits for its
write-back; an uncorrectable one is recorded and reported (13, R365). -/
def Chip.spNote (c : Chip) (w : Nat) : Chip :=
  match eccDecode (c.spWord w) with
  | .good _ => c
  | .fixed _ =>
    let c := { c with sp := { c.sp with fix := if c.sp.fix.contains w then c.sp.fix else c.sp.fix ++ [w] } }
    (c.count SP_CECNT_COUNT (pgSP 0)).report (pgSP 0) 0
  | .bad _ => ((c.setB SP_UEADDR_VALID (pgSP 0) true).set SP_UEADDR_WORD (pgSP 0) w).report (pgSP 0) 1

/-- A line is read: its data and its code (13, R365). `l` is the offset / 64. -/
def Chip.spRead (c : Chip) (l : Nat) : BitVec 512 × Nat × Chip :=
  let ws := (List.range 8).map fun i => eccDecode (c.spWord (8 * l + i))
  let c := c.each (List.range 8) fun c i => c.spNote (8 * l + i)
  let v := (ws.zipIdx.foldl (fun a wi => a + wi.1.data.toNat * 2 ^ (64 * wi.2)) 0 : Nat)
  (BitVec.ofNat 512 v, if ws.any Ecc.isBad then errEcc else 0, c)

/-- A line is written under its byte mask (13, R365). -/
def Chip.spWrite (c : Chip) (l : Nat) (data : BitVec 512) (mask : BitVec 64) : Nat × Chip :=
  let m := fun i => bitsOf mask.toNat (8 * i + 7) (8 * i)
  let partial_ := (List.range 8).filter fun i => m i != 0 && m i != 0xFF
  let bad := partial_.any fun i => (eccDecode (c.spWord (8 * l + i))).isBad
  let c := c.each (if partial_.isEmpty then [] else List.range 8) fun c i => c.spNote (8 * l + i)
  if bad then (errEcc, c)
  else
    (0, c.each ((List.range 8).filter fun i => m i != 0) fun c i =>
      let old := (eccDecode (c.spWord (8 * l + i))).data.toNat
      let bits := ofBits (fun b => (m i).testBit (b / 8)) 64
      let new := (old &&& ((2 ^ 64 - 1) ^^^ bits)) ||| (bitsOf data.toNat (64 * i + 63) (64 * i) &&& bits)
      let c := { c with sp := { c.sp with fix := c.sp.fix.filter (· != 8 * l + i) } }
      c.setSp (8 * l + i) (BitVec.ofNat 64 new))

/-- A corrected word is written back in an idle cycle of its bank (13, R365). -/
def Chip.spWriteback (c : Chip) (w : Nat) : Chip :=
  if c.sp.fix.contains w && c.domOn 78 then
    let c := { c with sp := { c.sp with fix := c.sp.fix.filter (· != w) } }
    match eccDecode (c.spWord w) with
    | .fixed d => c.setSp w d
    | _ => c
  else c

/-! ## Banks (13, R360 to R363, R372 to R374) -/

/-- The code that a destination bridge gives a request that reaches a bank: check 5, then the page's
stop (13, R366, R372). The domain is judged before. -/
def Chip.spServe (c : Chip) (banks : List Nat) : Nat :=
  if banks.any fun b => !(c.get SP_AWAKE_AWAKE (pgSP 0) (b / 32)).testBit (b % 32) then errPwroff
  else if !c.accepts (pgSP 0) || !c.works (pgSP 0) then errStopped else 0

/-- A bank is being cleared: requests to it wait (13, R362). -/
def Chip.spBusy (c : Chip) (b : Nat) : Bool := c.bit SP_OWN_BUSY (pgSP 1) b

/-- An owner code of Table 13-2. -/
def ownerOk (v : Nat) : Bool := v ≤ 0x4D || (0x50 ≤ v && v ≤ 0x53) || v == 0xFF

/-- A write of SP_OWNb (13, R360, R362): a reserved code leaves OWNER as it is (00, R17). -/
def Chip.bankHandover (c : Chip) (b value : Nat) : Chip :=
  let p := pgSP 1
  if c.spBusy b then c.wign p
  else
    let c := if ownerOk (value % 256) then c.set SP_OWN_OWNER p (value % 256) b else c
    let c := c.setB SP_OWN_DMAOK p (value.testBit 8) b
    if value.testBit 31 then c.setB SP_OWN_BUSY p true b else c

/-- The clear of a bank ends: every line reads zero (13, R362). -/
def Chip.bankClearDone (c : Chip) (b : Nat) : Chip :=
  if c.spBusy b then
    let mine := fun w => w / 32768 == b
    { c.setB SP_OWN_BUSY (pgSP 1) false b with
      sp := { c.sp with word := Store.drop mine c.sp.word, fix := c.sp.fix.filter fun w => !mine w } }
  else c

/-- A bank stops serving and retains (13, R372). -/
def Chip.bankRetain (c : Chip) (b : Nat) : Chip :=
  if b < 128 && c.domOn 78 && (c.get SP_RET_RET (pgSP 0) (b / 32)).testBit (b % 32) then
    c.set SP_AWAKE_AWAKE (pgSP 0) (setBit (c.get SP_AWAKE_AWAKE (pgSP 0) (b / 32)) (b % 32) false) (b / 32)
  else c

/-- A bank serves again (13, R372, R373). -/
def Chip.bankWake (c : Chip) (b : Nat) : Chip :=
  if b < 128 && c.domOn 78 && !(c.get SP_RET_RET (pgSP 0) (b / 32)).testBit (b % 32) then
    c.set SP_AWAKE_AWAKE (pgSP 0) (setBit (c.get SP_AWAKE_AWAKE (pgSP 0) (b / 32)) (b % 32) true) (b / 32)
  else c

/-- The contents of every bank are lost (13, R373, R374; log entry 5). -/
def Chip.spLose (c : Chip) : Chip := { c with sp := {} }

/-! ## DMA (13, R367 to R371) -/

/-- A DMA channel. -/
def Chip.dmaCh (c : Chip) (ch : Nat) : DmaCh := Store.get {} c.sp.dma ch

/-- A DMA channel takes a state; the bytes that remain are shown. -/
def Chip.setDma (c : Chip) (ch : Nat) (d : DmaCh) : Chip :=
  ({ c with sp := { c.sp with dma := Store.put {} c.sp.dma ch d } }).set SP_DMAREM_REM (pgSP 2) (min d.rem (2 ^ 32 - 1)) ch

/-- Destination lines of a descriptor. -/
def DmaCh.lines (d : DmaCh) : Nat := if d.len = 0 then 0 else (d.dst + d.len - 1) / 64 - d.dst / 64 + 1

/-- The destination line that is written `i`-th, as a line number of device space. -/
def DmaCh.dstLine (d : DmaCh) (i : Nat) : Nat :=
  if d.down then (d.dst + d.len - 1) / 64 - i else d.dst / 64 + i

/-- The bytes of a destination line that the copy writes: first and one past the last. -/
def DmaCh.span (d : DmaCh) (line : Nat) : Nat × Nat :=
  (max d.dst (64 * line), min (d.dst + d.len) (64 * line + 64))

/-- The source lines that a destination line needs (13, DMA). -/
def DmaCh.needs (d : DmaCh) (line : Nat) : List Nat :=
  let s := d.span line
  let a := (s.1 - d.dst + d.src) / 64
  let b := (s.2 - 1 - d.dst + d.src) / 64
  if a = b then [a] else if d.down then [b, a] else [a, b]

/-- The line written: source bytes rotated into the destination's lanes, under its mask. -/
def DmaCh.merge (d : DmaCh) (line : Nat) : Line :=
  let s := d.span line
  let byte := fun i =>
    let a := 64 * line + i
    if s.1 ≤ a ∧ a < s.2 then
      let x := a - d.dst + d.src
      bitsOf ((d.held.lookup (x / 64)).getD 0).toNat (8 * (x % 64) + 7) (8 * (x % 64))
    else 0
  { data := BitVec.ofNat 512 ((List.range 64).foldl (fun v i => v + byte i * 2 ^ (8 * i)) 0),
    mask := BitVec.ofNat 64 (ofBits (fun i => decide (s.1 ≤ 64 * line + i ∧ 64 * line + i < s.2)) 64) }

/-- A channel takes ERROR (13, R368, R370, R371). -/
def Chip.dmaError (c : Chip) (ch code : Nat) : Chip :=
  let d := c.dmaCh ch
  let c := c.setDma ch { gen := d.gen + 1, rem := d.rem }
  ((c.set SP_DMASTS_STATE (pgSP 2) 3 ch).set SP_DMASTS_ERR (pgSP 2) code ch).report (pgSP 2) 2

/-- One request of a channel: the write of the next destination line whose source is held, or else the
read of the next source line that is neither held nor asked for (13, R369). -/
def Chip.dmaOne (c : Chip) (ch : Nat) : Option Chip :=
  let d := c.dmaCh ch
  if !d.active || d.err.isSome || !c.works (pgSP 2) || 8 ≤ d.reads.length + d.writes.length then none
  else
    let n := d.lines
    let next := d.dstLine d.sent
    if d.sent < n ∧ (d.needs next).all (fun s => (d.held.lookup s).isSome) then
      let keep := if d.sent + 1 < n then d.needs (d.dstLine (d.sent + 1)) else []
      let later := (List.range (min 8 (n - d.sent - 1))).flatMap fun i => d.needs (d.dstLine (d.sent + 1 + i))
      let c' := c.ask { asker := .dmaWrite ch d.gen, op := .write, addr := 64 * next, kidx := d.dkidx, lines := [d.merge next] }
      some (c'.setDma ch { d with sent := d.sent + 1, writes := d.writes ++ [next],
                                  held := d.held.filter fun h => keep.contains h.1 || later.contains h.1 })
    else
      let want := (List.range (min 8 (n - d.sent))).flatMap fun i => d.needs (d.dstLine (d.sent + i))
      match want.find? fun s => (d.held.lookup s).isNone && !d.reads.contains s with
      | none => none
      | some s =>
        let c' := c.ask { asker := .dmaRead ch d.gen, op := .read, addr := 64 * s, kidx := d.skidx }
        some (c'.setDma ch { d with reads := d.reads ++ [s] })

/-- A channel makes every request that it may have outstanding, at most 8 (13, R369). -/
def Chip.dmaPump (c : Chip) (ch : Nat) : Chip :=
  (List.range 16).foldl (fun c _ => (c.dmaOne ch).getD c) c

/-- A channel reads the descriptor at SP_DMADESC (13, R368). -/
def Chip.dmaFetch (c : Chip) (ch : Nat) : Chip :=
  let p := pgSP 2
  let a := c.get SP_DMADESCH_ADDR p ch * 2 ^ 32 + c.get SP_DMADESCL_ADDR p ch * 32
  let d := c.dmaCh ch
  let c := c.setDma ch { gen := d.gen + 1, fetching := true, rem := d.rem }
  c.ask { asker := .dmaDesc ch (d.gen + 1), op := .read, addr := a - a % 64, kidx := c.get SP_DMACTL_KIDX p ch }

/-- GO (13, R368). -/
def Chip.dmaGo (c : Chip) (ch : Nat) : Chip :=
  let p := pgSP 2
  if c.get SP_DMASTS_STATE p ch = 1 then c.wign p
  else if c.accepts p && c.works p && c.domOn 78 then (c.set SP_DMASTS_STATE p 1 ch).dmaFetch ch
  else c

/-- The descriptor's last line has been acknowledged (13, R369, R371). -/
def Chip.dmaFinish (c : Chip) (ch : Nat) : Chip :=
  let p := pgSP 2
  let d := c.dmaCh ch
  let c := c.setDma ch { gen := d.gen, rem := d.rem }
  let c := c.reportIf d.notify p 3
  let c := if d.chain then (c.set SP_DMADESCL_ADDR p (d.next / 32 % 2 ^ 27) ch).set SP_DMADESCH_ADDR p (d.next / 2 ^ 32) ch else c
  if d.chain && c.accepts p then c.dmaFetch ch else c.set SP_DMASTS_STATE p 2 ch

/-- The descriptor has been read (13, R367, R368). -/
def Chip.dmaDesc (c : Chip) (ch gen code : Nat) (line : BitVec 512) : Chip :=
  let d := c.dmaCh ch
  if d.gen ≠ gen ∨ !d.fetching then c
  else if code ≠ 0 then c.dmaError ch code
  else
    let lo := 256 * (c.get SP_DMADESCL_ADDR (pgSP 2) ch % 2)
    let w := fun i => bitsOf line.toNat (lo + 64 * i + 63) (lo + 64 * i)
    let chain := (w 2).testBit 32
    let rsv := bitsOf (w 0) 47 44 + bitsOf (w 0) 63 56 + bitsOf (w 1) 47 44 + bitsOf (w 1) 63 56 + bitsOf (w 2) 63 34 + bitsOf (w 3) 63 44
    if rsv ≠ 0 ∨ (chain ∧ w 3 % 32 ≠ 0) then c.dmaError ch errFormat
    else
      let src := w 0 % 2 ^ 44
      let dst := w 1 % 2 ^ 44
      let n := bitsOf (w 2) 31 0 + 1
      let e := c.bufferCheck2 56 2 (bitsOf (w 0) 55 48) src n false
      let e := if e ≠ 0 then e else c.bufferCheck2 56 2 (bitsOf (w 1) 55 48) dst n true
      if e ≠ 0 then c.dmaError ch e
      else
        let overlap := src < dst + n ∧ dst < src + n
        (c.setDma ch { gen := d.gen, active := true, src := src, dst := dst, len := n, skidx := bitsOf (w 0) 55 48,
                       dkidx := bitsOf (w 1) 55 48, chain := chain, notify := (w 2).testBit 33, next := w 3 % 2 ^ 44,
                       down := decide (overlap ∧ src < dst), rem := n }).dmaPump ch

/-- What follows an answer: a failed channel ends when its lines are in, a complete one finishes, any other
goes on (13, R369, R370). -/
def Chip.dmaNext (c : Chip) (ch : Nat) : Chip :=
  let d := c.dmaCh ch
  match d.err with
  | some e => if d.reads.isEmpty && d.writes.isEmpty then c.dmaError ch e else c
  | none => if d.sent == d.lines && d.writes.isEmpty then c.dmaFinish ch else c.dmaPump ch

/-- A source line has been read. -/
def Chip.dmaData (c : Chip) (ch gen line code : Nat) (data : BitVec 512) : Chip :=
  let d := c.dmaCh ch
  if d.gen ≠ gen ∨ !d.active then c
  else
    let d := { d with reads := d.reads.filter (· != line) }
    let d := if code = 0 then { d with held := d.held ++ [(line, data)] } else { d with err := some (d.err.getD code) }
    (c.setDma ch d).dmaNext ch

/-- A destination line has been acknowledged. -/
def Chip.dmaAck (c : Chip) (ch gen line code : Nat) : Chip :=
  let d := c.dmaCh ch
  if d.gen ≠ gen ∨ !d.active then c
  else
    let s := d.span line
    let d := { d with writes := d.writes.filter (· != line) }
    let d := if code = 0 then { d with rem := d.rem - (s.2 - s.1) } else { d with err := some (d.err.getD code) }
    (c.setDma ch d).dmaNext ch

/-- STOP_REQ of page 2: every descriptor in progress is abandoned (13, R371). -/
def Chip.dmaStop (c : Chip) : Chip :=
  c.each (List.range 4) fun c ch => if c.get SP_DMASTS_STATE (pgSP 2) ch = 1 then c.dmaError ch errStopped else c

/-- No channel runs (13, R371). -/
def Chip.dmaQuiet (c : Chip) : Bool := (List.range 4).all fun ch => c.get SP_DMASTS_STATE (pgSP 2) ch != 1

/-! ## What the loader reads of an image that lies in the scratchpad (03, R105) -/

/-- The bytes of a scratchpad range, as the lines decode; none where one holds an uncorrectable word. -/
def Chip.spBytes (c : Chip) (addr n : Nat) : Option (List (BitVec 8)) :=
  let off := addr - spBase
  let ws := (List.range ((off + n + 7) / 8 - off / 8)).map fun i => eccDecode (c.spWord (off / 8 + i))
  if ws.any Ecc.isBad then none
  else some (((ws.flatMap fun w => natLe 8 w.data.toNat).drop (off % 8)).take n)

end Sys2Proof.Machine
end

