-- ==== Sys2Proof/Machine/Scrub.lean ====
section
/-! DEFINITION. The pouncer: fabric scan, engine scan, reloads and its own protection (11). -/
namespace Sys2Proof.Machine

/-- The pouncer works: its function runs and no freeze holds its clock (11, R310, Table 11-5). -/
def Chip.scrubUp (c : Chip) : Bool := c.works pgSC && c.stepsRun

/-! ## Fabric scan (11, R312 to R314) -/

/-- The sector of a frame index. -/
def scanSector (F : Nat) : Nat := if F < 67584 then F / 8448 else cellSector (24 * (F - 67584))

/-- The fabric scan skips a frame (11, R313). -/
def Chip.frameSkipped (c : Chip) (F : Nat) : Bool :=
  let s := scanSector F
  !c.started s ||
    (if 67584 ≤ F then [3, 7, 11, 15].any fun r => c.regionFenced (16 * s + r)
     else if F % 8448 < 8192 then c.regionFenced (tileRegion (2048 * s + F % 8448 / 4))
     else c.regionFenced (siteRegion (256 * s + (F % 8448 - 8192))))

/-- The first frame from an index on that is not skipped. -/
def Chip.frameFrom (c : Chip) (F : Nat) : Option Nat :=
  (List.range 67604).find? fun i => decide (F ≤ i) && !c.frameSkipped i

/-- One word of a frame is decoded (11, R314). The stop that SC_FUE makes is that of the sector's master
ports (11, Table 11-6; 08, R250). -/
def Chip.scrubWord (c : Chip) (F i : Nat) : Chip :=
  match eccDecode (Store.get 0 c.fab.cfg (64 * F + i)) with
  | .good _ => c
  | .fixed d =>
    (({ c with fab := { c.fab with cfg := Store.put 0 c.fab.cfg (64 * F + i) (secded d) } }).count SC_CECNT_FAB pgSC).report pgSC 0
  | .bad _ =>
    let c := ((c.setB SC_FUEADDR_VALID pgSC true).set SC_FUEADDR_WORD pgSC i).set SC_FUEADDR_FRAME pgSC F
    let s := scanSector F
    ((c.fmpStop s).setB PG_CTL_RUN (pgFB s) false |>.setB PG_STS_RUNNING (pgFB s) false).report pgSC 1

/-- A frame is scanned (11, R312 to R314). -/
def Chip.scrubFrame (c : Chip) : Chip :=
  if !c.scrubUp || !c.accepts pgSC || !c.bit SC_CTL_FABEN pgSC then c
  else match (c.frameFrom (c.get SC_POS_FRAME pgSC)).or (c.frameFrom 0) with
    | none => c
    | some F =>
      let c := c.each (List.range 64) fun c i => c.scrubWord F i
      match c.frameFrom (F + 1) with
      | some G => c.set SC_POS_FRAME pgSC G
      | none => (c.set SC_POS_FRAME pgSC ((c.frameFrom 0).getD 0)).set SC_PASS_FAB pgSC (c.get SC_PASS_FAB pgSC + 1)

/-! ## Block signatures (11, R315, R316) -/

/-- The CRC-64 of ECMA-182 in its reflected form (11, R315). -/
def crc64 (bs : List (BitVec 8)) : BitVec 64 :=
  BitVec.ofNat 64 ((bs.foldl (fun r b => crcByte 0xC96C5795D7870F42 r b.toNat) 0xFFFFFFFFFFFFFFFF) ^^^ 0xFFFFFFFFFFFFFFFF)

/-- The 4 KiB of region `r` of an engine, and whether it holds an uncorrectable word (11, Table 11-2). -/
def Chip.regionBytes (c : Chip) (e r : Nat) : List (BitVec 8) × Bool :=
  if r < 256 then
    (List.range 512).foldl (fun a i =>
      let d := eccDecode (c.schedWord e (r / 2) (512 * (r % 2) + i))
      (a.1 ++ natLe 8 d.data.toNat, a.2 || d.isBad)) ([], false)
  else if r < 272 then ((List.range 64).flatMap fun i => natLe 64 (c.ctlRec e (64 * (r - 256) + i)).toNat, false)
  else ((List.range 2048).flatMap fun i => natLe 2 (c.mapEntry e (8 * (r - 272) + i / 256) (i % 256)).toNat, false)

/-- The golden signature of a region (11, R316). -/
def Chip.golden (c : Chip) (e r : Nat) : Nat :=
  if c.bit SC_CTL_SIGSRC pgSC then
    match c.scrub.sigs.lookup (r / 8) with
    | some l => bitsOf l.toNat (64 * (r % 8) + 63) (64 * (r % 8))
    | none => 0
  else c.flashNat (0x80000 + 4096 * e + 8 * r) 8

/-- A region does not match its golden signature (11, R320). -/
def Chip.mismatched (c : Chip) (e r : Nat) : Bool :=
  let (b, bad) := c.regionBytes e r
  bad || (crc64 b).toNat != c.golden e r

/-! ## Engine scan (11, R318 to R323) -/

/-- The scan of engine `e` begins. -/
def Chip.scanStart (c : Chip) (e : Nat) : Chip :=
  let c := c.scrubFresh
  let c := { c with scrub := { c.scrub with sigs := [], sigErr := false } }
  let c := (c.setB SC_POS_EVALID pgSC true).set SC_POS_ENG pgSC e
  if c.bit SC_CTL_SIGSRC pgSC then
    c.ask { asker := .pouncer c.scrub.gen, op := .read, len := 36, whole := 36, kidx := c.get SC_CTL_KIDX pgSC,
            addr := c.get SC_SIGBASEH_ADDR pgSC * 2 ^ 32 + c.get SC_SIGBASEL_ADDR pgSC * 2 ^ 21 + 4096 * e }
  else c

/-- The pouncer may begin a scan: it takes new work and holds neither a scan nor a reload. -/
def Chip.mayScan (c : Chip) : Bool :=
  c.scrubUp && c.accepts pgSC && c.bit SC_CTL_ENGEN pgSC && !c.bit SC_POS_EVALID pgSC

/-- The scan interval has passed: the next engine is scanned (11, R318). A restart first scans the engine of
the recorded reload again (11, R327). -/
def Chip.engineScan (c : Chip) : Chip :=
  if !c.mayScan then c
  else if c.reloadState != 0 then (if c.scrub.redo then c.scanStart c.reloadEng else c)
  else if !c.scrub.prio.isEmpty then c
  else
    let from_ := fun (n : Nat) => (List.range 512).find? fun e =>
      decide (n ≤ e) && (c.get SC_SCHEN_EN pgSC (e / 32)).testBit (e % 32) && c.scanHolds e
    match (from_ c.scrub.engine).or (from_ 0) with
    | some e => c.scanStart e
    | none => c

/-- The priority scan of a member detached in case C (11, R322). -/
def Chip.priorityScan (c : Chip) : Chip :=
  match c.scrub.prio with
  | [] => c
  | e :: es =>
    if !c.mayScan || c.reloadState != 0 then c
    else
      let c := { c with scrub := { c.scrub with prio := es } }
      if c.detached e && c.scanHolds e && (c.get SC_SCHEN_EN pgSC (e / 32)).testBit (e % 32) then
        ({ c with scrub := { c.scrub with prioScan := true } }).scanStart e
      else c

/-- The pouncer requests the rejoin of a detached member in a running group; elsewhere it holds the reload no
longer (11, R322). -/
def Chip.scrubRejoin (c : Chip) (e : Nat) : Chip :=
  if c.detached e && c.running (pgEG (e / 8)) && c.run (pgEE e) then
    (c.setB EE_PAIR_JOINPEND (pgEE e) true).set SC_RLSTS_STATE pgSC 4
  else c.reloadIdle

/-- A reload fails (11, R324). -/
def Chip.reloadFail (c : Chip) : Chip :=
  let e := c.reloadEng
  (((c.count SC_EVCNT_RELFAIL pgSC).report pgSC 6).reloadIdle).eeStop [e]

/-- Corrected schedule words of an engine are written back (11, R320). -/
def Chip.scanCorrect (c : Chip) (e : Nat) : Chip :=
  c.each (List.range (128 * 1024)) fun c i =>
    match eccDecode (c.schedWord e (i / 1024) (i % 1024)) with
    | .fixed d => ((c.setSched e (i / 1024) (i % 1024) d).count SC_CECNT_SCH pgSC).report pgSC 2
    | _ => c

/-- The signature table could not be read: the scan has no result (11, R320). -/
def Chip.scanSigErr (c : Chip) : Chip := ((c.count SC_EVCNT_SIGERR pgSC).report pgSC 7).scanEnd

/-- Mismatched regions of an engine are treated (11, R322, R323). -/
def Chip.scanTreat (c : Chip) (e : Nat) (prio : Bool) (rs : List Nat) : Chip :=
  let hold := fun (c : Chip) =>
    let c := { c with scrub := { c.scrub with redo := false, todo := rs, wrote := [] } }
    (c.set SC_RLSTS_ENG pgSC e).setB SC_RLSTS_PRIO pgSC prio
  if c.mayDetach e then
    let c := (hold c).set SC_RLSTS_STATE pgSC 1
    if c.detached e then c.scrubLook else c.requestDetach e
  else
    match c.get SC_CTL_UNPOL pgSC with
    | 0 =>
      let c := hold c
      if c.running (pgEE e) then ((c.eeStop [e]).report pgSC 5).reloadRead else c.reloadRead
    | 1 => (hold c).reloadRead
    | _ => c.reloadIdle

/-- An engine scan ends (11, R320, R322). -/
def Chip.scanComplete (c : Chip) : Chip :=
  let e := c.get SC_POS_ENG pgSC
  let ext := c.bit SC_CTL_SIGSRC pgSC
  if !c.scrubUp || !c.bit SC_POS_EVALID pgSC || (ext && c.scrub.sigs.length < 36) then c
  else
    let c := c.scanCorrect e
    let flashBad := !ext && (List.range 288).any fun i => (eccDecode (c.flashWord (0x10000 + 512 * e + i))).isBad
    if flashBad then (c.flashNote (0x80000 + 4096 * e) 2304).scanSigErr
    else
      let c := if ext then c else c.flashNote (0x80000 + 4096 * e) 2304
      let rs := (List.range 288).filter fun r => c.mismatched e r
      let again := c.scrub.redo
      let prio := c.scrub.prioScan || (again && c.bit SC_RLSTS_PRIO pgSC)
      let c := c.each rs fun c _ => c.report pgSC 3
      let c := c.scanEnd
      if rs.isEmpty then
        if prio || again then
          ((c.set SC_RLSTS_ENG pgSC e).setB SC_RLSTS_PRIO pgSC prio).scrubRejoin e
        else c
      else c.scanTreat e prio rs

/-! ## Reload (11, R321, R324) -/

/-- A region takes its 4 KiB; check bits of schedule words are formed anew (11, R321). -/
def Chip.regionWrite (c : Chip) (e r : Nat) (b : List (BitVec 8)) : Chip :=
  if r < 256 then c.each (List.range 512) fun c i => c.setSched e (r / 2) (512 * (r % 2) + i) (BitVec.ofNat 64 (leAt b (8 * i) 8))
  else if r < 272 then c.each (List.range 64) fun c i => c.setCtl e (64 * (r - 256) + i) (BitVec.ofNat 512 (leAt b (64 * i) 64))
  else c.each (List.range 2048) fun c i => c.setMap e (8 * (r - 272) + i / 256) (i % 256) (BitVec.ofNat 12 (leAt b (2 * i) 2))

/-- Lines that the pouncer has read: of the signature table, or of a region in the master copy (11, R320,
R321). -/
def Chip.scrubAnswer (c : Chip) (gen base : Nat) (codes : List Nat) (data : List (BitVec 512)) : Chip :=
  if gen != c.scrub.gen then c
  else
    let bad := codes.any (· != 0)
    let got := data.zipIdx.map fun di => (base + di.2, di.1)
    if c.bit SC_POS_EVALID pgSC then
      if bad then c.scanSigErr else { c with scrub := { c.scrub with sigs := c.scrub.sigs ++ got } }
    else match c.scrub.todo with
      | r :: rs =>
        if c.reloadState != 2 then c
        else if bad then c.reloadFail
        else
          let lines := c.scrub.lines ++ got
          let c := { c with scrub := { c.scrub with lines := lines } }
          if lines.length < 64 then c
          else
            let b := (List.range 64).flatMap fun i => natLe 64 ((lines.lookup i).getD 0).toNat
            if (crc64 b).toNat != c.golden c.reloadEng r then c.reloadFail
            else
              let c := c.regionWrite c.reloadEng r b
              ({ c with scrub := { c.scrub with todo := rs, wrote := c.scrub.wrote ++ [r] } }).reloadRead
      | [] => c

/-- The regions written are read again (11, R321, R322, R324). -/
def Chip.reloadComplete (c : Chip) : Chip :=
  let e := c.reloadEng
  if !c.scrubUp || c.reloadState != 3 then c
  else if c.scrub.wrote.any fun r => c.mismatched e r then c.reloadFail
  else (c.report pgSC 4).scrubRejoin e

/-! ## Protection (11, R326, R327) -/

/-- STOP_REQ on the SC page (11, Table 11-5). -/
def Chip.scrubStop (c : Chip) : Chip :=
  let c := c.scrubFresh
  let c := { c with scrub := { c.scrub with prioScan := false, redo := c.reloadState != 0 } }
  c.setB SC_POS_EVALID pgSC false

/-- No frame, scan or reload is in progress. -/
def Chip.scrubQuiet (c : Chip) : Bool := !c.bit SC_POS_EVALID pgSC && c.reloadState == 0

/-- A heartbeat is missing: the pouncer restarts (11, R327). -/
def Chip.heartbeatMiss (c : Chip) : Chip :=
  if !c.scrubUp then c
  else
    let c := (c.scrubStop).set SC_POS_FRAME pgSC 0
    let c := { c with scrub := { c.scrub with engine := 0 } }
    ((c.set SC_POS_ENG pgSC 0).count SC_EVCNT_RESTART pgSC).report pgSC 9

/-- A triplicated copy is corrected (11, R326). -/
def Chip.scrubTmr (c : Chip) : Chip :=
  if !c.stepsRun then c else (c.count SC_EVCNT_TMR pgSC).report pgSC 8

end Sys2Proof.Machine
end

