-- ==== Sys2Proof/Machine/Loader.lean ====
section
/-! DEFINITION. The lap image (JLI) and its loader (03, R93 to R111). -/
namespace Sys2Proof.Machine

/-! ## Reading an image -/

/-- A section table entry (03, Table 3-7), with its own offset in the image. -/
structure Sect where
  ent : Nat
  stype : Nat
  unit : Nat
  rsv : Nat
  off : Nat
  len : Nat
  crc : Nat
  deriving DecidableEq, Repr

/-- A unit of ENGMAP (03, R99). -/
structure EngMap where
  ent : Nat
  unit : Nat
  group : Nat
  eng : Nat
  paired : Bool
  loose : Bool
  rsv : Bool
  deriving DecidableEq, Repr

/-- Where a check failed: image offset; group, engine, BP, index where the check names them. -/
structure LdErr where
  code : Nat
  off : Nat
  where_ : Option (Nat × Nat × Nat × Nat) := none
  deriving DecidableEq, Repr

abbrev Image := List (BitVec 8)

def Image.gmask (b : Image) : Nat := leAt b 0x20 8
def Image.nunit (b : Image) : Nat := leAt b 0x28 4 + 1
def Image.lap (b : Image) : Nat := leAt b 0x14 2 % 1024 + 1
def Image.div (b : Image) : Nat := leAt b 0x16 1 % 16
def Image.divisor (b : Image) : Nat := b.div + 2
def Image.flags (b : Image) : Nat := leAt b 0x17 1
def Image.paceps (b : Image) : Nat := leAt b 0x18 4
def Image.len (b : Image) : Nat := leAt b 0x08 8 + 1

/-- The section table (03, R97). -/
def Image.sects (b : Image) : List Sect :=
  let at_ := leAt b 0x30 8
  (List.range (leAt b 0x2C 4 + 1)).map fun i =>
    let o := at_ + 32 * i
    let e := (b.drop o).take 32
    { ent := o, stype := leAt e 0 2, unit := leAt e 2 2, rsv := leAt e 4 4 + leAt e 28 4, off := leAt e 8 8,
      len := leAt e 16 8 + 1, crc := leAt e 24 4 }

/-- The bytes of a section. -/
def Image.sect (b : Image) (s : Sect) : Image := (b.drop s.off).take s.len

/-- The section of a type and unit. -/
def Image.find (b : Image) (stype unit : Nat) : Option Sect := b.sects.find? fun s => s.stype == stype && s.unit == unit

/-- The bytes of a section of a type and unit; none where it is absent. -/
def Image.body (b : Image) (stype unit : Nat) : Image := match b.find stype unit with | some s => b.sect s | none => []

/-- The offset of a section of a type and unit. -/
def Image.at (b : Image) (stype unit : Nat) : Nat := match b.find stype unit with | some s => s.off | none => 0

/-- The units of ENGMAP (03, R99). -/
def Image.units (b : Image) : List EngMap :=
  let body := b.body 0x0001 0xFFFF
  (List.range (body.length / 8)).map fun i =>
    let v := leAt body (8 * i) 8
    { ent := b.at 0x0001 0xFFFF + 8 * i, unit := v % 2 ^ 16, group := bitsOf v 21 16, eng := bitsOf v 24 22,
      paired := v.testBit 25, loose := v.testBit 26, rsv := 2 ^ 27 ≤ v }

/-- The engines that a unit occupies. -/
def EngMap.engines (u : EngMap) : List Nat :=
  let e := 8 * u.group + u.eng
  if u.paired then [e, e + 1] else [e]

/-- A type of one section per unit (03, Table 3-8). -/
def perUnit (t : Nat) : Bool := 0x10 ≤ t && t ≤ 0x15

/-- A type that Table 3-8 lists. -/
def knownType (t : Nat) : Bool :=
  t == 1 || perUnit t || (0x20 ≤ t && t ≤ 0x22) || t == 0x40 || 0x8000 ≤ t

/-! ## Checks 2 to 10 -/

/-- A check of a header: 0 where it holds. -/
def headErr (p : Bool) (code off : Nat) : Option LdErr := if p then some { code := code, off := off } else none

/-- The first error of a list. -/
def firstErr : List (Option LdErr) → Option LdErr
  | [] => none
  | some e :: _ => some e
  | none :: es => firstErr es

/-- The error at the lowest image offset. -/
def lowest (es : List LdErr) : Option LdErr :=
  match es with
  | [] => none
  | e :: es => some (es.foldl (fun a x => if x.off < a.off then x else a) e)

/-- Section table rules (03, R97, R98): check 9. -/
def Image.checkTable (b : Image) : Option LdErr :=
  let ss := b.sects
  let n := b.nunit
  let tab := leAt b 0x30 8
  let tabLen := 32 * ss.length
  let at_ := fun (e : Nat) => ({ code := 0x09, off := e } : LdErr)
  let single := ss.filterMap fun s =>
    let l := b.lap
    let want := s.len
    let badLen :=
      (s.stype == 0x01 && want != 8 * n) || (s.stype == 0x10 && want != 1024 * l) || (s.stype == 0x11 && want != 64 * l) ||
      (s.stype == 0x12 && want != 65536) || (s.stype == 0x13 && want % 4 != 0) || (s.stype == 0x14 && want != 4096) ||
      (s.stype == 0x15 && want != 2048) || ((s.stype == 0x20 || s.stype == 0x21) && want % 8 != 0) ||
      (s.stype == 0x22 && want % 4 != 0)
    let badUnit := if perUnit s.stype then decide (n ≤ s.unit) else s.unit != 0xFFFF
    let meets := fun (a la b lb : Nat) => decide (a < b + lb ∧ b < a + la)
    let overlaps := meets s.off s.len 0 256 || meets s.off s.len tab tabLen ||
      ss.any fun t => t.ent != s.ent && meets s.off s.len t.off t.len
    let twice := ss.any fun t => t.ent < s.ent && t.stype == s.stype && t.unit == s.unit && s.stype != 0x40 && s.stype < 0x8000
    if !knownType s.stype || s.rsv != 0 || s.off % 8 != 0 || badLen || badUnit || overlaps || twice then some (at_ s.ent) else none
  let count := fun (t : Nat) => (ss.filter fun s => s.stype == t).length
  let absent := count 1 != 1 || count 0x10 != n || count 0x11 != n || count 0x12 != n || count 0x14 != n ||
    (decide (count 0x22 = 1) != b.flags.testBit 1)
  if tab % 8 ≠ 0 then some (at_ 0x30)
  else match lowest single with
    | some e => some e
    | none => if absent then some (at_ tab) else none

/-- Checks 2 to 4, and check 5 of IMGLEN, which the header alone decides; `avail` is CF_JLLEN + 1 (03, Table 3-9). -/
def Image.checkStart (b : Image) (avail : Nat) : Option LdErr :=
  if avail < 256 then some { code := 0x02, off := 0 }
  else
    let zeroed := b.take 0x50 ++ [0, 0, 0, 0] ++ (b.drop 0x54).take (0x100 - 0x54)
    firstErr
      [headErr (leAt b 0 4 != 0x31494C4A) 0x03 0, headErr (leAt b 4 2 != 1) 0x03 4, headErr (leAt b 6 2 != 0xFF) 0x03 6,
       headErr (leAt b 0x50 4 != (crc32 zeroed).toNat) 0x04 0x50,
       headErr (avail < b.len) 0x02 8]

/-- Checks 2 to 9 over the image as its bytes stand; `avail` is CF_JLLEN + 1 (03, Table 3-9). -/
def Chip.checkHead (c : Chip) (b : Image) (avail : Nat) : Option LdErr :=
  match b.checkStart avail with
  | some e => some e
  | none =>
    let bound := b.units.any fun u => !u.loose
    let edge := leAt b 0x1C 1 / 16
    let pol := leAt b 0x1D 1 % 16
    let badSect := (b.sects.filter fun s => b.len < s.off + s.len).map fun s => ({ code := 0x02, off := s.ent } : LdErr)
    firstErr
      [headErr (b.len < leAt b 0x30 8 + 32 * (leAt b 0x2C 4 + 1)) 0x02 0x30,
       lowest badSect,
       headErr (leAt b 0x10 1 != 5) 0x06 0x10, headErr (leAt b 0x11 1 != 7) 0x06 0x11, headErr (leAt b 0x12 1 != 7) 0x06 0x12,
       headErr (c.stepping.level < leAt b 0x13 1) 0x07 0x13,
       headErr (1024 ≤ leAt b 0x14 2) 0x08 0x14,
       headErr (16 ≤ leAt b 0x16 1 || 8 < b.div) 0x08 0x16,
       headErr (4 ≤ b.flags) 0x08 0x17,
       headErr (if bound then b.paceps == 0 else b.paceps != 0) 0x08 0x18,
       headErr (2 < edge || (edge == 2 && !c.bit GL_OPTIN_PACEDG pgGL) || (!bound && leAt b 0x1C 1 != 0)) 0x08 0x1C,
       headErr (16 ≤ leAt b 0x1D 1 || 2 < pol || (pol == 2 && !c.bit GL_OPTIN_OVRSYNC pgGL) || (!bound && pol != 0)) 0x08 0x1D,
       headErr (leAt b 0x1E 2 != 0) 0x08 0x1E,
       headErr ((b.drop 0x54).take (0x100 - 0x54) |>.any (· != 0)) 0x08 0x54,
       b.checkTable]

/-- Check 10: a group of the mask is not ready to be loaded (03, Table 3-9). -/
def Chip.checkGroups (c : Chip) (b : Image) : Option LdErr :=
  (((setBitsOf 64 b.gmask).filter fun g =>
    c.run (pgEG g) || c.running (pgEG g) || !c.domOn g || c.get EG_LDSTS_STATE (pgEG g) == 2).head?).map fun g =>
      { code := 0x0A, off := 0x20, where_ := some (g, 0, 0, 0) }

/-! ## Checks 11 to 22 -/

/-- Check 12: ENGMAP (03, Table 3-9). -/
def Image.checkMap (b : Image) : List LdErr :=
  let us := b.units
  let gm := b.gmask
  let bad := us.zipIdx.filterMap fun ui =>
    let u := ui.1
    let dup := us.any fun v => v.ent < u.ent && v.engines.any u.engines.contains
    if u.unit != ui.2 || (u.paired && u.eng % 2 == 1) || dup || !gm.testBit u.group || u.rsv then
      some ({ code := 0x0C, off := u.ent, where_ := some (u.group, u.eng, 0, 0) } : LdErr)
    else none
  let empty := (setBitsOf 64 gm).filter fun g => !us.any fun u => u.group == g
  bad ++ empty.map fun g => { code := 0x0C, off := 0x20, where_ := some (g, 0, 0, 0) }

/-- The words of a SCHED section: those of BP 0, then those of BP 1, and so on (03, R97). -/
def schedWords (body : Image) (l : Nat) : List Nat := leWords 8 (128 * l) body

/-- An operand that a word depends on and that has not been written in the lap (03, check 15; 02, R61,
R63). `caps` are the capture addresses written at earlier steps. -/
def badOperand (w s : Nat) (caps : List Nat) : Bool :=
  let tt := bitsOf w 63 48
  (List.range 4).any fun x =>
    (List.range 16).any (fun i => tt.testBit i != tt.testBit (i ^^^ 2 ^ x)) &&
      (let a := bitsOf w (47 - 10 * x) (38 - 10 * x)
       if a < 512 then decide (s ≤ a) else if a < 768 then !caps.contains (a - 512) else false)

/-- Check 15 over a unit (03, Table 3-9). -/
def Image.checkSched (b : Image) (u : EngMap) : List LdErr :=
  let body := b.body 0x10 u.unit
  let at_ := b.at 0x10 u.unit
  let l := b.lap
  let ws := schedWords body l
  (List.range 128).flatMap fun p =>
    (((ws.drop (p * l)).take l).zipIdx.foldl (fun (a : List LdErr × List Nat) ws =>
      let w := ws.1
      let s := ws.2
      let x := w % 256
      let es := if (192 ≤ x ∧ x < 255) ∨ badOperand w s a.2 then
          a.1 ++ [({ code := 0x0F, off := at_ + (p * l + s) * 8, where_ := some (u.group, u.eng, p, s) } : LdErr)] else a.1
      (es, if x = 255 ∨ a.2.contains (s % 256) then a.2 else (s % 256) :: a.2)) ([], [])).1

/-- Words of a unit that are not idle (03, check 16). -/
def Image.busyWords (b : Image) (u : EngMap) : Nat :=
  ((schedWords (b.body 0x10 u.unit) b.lap).filter fun w => w != 0xFF).length

/-- Check 17 over a unit: a record uses a direction when a receive lane takes it, or when a link bit towards
it takes a lane that carries something (03, R87; log entry 42). -/
def Image.checkCtl (b : Image) (u : EngMap) : List LdErr :=
  let body := b.body 0x11 u.unit
  let gm := b.gmask
  let open_ := fun d => match neighbour u.group d with | some h => gm.testBit h | none => false
  (List.range b.lap).filterMap fun s =>
    let r := leAt body (64 * s) 64
    let rsel := fun j => bitsOf r (64 + 4 * j + 3) (64 + 4 * j)
    let bad := (List.range 64).any (fun j => let x := rsel j; (12 ≤ x && x ≤ 14) || (8 ≤ x && x ≤ 11 && !open_ (x - 8))) ||
      (List.range 32).any fun n => !open_ (n / 8) && rsel (bitsOf r (320 + 6 * n + 5) (320 + 6 * n)) != 15
    if bad then some { code := 0x11, off := b.at 0x11 u.unit + 64 * s, where_ := some (u.group, u.eng, 0, s) } else none

/-- A commit entry of a unit (03, R100). -/
def commitOf (body : Image) (p j : Nat) : Nat := leAt body ((p * 256 + j) * 2) 2

/-- Check 18 over a unit. -/
def Image.checkCommit (b : Image) (u : EngMap) : List LdErr :=
  let body := b.body 0x12 u.unit
  (leWords 2 32768 body).zipIdx.filterMap fun vi =>
    let v := vi.1
    let i := vi.2
    let k := bitsOf v 11 10
    let bad := 4096 ≤ v || 2 ≤ k || (k == 0 && v % 1024 != 0) || (k == 1 && (v.testBit 9 || b.lap ≤ v % 512))
    if bad then some { code := 0x12, off := b.at 0x12 u.unit + 2 * i, where_ := some (u.group, u.eng, i / 256, i % 256) } else none

/-- The INMAP records of a unit: BP, state entry, group input bit, reserved bits set (03, R101). -/
def Image.inmap (b : Image) (u : EngMap) : List (Nat × Nat × Nat × Bool) :=
  let body := b.body 0x13 u.unit
  (List.range (body.length / 4)).map fun i =>
    let v := leAt body (4 * i) 4
    (v % 128, bitsOf v 15 8, bitsOf v 25 16, v.testBit 7 || 2 ^ 26 ≤ v)

/-- Checks 19 and 20 over a unit. -/
def Image.checkInmap (b : Image) (u : EngMap) : List LdErr :=
  let rs := (b.inmap u).zipIdx
  let body := b.body 0x12 u.unit
  rs.flatMap fun ri =>
    let (p, j, _, rsv) := ri.1
    let err := fun (code : Nat) => ({ code := code, off := b.at 0x13 u.unit + 4 * ri.2, where_ := some (u.group, u.eng, p, j) } : LdErr)
    (if rsv || rs.any (fun q => q.2 < ri.2 && q.1.1 == p && q.1.2.1 == j) then [err 0x13] else []) ++
      (if bitsOf (commitOf body p j) 11 10 = 1 then [err 0x14] else [])

/-- Check 21: port records (03, R103). -/
def Image.checkPorts (b : Image) : List LdErr :=
  let us := b.units
  let part := fun (t : Nat) =>
    let body := b.body t 0xFFFF
    let rs := (List.range (body.length / 8)).map fun i => leAt body (8 * i) 8
    rs.zipIdx.filterMap fun vi =>
      let v := vi.1
      let g := bitsOf v 21 16
      let bit := bitsOf v 31 22
      let cell := bitsOf v 47 32
      let rec_ := fun w => (w % 2 ^ 16, bitsOf w 21 16, bitsOf w 31 22)
      let e := 8 * g + bit / 128
      let holds := us.any fun u => u.engines.contains e && !(u.paired && e % 2 == 1)
      let dup := if t = 0x20 then rs.zipIdx.any fun q => q.2 < vi.2 && (rec_ q.1).2 == (rec_ v).2
        else rs.zipIdx.any fun q => q.2 < vi.2 && (rec_ q.1).1 == (rec_ v).1
      if !b.gmask.testBit g || (480 ≤ cell && cell != 0xFFFF) || (t == 0x21 && !holds) || 2 ^ 48 ≤ v || dup then
        some ({ code := 0x15, off := b.at t 0xFFFF + 8 * vi.2, where_ := some (g, bit / 128, bit % 128, bit) } : LdErr)
      else none
  part 0x20 ++ part 0x21

/-- Check 22: combinational paths (03, R104). -/
def Image.checkComb (b : Image) : List LdErr :=
  let ports := fun (t : Nat) => let body := b.body t 0xFFFF
    (List.range (body.length / 8)).map fun i => leAt body (8 * i) 2
  let body := b.body 0x22 0xFFFF
  let rs := ((List.range (body.length / 4)).map fun i => leAt body (4 * i) 4).zipIdx
  rs.filterMap fun vi =>
    if !(ports 0x20).contains (vi.1 % 2 ^ 16) || !(ports 0x21).contains (vi.1 / 2 ^ 16) ||
        rs.any fun q => q.2 < vi.2 && q.1 == vi.1 then
      some { code := 0x16, off := b.at 0x22 0xFFFF + 4 * vi.2 } else none

/-- Checks 11 to 22: the lowest-numbered that fails, at its lowest offset (03, R105). -/
def Image.checkBody (b : Image) : Option LdErr :=
  let us := b.units
  let bound := us.any fun u => !u.loose
  let l := b.lap
  let d := b.divisor
  let capable := !bound || decide ((2 * l + 16) * 250 * d ≤ b.paceps)
  firstErr
    [lowest ((b.sects.filter fun s => (crc32 (b.sect s)).toNat != s.crc).map fun s => { code := 0x0B, off := s.off }),
     lowest b.checkMap,
     headErr (bound && decide (b.paceps < (l + 12) * 250 * d)) 0x0D 0x18,
     headErr (b.flags.testBit 0 != capable) 0x0E 0x17,
     lowest (us.flatMap b.checkSched),
     headErr (leAt b 0x38 8 != (us.map b.busyWords).sum) 0x10 0x38,
     lowest (us.flatMap b.checkCtl),
     lowest (us.flatMap b.checkCommit),
     lowest ((us.flatMap b.checkInmap).filter fun e => e.code == 0x13),
     lowest ((us.flatMap b.checkInmap).filter fun e => e.code == 0x14),
     lowest b.checkPorts,
     lowest b.checkComb]

/-! ## The loader's registers and its two passes (03, R106 to R110) -/

/-- CF_JLSTS.PHASE. -/
def Chip.ldPhase (c : Chip) : Nat := c.get CF_JLSTS_PHASE pgCF

/-- The groups that the loader has set to LOADING return to a state (03, R107, R109). -/
def Chip.ldGroups (c : Chip) (failed : Bool) : Chip :=
  let c := c.loader.prior.foldl (fun c gs =>
    c.set EG_LDSTS_STATE (pgEG gs.1) (if !c.domOn gs.1 then 0 else if failed then 3 else gs.2)) c
  { c with loader := { c.loader with prior := [] } }

/-- The result registers (03, CF_JLCODE, CF_JLOFFS, CF_JLWHERE). -/
def Chip.ldResult (c : Chip) (e : LdErr) : Chip :=
  let (g, k, p, i) := e.where_.getD (0, 0, 0, 0)
  (((((((c.set CF_JLCODE_CODE pgCF e.code).set CF_JLOFFS_OFFS pgCF e.off).setB CF_JLWHERE_VALID pgCF e.where_.isSome).set
    CF_JLWHERE_GROUP pgCF g).set CF_JLWHERE_ENG pgCF k).set CF_JLWHERE_BP pgCF p).set CF_JLWHERE_INDEX pgCF i).set
    CF_JLSTS_PHASE pgCF 0

/-- The check pass rejects an image (03, R105, R107). -/
def Chip.ldReject (c : Chip) (e : LdErr) : Chip :=
  (((c.ldGroups false).ldResult e).setB CF_JLSTS_REJ pgCF true).report pgCF 0

/-- The write pass ends without completing (03, R109). -/
def Chip.ldFail (c : Chip) (code : Nat) : Chip :=
  (((c.ldGroups true).ldResult { code := code, off := 0 }).setB CF_JLSTS_REJ pgCF true).report pgCF 1

/-- Check 10 has passed: the groups of the mask take LOADING (03, R107). -/
def Chip.ldMark (c : Chip) (b : Image) : Chip :=
  let gs := setBitsOf 64 b.gmask
  let c := { c with loader := { c.loader with prior := gs.map fun g => (g, c.get EG_LDSTS_STATE (pgEG g)) } }
  (c.each gs fun c g => c.set EG_LDSTS_STATE (pgEG g) 2).scrubLook

/-- GO (03, R106): the image registers are sampled and the check pass begins. -/
def Chip.ldGo (c : Chip) (byStream : Bool) : Chip :=
  if c.ldPhase ≠ 0 ∨ !c.run pgCF then c.wign pgCF
  else
    let addr := c.get CF_JLADDRH_ADDR pgCF * 2 ^ 32 + c.get CF_JLADDR_ADDR pgCF * 8
    { c.set CF_JLSTS_PHASE pgCF 1 with
      loader := { addr := addr, len := c.get CF_JLLEN_LEN pgCF + 1, kidx := c.get CF_JLCTL_KIDX pgCF,
                  chkOnly := c.bit CF_JLCTL_CHKONLY pgCF, byStream := byStream } }

/-- Checks 1 to 10 over the image as it is read; `src` is the error of a read (03, R105). -/
def Chip.ldHead (c : Chip) (b : Image) (src : Bool) : Option LdErr :=
  if src then some { code := 0x01, off := 0 }
  else match c.checkHead b c.loader.len with
    | some e => some e
    | none => if c.loader.chkOnly || !c.loader.prior.isEmpty then none else c.checkGroups b

/-- The header part of the check pass, where the loader has read that far before the pass ends. -/
def Chip.ldEarly (c : Chip) (b : Image) (src : Bool) : Chip :=
  match c.ldHead b src with
  | some e => c.ldReject e
  | none => if c.loader.chkOnly then c else c.ldMark b

/-- The check pass is done (03, R105, R108). -/
def Chip.ldChecked (c : Chip) (b : Image) (src : Bool) : Chip :=
  match c.ldHead b src with
  | some e => c.ldReject e
  | none =>
    let c := if c.loader.chkOnly || !c.loader.prior.isEmpty then c else c.ldMark b
    match b.checkBody with
    | some e => c.ldReject e
    | none =>
      if c.loader.chkOnly then (c.ldResult { code := 0, off := 0 }).setB CF_JLSTS_DONE pgCF true
      else
        { (c.set CF_JLSTS_PHASE pgCF 2).set CF_JLSTS_UNITS pgCF 0 with
          loader := { c.loader with crcs := b.sects.map fun s => (crc32 (b.sect s)).toNat } }

/-- One engine takes a unit (03, R108, steps 1 to 5). -/
def Chip.ldEngine (c : Chip) (b : Image) (u : EngMap) (e : Nat) : Chip :=
  let l := b.lap
  let sched := b.body 0x10 u.unit
  let ctl := b.body 0x11 u.unit
  let com := b.body 0x12 u.unit
  let init := b.body 0x14 u.unit
  let ins := b.inmap u
  let ws := schedWords sched l
  let c := c.loadSched e ((List.range 128).flatMap fun p =>
    ((ws.drop (p * l)).take l).map (BitVec.ofNat 64) ++ List.replicate (1024 - l) 0xFF)
  let c := c.loadMap e ((leWords 2 32768 com).map (BitVec.ofNat 12))
  let c := c.each (List.range 128) fun c p => c.each [0, 1] fun c bank => c.each (List.range 4) fun c q =>
    c.setBank e p bank q (BitVec.ofNat 64 (leAt init (32 * p + 8 * q) 8))
  let c := ins.foldl (fun c r => c.setMap e r.1 r.2.1 (BitVec.ofNat 12 (0x800 + r.2.2.1))) c
  let c := c.loadCtl e ((leWords 64 l ctl).map (BitVec.ofNat 512) ++ List.replicate (1024 - l) 0)
  let p := pgEE e
  (((c.set EE_BANK_CUR p 0).set EE_LAPCTL_LCOUNT p (l - 1)).setB EE_LAPCTL_CLASS p u.loose).set EE_PAIR_ROLE p
    (if u.paired then 1 + e % 2 else 0)

/-- One unit is written (03, R108). -/
def Chip.ldUnit (c : Chip) (b : Image) (u : EngMap) : Chip :=
  let c := u.engines.foldl (fun c e => c.ldEngine b u e) c
  let p := pgEG u.group
  ((((c.set EG_STEPCLK_DIV p b.div).set EG_PACE_PIN p (leAt b 0x1C 1 % 16)).set EG_PACE_EDGE p (leAt b 0x1C 1 / 16)).set
    EG_PACE_OVRPOL p (leAt b 0x1D 1 % 16)).set CF_JLSTS_UNITS pgCF (c.get CF_JLSTS_UNITS pgCF + 1)

/-- The octet pairs of EG_LINKPAIR of a group: where the neighbour in a direction holds a paired bound unit (06, R172). -/
def Image.linkPairs (b : Image) (g : Nat) : Nat :=
  ofBits (fun i => match neighbour g (i / 4) with
    | some h => b.units.any fun u => u.group == h && u.eng == 2 * (i % 4) && u.paired && !u.loose
    | none => false) 16

/-- What the write pass writes in a group of the image beside its units: the deadlines of an image with a bound unit
(04, R137), RUN of every engine (04, R140), EG_LINKPAIR (06, R172), and the replay set with BEN (06, R178). -/
def Chip.ldGroup (c : Chip) (b : Image) (g : Nat) : Chip :=
  let p := pgEG g
  let us := b.units
  let f := b.paceps / (250 * b.divisor)
  let c := if us.any fun u => !u.loose then
      ((c.set EG_DLEARLY_EARLY p (f - 2)).set EG_DLLATE_LATE p (f + 1 + f / 64)).setB EG_DLLATE_EN p true
    else c.setB EG_DLLATE_EN p false
  let c := c.each (List.range 8) fun c k =>
    c.setB PG_CTL_RUN (pgEE (8 * g + k)) (us.any fun u => u.engines.contains (8 * g + k))
  (((c.set EG_LINKPAIR_PAIR p (b.linkPairs g)).set EG_RPLSETL_SET p (b.gmask % 2 ^ 32)).set EG_RPLSETH_SET p (b.gmask / 2 ^ 32)).setB
    EG_RPLCTL_BEN p (b.flags.testBit 0)

/-- How far a write pass that ends early has come: the spec gives no figure (log entry 43). -/
def Chip.ldPart (c : Chip) (b : Image) : Chip :=
  let (n, c) := c.drawWord
  (b.units.take (n.toNat % (b.units.length + 1))).foldl (fun c u => c.ldUnit b u) c

/-- The write pass is done, or a read or a section CRC ends it (03, R108, R109). -/
def Chip.ldWritten (c : Chip) (b : Image) (src : Bool) : Chip :=
  if src then (c.ldPart b).ldFail 0x01
  else if (b.sects.map fun s => (crc32 (b.sect s)).toNat) != c.loader.crcs then (c.ldPart b).ldFail 0x0B
  else
    let c := b.units.foldl (fun c u => c.ldUnit b u) c
    let c := c.each (setBitsOf 64 b.gmask) fun c g =>
      ((c.ldGroup b g).set EG_LDSTS_STATE (pgEG g) 1).set EG_IMGID_IMGID (pgEG g) (leAt b 0x40 4)
    let c := { c with loader := { c.loader with prior := [] } }
    (c.ldResult { code := 0, off := 0 }).setB CF_JLSTS_DONE pgCF true

/-- ABORT, a cleared RUN or a STOP_REQ of the CF page ends a load (03, R109); `b` is what the loader can
read. -/
def Chip.ldAbort (c : Chip) (b : Image) : Chip :=
  match c.ldPhase with
  | 1 => c.ldReject { code := 0x17, off := 0 }
  | 2 => (c.ldPart b).ldFail 0x17
  | _ => c

/-- The domain of a group of the image leaves the on state (03, R109, R110). -/
def Chip.ldPower (c : Chip) (g : Nat) (b : Image) : Chip :=
  if c.ldPhase = 2 ∧ c.loader.prior.any (fun p => p.1 == g) then (c.ldPart b).ldFail 0x18 else c

end Sys2Proof.Machine
end

