-- ==== Sys2Proof/Machine/Stream.lean ====
section
/-! DEFINITION. Configuration by blocking stream (10). -/
namespace Sys2Proof.Machine

/-! ## Stream state, errors and pins -/

/-- CF_STS.STATE: 0 IDLE, 1 RECEIVING, 2 STARTING, 3 DONE, 4 ERROR, 5 WAITSRC. -/
def Chip.cfState (c : Chip) : Nat := c.get CF_STS_STATE pgCF

/-- CF_STS.STATE takes a code. -/
def Chip.setCf (c : Chip) (v : Nat) : Chip := c.set CF_STS_STATE pgCF v

/-- The bytes of the sync marker (10, R282). -/
def syncMarker : List (BitVec 8) := [0xC3, 0xA5, 0x5A, 0x3C]

/-- What is left of the bytes taken while the device looks for a marker, word by word (10, R282). -/
def seekStep (buf w : List (BitVec 8)) : List (BitVec 8) :=
  if buf.take 4 = syncMarker then buf ++ w
  else if w = [0xC3, 0xA5] then w
  else if buf = [0xC3, 0xA5] ∧ w = [0x5A, 0x3C] then syncMarker
  else []

/-- The two bytes at word `i`. -/
def wordAt (b : List (BitVec 8)) (i : Nat) : List (BitVec 8) := (b.drop (2 * i)).take 2

/-- The buffer after its words have been searched for a marker. -/
def seekMarker (b : List (BitVec 8)) : List (BitVec 8) :=
  (List.range ((b.length + 1) / 2)).foldl (fun a i => seekStep a (wordAt b i)) []

/-- The buffer takes a content; CFG_WAIT_N follows its fill (10, R293). -/
def Chip.setBuf (c : Chip) (b : List (BitVec 8)) : Chip :=
  let low := if 1024 ≤ b.length then true else if b.length < 512 then false else c.stream.waitLow
  { c with stream := { c.stream with buf := b, waitLow := low } }

/-- CFG_WAIT_N is driven low (10, R293; 20, R546). -/
def Chip.cfgWait (c : Chip) : Bool :=
  let s := c.cfState
  let busy := match c.stream.wait with
    | .loadjli _ _ _ _ => true
    | .waiton _ => true
    | .delay _ => true
    | _ => false
  c.get CF_CTL_SRC pgCF == 1 &&
    (!c.stepsRun || (s != 0 && s != 3 && s != 4 && (c.stream.waitLow || busy || !c.accepts pgCF)))

/-- The stream enters ERROR (10, R305, R309). `own` is false for an error that another device has signalled. -/
def Chip.streamFail (c : Chip) (code neterr seq : Nat) (own : Bool := true) : Chip :=
  let c := (((c.setCf 4).set CF_SERR_CODE pgCF code).set CF_SERR_NETERR pgCF neterr).set CF_SERR_SEQ pgCF seq
  let c := (c.setB CF_STS_DONEREL pgCF false).setB CF_STS_PEND pgCF false
  let st := c.stream
  let c := { c with stream := { st with errDrive := own || st.errDrive, wait := .none, pend := none, toStart := [], srcLeft := 0 } }
  let c := c.setBuf (seekMarker c.stream.buf)
  c.report pgCF (if code = 8 ∨ code = 9 then 3 else 2)

/-- SEQ of the frame that was taken last. -/
def Chip.lastSeq (c : Chip) : Nat := (c.get CF_SEQ_NEXT pgCF + 65535) % 65536

/-- The stream controller works: its page runs, MAIN is up and no freeze holds it. -/
def Chip.cfUp (c : Chip) : Bool :=
  c.works pgCF && (c.rst.phase == .mainup || c.rst.phase == .ready) && c.stepsRun

/-! ## Words and markers (10, R282, R293) -/

/-- The device takes one word at the configuration port (10, R293; 18, R497; 20, R546). -/
def Chip.portWordIn (c : Chip) (w : BitVec 16) : Chip :=
  if c.get CF_CTL_SRC pgCF != 1 || !(c.rst.phase == .mainup || c.rst.phase == .ready) then c
  else
    let s := c.cfState
    let open_ := s == 1 || s == 2 || s == 5
    if !c.stepsRun then
      (if open_ then { c with stream := { c.stream with lostWords := true } } else c)
    else
      let b := natLe 2 w.toNat
      if open_ then
        (if 2048 ≤ c.stream.buf.length then c.streamFail 0x0A 0 c.lastSeq else c.setBuf (c.stream.buf ++ b))
      else c.setBuf (seekStep c.stream.buf b)

/-- A sync marker at the front of the buffer starts a new stream (10, R282, R294, R295), but none in the failed state
(19, R516). -/
def Chip.syncStart (c : Chip) : Chip :=
  let s := c.cfState
  let ok := s == 0 || s == 3 || s == 4 || (s == 1 && c.stream.wait == .none)
  if c.cfUp && ok && !c.flt.failed && c.stream.buf.take 4 == syncMarker then
    let c := ((c.setCf 1).set CF_SEQ_NEXT pgCF 0).set CF_FRCNT_COUNT pgCF 0
    let c := (((c.setB CF_STS_AUTHOK pgCF false).setB CF_STS_PEND pgCF false).setB CF_STS_PARTIAL pgCF false).setB CF_STS_DONEREL pgCF false
    let st := c.stream
    let c := { c with stream := { st with
      lastCode := [], msg := [], pend := none, sawFabric := false, sawJli := false, sawClear := false, regions := 0, groups := 0,
      sectors := [], cells := [], wait := .none, toStart := [], errDrive := false, errIn := false } }
    c.setBuf (c.stream.buf.drop 4)
  else c

/-- CFG_ERR_N has been sampled low on two edges (10, R295). -/
def Chip.remoteError (c : Chip) : Chip :=
  if c.cfUp && c.get CF_CTL_SRC pgCF == 1 && (c.cfState == 1 || c.cfState == 2) then
    ({ c with stream := { c.stream with errIn := true } }).streamFail 0x0D 0 c.lastSeq false
  else c

/-! ## The device-space source (10, R296) -/

/-- The source asks for its next line, or has read its range (10, R296). -/
def Chip.srcPump (c : Chip) : Chip :=
  let st := c.stream
  if st.srcBusy || !c.running pgCF || !c.accepts pgCF then c
  else if 0 < st.srcLeft ∧ st.buf.length + 64 ≤ 2048 then
    let c := { c with stream := { st with srcBusy := true } }
    c.ask { asker := .cfgSource, op := .read, addr := st.srcAddr - st.srcAddr % 64, kidx := st.srcKidx }
  else c

/-- The stream's range has been read and its frames taken: WAITSRC (10, R296). -/
def Chip.srcWait (c : Chip) : Chip :=
  if c.get CF_CTL_SRC pgCF == 0 && c.cfState == 1 && c.stream.srcLeft == 0 && !c.stream.srcBusy &&
      c.stream.wait == .none && c.stream.buf.length < 524 && c.stream.buf.take 4 != syncMarker then c.setCf 5
  else c

/-- A line of the source has been read (10, R296). -/
def Chip.srcAnswer (c : Chip) (code : Nat) (data : BitVec 512) : Chip :=
  let st := c.stream
  let c := { c with stream := { st with srcBusy := false } }
  if code ≠ 0 then
    (if st.srcLeft = 0 then c else c.streamFail 0x0E code c.lastSeq)
  else
    let skip := st.srcAddr % 64
    let n := min (64 - skip) st.srcLeft
    let bytes := ((natLe 64 data.toNat).drop skip).take n
    let c := { c with stream := { c.stream with srcLeft := st.srcLeft - n, srcAddr := st.srcAddr + n } }
    let s := c.cfState
    let c := if s == 1 || s == 2 || s == 5 then c.setBuf (st.buf ++ bytes) else c.setBuf (seekMarker (st.buf ++ bytes))
    c.srcPump.srcWait

/-- GO (10, R296). -/
def Chip.srcGo (c : Chip) : Chip :=
  let s := c.cfState
  let reading := c.stream.srcBusy || 0 < c.stream.srcLeft
  if c.get CF_CTL_SRC pgCF != 0 || !c.accepts pgCF || ((s == 1 || s == 2) && reading) then c.wign pgCF
  else
    let addr := c.get CF_SRCADDRH_ADDR pgCF * 2 ^ 32 + c.get CF_SRCADDRL_ADDR pgCF * 8
    let n := c.get CF_SRCLEN_LEN pgCF + 1
    let k := c.get CF_SRCCTL_KIDX pgCF
    let e := c.bufferCheck2 60 0 k addr n false
    if e ≠ 0 then c.streamFail 0x0E e c.lastSeq
    else
      let c := { c with stream := { c.stream with srcLeft := n, srcAddr := addr, srcKidx := k } }
      let c := if s == 5 then c.setCf 1 else c
      c.srcPump

/-! ## Frames (10, R281 to R291) -/

/-- The frame at the front of the buffer, where the controller may take it. -/
def Chip.nextFrame (c : Chip) : Option (List (BitVec 8)) :=
  if c.cfUp && c.accepts pgCF && c.cfState == 1 && c.stream.wait == .none && 524 ≤ c.stream.buf.length &&
      c.stream.buf.take 4 != syncMarker then some (c.stream.buf.take 524)
  else none

def frameDaddr (f : List (BitVec 8)) : Nat := leAt f 0 8 % 64
def frameType (f : List (BitVec 8)) : Nat := bitsOf (leAt f 0 8) 11 8
def frameAddr (f : List (BitVec 8)) : Nat := bitsOf (leAt f 0 8) 47 16
def frameSeq (f : List (BitVec 8)) : Nat := bitsOf (leAt f 0 8) 63 48
/-- Data bits `hi` to `lo` of a frame. -/
def frameBits (f : List (BitVec 8)) (hi lo : Nat) : Nat := bitsOf (leAt f 8 512) hi lo

/-- The frame is addressed to the device (10, R284). -/
def Chip.frameMine (c : Chip) (f : List (BitVec 8)) : Bool :=
  frameDaddr f == 0x3F || (frameDaddr f == c.get GL_STRAPS_DEV_ID pgGL)

/-- Pair `n` of a REGW frame: offset and value (10, R288). -/
def framePair (f : List (BitVec 8)) (n : Nat) : Nat × Nat := (leAt f (8 + 8 * n) 4, leAt f (12 + 8 * n) 4)

/-- The placement and reserved-bit rules of a command frame (10, R289, Table 10-6). -/
def Chip.cmdFormat (c : Chip) (f : List (BitVec 8)) : Bool :=
  let a := frameAddr f
  let d := leAt f 8 512
  let partial_ := c.bit CF_STS_PARTIAL pgCF
  a < 256 &&
    (if a = 1 then d == 0 && frameDaddr f == 0x3F
     else if a = 2 then decide (d < 2 ^ 192) && d != 0 && !partial_ && !c.stream.sawFabric && !c.stream.sawJli && !c.stream.sawClear
     else if a = 3 then decide (d < 2 ^ 104) && bitsOf d 63 44 == 0 && d % 8 == 0
     else if a = 4 then decide (d < 256) && !partial_
     else if a = 5 then decide (d < 2 ^ 80)
     else a == 6 && decide (d < 2 ^ 24))

/-- Check 3 of a frame (10, Table 10-4). -/
def Chip.frameFormat (c : Chip) (f : List (BitVec 8)) : Bool :=
  let h := leAt f 0 8
  let a := frameAddr f
  bitsOf h 7 6 == 0 && bitsOf h 15 12 == 0 &&
    (match frameType f with
     | 1 => decide (a < 2 ^ 16)
     | 2 => decide (a < 2 ^ 11)
     | 3 => decide (a < 2 ^ 15)
     | 4 => decide (a < 2 ^ 5)
     | 5 => true
     | 6 => decide (a < 64) && ((List.range 64).all fun n =>
         let p := framePair f n
         if n ≤ a then p.1 % 4 == 0 && decide (p.1 < 2 ^ 27) else p.1 == 0 && p.2 == 0)
     | 7 => c.cmdFormat f
     | 8 => decide (a < 4) && decide (leAt f 40 480 = 0)
     | 9 => true
     | _ => false)

/-- The sector of a fabric frame. -/
def frameSector (f : List (BitVec 8)) : Nat :=
  if frameType f = 4 then cellSector (24 * (frameAddr f % 32)) else frameAddr f % 8

/-- Check 5 of a frame (10, R286, R287). -/
def Chip.frameRange (c : Chip) (f : List (BitVec 8)) : Bool :=
  let a := frameAddr f
  match frameType f with
  | 3 => decide (bitsOf a 14 11 ≤ 8)
  | 4 => decide (a % 32 ≤ 19)
  | 5 => decide (a ≤ c.get CF_STGSIZE_SIZE pgCF)
  | _ => true

/-- Check 6 of a fabric frame (10, R300). -/
def Chip.frameScope (c : Chip) (f : List (BitVec 8)) : Bool :=
  let a := frameAddr f
  let s := frameSector f
  if c.bit CF_STS_PARTIAL pgCF then
    let named := fun r => c.stream.regions.testBit (16 * s + r)
    match frameType f with
    | 1 => named (4 * (bitsOf a 7 3 / 8) + bitsOf a 13 8 / 16)
    | 4 => named 3 && named 7 && named 11 && named 15
    | _ => named (4 * (bitsOf a 7 3 / 8) + bitsOf a 10 8 / 2)
  else !c.bit FB_STATE_STARTED (pgFB s)

/-- A configuration frame is written with check bits (10, R286; 11, R311). -/
def Chip.writeCfg (c : Chip) (F : Nat) (f : List (BitVec 8)) : Chip :=
  { c with fab := { c.fab with cfg := (List.range 64).foldl (fun m i =>
      Store.put 0 m (64 * F + i) (secded (BitVec.ofNat 64 (leAt f (8 + 8 * i) 8)))) c.fab.cfg } }

/-- A fabric frame takes effect (10, R286). -/
def Chip.actFabric (c : Chip) (f : List (BitVec 8)) : Chip :=
  let a := frameAddr f
  let s := frameSector f
  let st := c.stream
  let c := { c with stream := { st with sawFabric := true, sectors := if st.sectors.contains s then st.sectors else st.sectors ++ [s] } }
  match frameType f with
  | 1 => c.writeCfg (8448 * s + 4 * (64 * bitsOf a 7 3 + bitsOf a 13 8) + bitsOf a 15 14) f
  | 2 => c.writeCfg (8448 * s + 8192 + 32 * bitsOf a 10 8 + bitsOf a 7 3) f
  | 3 =>
    let n := 256 * s + 32 * bitsOf a 10 8 + bitsOf a 7 3
    (List.range 512).foldl (fun c i =>
      let lo := 4096 * bitsOf a 14 11 + 8 * i
      let w := (Store.get 0 c.fab.now.ram (512 * n + lo / 72)).toNat
      { c with fab := { c.fab with now := { c.fab.now with
          ram := Store.put 0 c.fab.now.ram (512 * n + lo / 72) (BitVec.ofNat 72 (setBits w (lo % 72 + 7) (lo % 72) (leAt f (8 + i) 1))) } } }) c
  | _ =>
    let b := a % 32
    let c := { c with stream := { c.stream with cells := (c.stream.cells ++ (List.range 24).map (24 * b + ·)).eraseDups } }
    c.writeCfg (67584 + b) f

/-- The first pair of a REGW frame that is not yet answered is written (10, R288). -/
def Chip.regwAsk (c : Chip) : Chip :=
  match c.stream.wait with
  | .regw ((off, v) :: _) =>
    c.ask { asker := .cfgWrite, op := .regwr, addr := regBase + off, wdata := BitVec.ofNat 64 v }
  | _ => c

/-- The controller waits. -/
def Chip.setWait (c : Chip) (w : StreamWait) : Chip := { c with stream := { c.stream with wait := w } }

/-- A write of the controller has been answered (10, R287, R288). -/
def Chip.streamWritten (c : Chip) (code : Nat) : Chip :=
  match c.stream.wait with
  | .data => if code = 0 then ((c.setWait .none).srcPump).srcWait else c.streamFail 0x06 code c.lastSeq
  | .regw (_ :: ps) =>
    if code ≠ 0 then c.streamFail 0x06 code c.lastSeq
    else if ps.isEmpty then ((c.setWait .none).srcPump).srcWait
    else (c.setWait (.regw ps)).regwAsk
  | _ => c

/-! ## Commands (10, R289, R298 to R307) -/

/-- END (10, R298, R302): CFG_DONE is released and START becomes due. -/
def Chip.actEnd (c : Chip) : Chip :=
  let st := c.stream
  let due :=
    if c.flt.failed then []
    else if c.bit CF_STS_PARTIAL pgCF then (List.range 8).filter fun s => bitsOf st.regions (16 * s + 15) (16 * s) != 0
    else st.sectors.filter fun s => c.domOn (64 + s) && !c.bit FB_STATE_STARTED (pgFB s)
  let c := { c.setB CF_STS_DONEREL pgCF (!c.flt.failed) with stream := { st with toStart := due } }
  if due.isEmpty && !c.bit CF_CTL_DONESYNC pgCF then (c.setCf 3).setBuf (seekMarker c.stream.buf) else c.setCf 2

/-- START takes effect in a sector at its GCLK0 edges E_S to E_S + 2 (10, R298, R302, Table 10-8). `high`: CFG_DONE
has been high for 100 ns. -/
def Chip.startEdge (c : Chip) (s : Nat) (high : Bool) : Chip :=
  let c := { c with stream := { c.stream with doneIn := high } }
  if c.cfState == 2 && c.fabClocks && (high || !c.bit CF_CTL_DONESYNC pgCF) then
    let st := c.stream
    let hit := st.toStart.contains s && c.domOn (64 + s) && (c.get FB_GCLKEN_EN (pgFB s)).testBit 0
    let c :=
      if !hit then c
      else if c.bit CF_STS_PARTIAL pgCF then
        let rs := ((List.range 16).filter fun r => st.regions.testBit (16 * s + r)).map (16 * s + ·)
        c.startRegions rs (st.cells.filter fun n => cellSector n == s)
      else c.startSector s
    let left := if hit then st.toStart.filter (· != s) else st.toStart
    let c := { c with stream := { c.stream with toStart := left } }
    if left.isEmpty then (c.setCf 3).setBuf (seekMarker c.stream.buf) else c
  else c

/-- PARTIAL, once the named groups are idle: fences rise and the named regions are held (10, R299). -/
def Chip.partialGo (c : Chip) : Chip :=
  let st := c.stream
  let gs := setBitsOf 64 st.groups
  if gs.all fun g => !c.running (pgEG g) then
    let rs := setBitsOf 128 st.regions
    let c := c.each gs Chip.raiseGroup
    let c := c.each rs Chip.raiseRegion
    let c := { c with fab := { c.fab with regHeld := (c.fab.regHeld ++ rs).eraseDups } }
    ((c.each rs Chip.holdRegion).setB CF_STS_PARTIAL pgCF true).setWait .none
  else c.setWait .partialStop

/-- PARTIAL (10, R299, R300, R308). -/
def Chip.actPartial (c : Chip) (f : List (BitVec 8)) : Chip :=
  let regions := frameBits f 127 0
  let groups := frameBits f 191 128
  let ss := (List.range 8).filter fun s => bitsOf regions (16 * s + 15) (16 * s) != 0
  if ss.any fun s => !c.domOn (64 + s) then c.streamFail 0x06 errPwroff c.lastSeq
  else if ss.any fun s => !c.bit FB_STATE_STARTED (pgFB s) then c.streamFail 0x05 0 c.lastSeq
  else
    let c := { c with stream := { c.stream with regions := regions, groups := groups } }
    let c := c.each ((setBitsOf 64 groups).filter fun g => c.run (pgEG g)) Chip.egRunClear
    c.partialGo

/-- The group mask in the header of an image, where the header lies in the scratchpad; `given` elsewhere. -/
def Chip.imageGmask (c : Chip) (addr given : Nat) : Nat :=
  if regionOf addr = some .sp then (match c.spBytes (addr + 0x20) 8 with | some b => leNat b | none => given) else given

/-- LOADJLI, once the loader is idle (10, R307). -/
def Chip.jliGo (c : Chip) : Chip :=
  match c.stream.wait with
  | .loadjli addr len kidx false =>
    if c.ldPhase = 0 then
      let c := ((c.set CF_JLADDR_ADDR pgCF (addr / 8 % 2 ^ 29)).set CF_JLADDRH_ADDR pgCF (addr / 2 ^ 32)).set CF_JLLEN_LEN pgCF len
      let c := (c.set CF_JLCTL_KIDX pgCF kidx).setB CF_JLCTL_CHKONLY pgCF false
      let c := c.ldGo true
      if c.ldPhase = 0 then c.streamFail 0x07 0 c.lastSeq else c.setWait (.loadjli addr len kidx true)
    else c
  | _ => c

/-- LOADJLI (10, R300, R307). -/
def Chip.actJli (c : Chip) (f : List (BitVec 8)) (gmask : Nat) : Chip :=
  let addr := frameBits f 43 0
  let gm := c.imageGmask addr gmask
  if c.bit CF_STS_PARTIAL pgCF && (setBitsOf 64 gm).any fun g => !c.stream.groups.testBit g then c.streamFail 0x05 0 c.lastSeq
  else
    let c := { c with stream := { c.stream with sawJli := true } }
    (c.setWait (.loadjli addr (frameBits f 95 64) (frameBits f 103 96) false)).jliGo

/-- The loader's run for the stream ends (10, R307). -/
def Chip.jliEnded (c : Chip) : Chip :=
  match c.stream.wait with
  | .loadjli _ _ _ true =>
    if c.ldPhase ≠ 0 then c
    else if c.get CF_JLCODE_CODE pgCF = 0 then ((c.setWait .none).srcPump).srcWait
    else c.streamFail 0x07 0 c.lastSeq
  | _ => c

/-- CLEAR (10, R304, R308). -/
def Chip.actClear (c : Chip) (f : List (BitVec 8)) : Chip :=
  let ss := setBitsOf 8 (frameBits f 7 0)
  if ss.any fun s => !c.domOn (64 + s) then c.streamFail 0x06 errPwroff c.lastSeq
  else ({ c with stream := { c.stream with sawClear := true } }).each ss Chip.holdSector

/-- WAITON ends when every named domain is on (10, Table 10-6). -/
def Chip.waitonGo (c : Chip) (mask : Nat) : Chip :=
  if (setBitsOf 80 mask).all fun d => c.domOn d then c.setWait .none else c.setWait (.waiton mask)

/-- A frame takes effect: checks 5 to 7 (10, Table 10-4). -/
def Chip.actFrame (c : Chip) (f : List (BitVec 8)) (gmask : Nat) : Chip :=
  let seq := frameSeq f
  let a := frameAddr f
  let t := frameType f
  if !c.frameRange f then c.streamFail 0x04 0 seq
  else if 1 ≤ t ∧ t ≤ 4 then
    if !c.frameScope f then c.streamFail 0x05 0 seq
    else if !c.domOn (64 + frameSector f) then c.streamFail 0x06 errPwroff seq
    else c.actFabric f
  else if t = 5 then
    let base := c.get CF_STGH_ADDR pgCF * 2 ^ 32 + c.get CF_STGL_ADDR pgCF * 512
    let c := c.setWait .data
    c.ask { asker := .cfgWrite, op := .write, addr := base + 512 * a, len := 8, whole := 8, kidx := c.get CF_STGH_KIDX pgCF,
            lines := (List.range 8).map fun i => { data := BitVec.ofNat 512 (leAt f (8 + 64 * i) 64), mask := BitVec.allOnes 64 } }
  else if t = 6 then (c.setWait (.regw ((List.range (a + 1)).map (framePair f)))).regwAsk
  else if t = 7 then
    if a = 1 then c.actEnd
    else if a = 2 then c.actPartial f
    else if a = 3 then c.actJli f gmask
    else if a = 4 then c.actClear f
    else if a = 5 then c.waitonGo (frameBits f 79 0)
    else c.setWait (.delay (frameBits f 23 0 + 1))
  else c

/-- The code of an AUTH frame verifies (10, R290). -/
def Chip.authOk (c : Chip) (f : List (BitVec 8)) (msg : List (BitVec 8)) : Bool :=
  let n := frameAddr f
  (c.get CF_AUTHCTL_KEYEN pgCF).testBit n &&
    hmac (c.flashBytes (0x1040 + 32 * n) 32) (c.stream.lastCode ++ msg) == (f.drop 8).take 32

/-- The frame at the front of the buffer is taken, where `mine` accepts it: checks 1 to 4, authentication and
effect (10, R284, R285, R290, R291). -/
def Chip.takeFrame (c : Chip) (mine : List (BitVec 8) → Bool) (gmask : Nat := 0) : Chip :=
  match c.nextFrame with
  | none => c
  | some f =>
    if !mine f then c
    else
      let c := c.setBuf (c.stream.buf.drop 524)
      let seq := frameSeq f
      if (crc32 (f.take 520)).toNat ≠ leAt f 520 4 then c.streamFail 0x01 0 seq
      else if seq ≠ c.get CF_SEQ_NEXT pgCF then c.streamFail 0x02 0 seq
      else
        let c := (c.count CF_FRCNT_COUNT pgCF).set CF_SEQ_NEXT pgCF ((seq + 1) % 65536)
        let before := c.stream.msg
        let c := { c with stream := { c.stream with msg := before ++ f.take 520 } }
        let c :=
          if !c.frameMine f then c
          else if !c.frameFormat f then c.streamFail 0x03 0 seq
          else if c.stream.pend.isSome && frameType f != 8 then c.streamFail 0x09 0 seq
          else if frameType f = 8 then
            if c.authOk f before then
              let held := c.stream.pend
              let c := (c.setB CF_STS_AUTHOK pgCF true).setB CF_STS_PEND pgCF false
              let c := { c with stream := { c.stream with lastCode := (f.drop 8).take 32, msg := [], pend := none } }
              match held with
              | some p => c.actFrame p gmask
              | none => c
            else (c.setB CF_STS_AUTHOK pgCF false).streamFail 0x08 0 seq
          else if c.bit CF_AUTHCTL_REQ pgCF && (frameType f == 6 || frameType f == 7) then
            { c.setB CF_STS_PEND pgCF true with stream := { c.stream with pend := some f } }
          else c.actFrame f gmask
        c.srcPump.srcWait

/-- A frame type. -/
def isType (t : Nat) (f : List (BitVec 8)) : Bool := frameType f == t

/-- A NOP frame, or a frame whose type Table 10-3 does not list, which fails check 3. -/
def isNop (f : List (BitVec 8)) : Bool := frameType f == 9 || frameType f == 0 || 10 ≤ frameType f

/-- A CMD frame of a command code. -/
def isCmd (a : Nat) (f : List (BitVec 8)) : Bool := frameType f == 7 && frameAddr f == a

/-- An END frame, or a CMD frame whose code Table 10-6 does not list, which fails check 3. -/
def isEnd (f : List (BitVec 8)) : Bool := frameType f == 7 && (frameAddr f ≤ 1 || 7 ≤ frameAddr f)

/-- PARTIAL: the frame is acted on, or a PARTIAL that waits looks at its groups again (10, R299). -/
def Chip.cmdPartial (c : Chip) : Chip :=
  if c.stream.wait = .partialStop then (if c.cfUp then c.partialGo.srcPump.srcWait else c) else c.takeFrame (isCmd 2)

/-- LOADJLI: the frame is acted on, or one that waits for the loader looks again (10, R307). -/
def Chip.cmdLoadjli (c : Chip) (gmask : Nat) : Chip :=
  match c.stream.wait with
  | .loadjli _ _ _ false => if c.cfUp then c.jliGo else c
  | _ => c.takeFrame (isCmd 3) gmask

/-- WAITON: the frame is acted on, or one that waits looks at its domains again (10, Table 10-6). -/
def Chip.cmdWaiton (c : Chip) : Chip :=
  match c.stream.wait with
  | .waiton m => if c.cfUp then (c.waitonGo m).srcPump.srcWait else c
  | _ => c.takeFrame (isCmd 5)

/-- The DELAY time has passed (10, Table 10-6). -/
def Chip.delayDone (c : Chip) : Chip :=
  match c.stream.wait with
  | .delay _ => if c.cfUp then (c.setWait .none).srcPump.srcWait else c
  | _ => c

/-- A WAITON has lasted 10 ms (10, Table 10-6). -/
def Chip.waitonTimeout (c : Chip) : Chip :=
  match c.stream.wait with
  | .waiton m =>
    if c.cfUp && !((setBitsOf 80 m).all fun d => c.domOn d) then c.streamFail 0x0B 0 c.lastSeq else c
  | _ => c

/-- A named group is not idle within 1 ms (10, R299). -/
def Chip.partialTimeout (c : Chip) : Chip :=
  if c.cfUp && c.stream.wait == .partialStop && (setBitsOf 64 c.stream.groups).any fun g => c.running (pgEG g) then
    c.streamFail 0x0B 0 c.lastSeq
  else c

/-! ## Stops (10, R306; 03, R109) -/

/-- The first bytes of the image as the loader reads them: from the scratchpad as it stands, or from the bytes given for
any other range; none where a read is answered with an error (03, R105 check 1). -/
def Chip.ldBytes (c : Chip) (n : Nat) (img : List (BitVec 8)) (err : Bool) : Option (List (BitVec 8)) :=
  let l := c.loader
  if c.bufferCheck2 60 0 l.kidx l.addr n false ≠ 0 then none
  else if regionOf l.addr = some .sp then
    let banks := (blocksOf 0x40000 (l.addr - spBase) n).map (· / 0x40000)
    if c.spServe banks ≠ 0 ∨ !c.domOn 78 then none else c.spBytes l.addr n
  else if err || decide (img.length < n) then none else some (img.take n)

/-- What the loader reads of its image, and whether a read is answered with an error: the header, and where the header
stands checks 2 to 5, the IMGLEN + 1 bytes of the image (03, R105). -/
def Chip.ldRead (c : Chip) (img : List (BitVec 8)) (err : Bool) : List (BitVec 8) × Bool :=
  let l := c.loader
  if l.len < 256 then ([], false)
  else match c.ldBytes 256 img err with
    | none => ([], true)
    | some h =>
      if (Image.checkStart h l.len).isSome then (h, false)
      else match c.ldBytes (max 256 (Image.len h)) img err with
        | some b => (b, false)
        | none => (h, true)

/-- What the loader can read of its image by itself: an image in the scratchpad. -/
def Chip.ldImage (c : Chip) : List (BitVec 8) := (c.ldRead [] false).1

/-- CF_CTL.ABORT, or STOP_REQ of the CF page: the frame in progress is abandoned (10, R306). -/
def Chip.streamAbort (c : Chip) : Chip :=
  let c := match c.stream.wait with
    | .loadjli _ _ _ true => (c.setWait .none).ldAbort c.ldImage
    | _ => c
  let s := c.cfState
  if s == 1 || s == 2 || s == 5 then c.streamFail 0x0C 0 c.lastSeq else c

/-- RUN of the CF page falls: a load ends, and with it the stream that waits for it (10, R306; 03, R109). -/
def Chip.cfRunClear (c : Chip) : Chip := (c.ldAbort c.ldImage).jliEnded

/-! ## The loader as the commands drive it -/

/-- GO of the loader: the header of an image in the scratchpad is judged at once (03, R105 to R107). It is dropped
while a stream is received or starts (10, R307), and in the failed state (19, R516). -/
def Chip.loaderGo (c : Chip) : Chip :=
  let s := c.cfState
  if s == 1 || s == 2 || c.flt.failed then c.wign pgCF
  else
    let idle := c.ldPhase = 0
    let c := c.ldGo false
    if idle ∧ c.ldPhase = 1 ∧ regionOf c.loader.addr = some .sp then
      let r := c.ldRead [] false
      c.ldEarly r.1 r.2
    else c

/-- The check pass is done (03, R105). -/
def Chip.loaderChecked (c : Chip) (img : List (BitVec 8)) (err : Bool) : Chip :=
  if c.ldPhase = 1 ∧ c.cfUp then
    let r := c.ldRead img err
    (c.ldChecked r.1 r.2).jliEnded
  else c

/-- The write pass is done (03, R108, R109). -/
def Chip.loaderWritten (c : Chip) (img : List (BitVec 8)) (err : Bool) : Chip :=
  if c.ldPhase = 2 ∧ c.cfUp then
    let r := c.ldRead img err
    (c.ldWritten r.1 r.2).jliEnded
  else c

/-- ABORT of the loader (03, R109). -/
def Chip.loaderAbort (c : Chip) : Chip := (c.ldAbort c.ldImage).jliEnded

end Sys2Proof.Machine
end

