-- ==== Sys2Proof/Machine/Deliver.lean ====
section
/-! DEFINITION. Requests at their requesting NI: their issue, the answers that reach their units, lost tags
and fences (12, R346 to R356), and the register accesses of the serial targets (21, R567 to R569). -/
namespace Sys2Proof.Machine

/-! ## Answers to the units -/

/-- The debug master's request has been answered (20, R533). -/
def Chip.debugAnswer (c : Chip) (r : Req) (code : Nat) (data : BitVec 512) (rdata : BitVec 64) : Chip :=
  let c := (c.set DB_CMDSTS_ERR pgDB code).setB DB_CMDSTS_BUSY pgDB false
  let put := fun (c : Chip) (n v : Nat) => (List.range n).foldl (fun (c : Chip) i => c.set DB_DATA_DATA pgDB (v >>> (32 * i)) i) c
  if code ≠ 0 then c
  else match r.op with
    | .read => put c 16 data.toNat
    | .regrd => put c (if r.wide then 2 else 1) rdata.toNat
    | _ => c

/-- The state of a serial target changes: I2C, or SPI. -/
def Chip.onSerial (c : Chip) (spi : Bool) (f : SerialSt → SerialSt) : Chip :=
  if spi then { c with ev := { c.ev with spi := f c.ev.spi } } else { c with ev := { c.ev with i2c := f c.ev.i2c } }

/-- A serial target. -/
def Chip.serialOf (c : Chip) (spi : Bool) : SerialSt := if spi then c.ev.spi else c.ev.i2c

/-- EV_MGMTSTS takes the code of a target's failed request (R569). -/
def Chip.serialFail (c : Chip) (spi : Bool) (code : Nat) : Chip :=
  if code = 0 then c else c.set (if spi then EV_MGMTSTS_SPI else EV_MGMTSTS_I2C) pgEV code

/-- A serial target's request has been answered (R567, R568): the I2C target sends the register, or 0x00 bytes after
an error; the SPI target sends a status byte, and after the 0x01 of a read the register. -/
def Chip.serialAnswer (c : Chip) (spi : Bool) (code : Nat) (rdata : BitVec 64) : Chip :=
  let x := c.serialOf spi
  if !x.busy then c
  else if x.stale then c.onSerial spi fun x => { x with busy := false, stale := false }
  else
    let reg := natLe 4 (if code = 0 then rdata.toNat else 0)
    let out := if spi then (if code = 0 then 1#8 :: (if x.wr then [] else reg) else [BitVec.ofNat 8 (0x80 + code)])
      else if x.wr then [] else reg
    (c.onSerial spi fun x => { x with busy := false, out := x.out ++ out,
                                      ptr := if !spi && !x.wr then x.ptr + 4 else x.ptr }).serialFail spi code

/-- No other part of a master port's request is under way. -/
def Chip.lastPart (c : Chip) (f : Flight) : Bool :=
  !c.net.flights.any fun x => x.id != f.id && x.req.asker == f.req.asker

/-- The NI delivers the answer of a part to the unit that made the request (12, R336, R349): a code per line, and the
data of a read. -/
def Chip.deliver (c : Chip) (r : Req) (codes : List Nat) (data : List (BitVec 512)) (rdata : BitVec 64) : Chip :=
  let code := codes.getD 0 0
  let line := data.getD 0 0
  match r.asker with
  | .host n => (c.hostAnswer n r.addr codes data rdata (r.op == .regrd || r.op == .regwr)).flrLook
  | .debug => c.debugAnswer r code line rdata
  | .i2c => c.serialAnswer false code rdata
  | .spi => c.serialAnswer true code rdata
  | .cfgWrite => c.streamWritten (firstError codes)
  | .cfgSource => c.srcAnswer code line
  | .loader => c
  | .pouncer gen => c.scrubAnswer gen r.base codes data
  | .batchIn g n => c.batchRecord g n codes data
  | .batchOut g n => c.batchWritten g n codes
  | .trace g n => c.traceAnswer g n codes
  | .fabric s p tag => c.fmpAnswer s p tag r.base codes data
  | .dmaDesc ch gen => c.dmaDesc ch gen code line
  | .dmaRead ch gen => c.dmaData ch gen (r.addr / 64) code line
  | .dmaWrite ch gen => c.dmaAck ch gen (r.addr / 64) code
  | .ringRx l slot gen => c.rxAnswer l slot gen code
  | .ringTx l slot gen => c.txAnswer l slot gen code line

/-- The codes of a request that gets one code on every line. -/
def Req.allCodes (r : Req) (code : Nat) : List Nat :=
  List.replicate (if r.op == .read || r.op == .write then r.len else 1) code

/-- A request is answered to its unit with one code. -/
def Chip.deliverErr (c : Chip) (r : Req) (code : Nat) : Chip := c.deliver r (r.allCodes code) [] 0

/-- The LATE codes of a part reach its unit (12, R352; 08, R249). -/
def Chip.deliverLate (c : Chip) (f : Flight) (codes : List Nat) : Chip :=
  match f.req.asker with
  | .fabric s p tag => c.fmpLate s p tag f.req.base codes (c.lastPart f)
  | _ => c

/-- A part that still waits is answered by its NI with one code: the whole part, or the verification of the lines
that its RSP delivered (12, R353; log entry 52). -/
def Chip.giveUp (c : Chip) (f : Flight) (code : Nat) : Chip :=
  if f.st == .late then c.deliverLate f ((List.range f.req.len).map fun l => if f.ok.contains l then code else 0)
  else
    let c := c.deliverErr f.req code
    if f.req.spec then c.deliverLate f [] else c

/-! ## Requests -/

/-- The unit behind a request keeps its clock during a freeze (20, Table 20-4). -/
def Asker.island : Asker → Bool
  | .host _ => true
  | .debug => true
  | .i2c => true
  | .spi => true
  | _ => false

/-- The domain of the unit behind a request. -/
def Asker.domain (a : Asker) : Nat :=
  match bridgeInfo a.place.1 a.place.2 with
  | some (d, _) => d
  | none => 0xFE

/-- The unit of a request moves: it is not frozen (20, R545). -/
def Chip.askerMoves (c : Chip) (a : Asker) : Bool := c.stepsRun || a.island

/-- A unit presents a request: the oldest that waits behind its bridge. The NI stamps it, makes checks 1 to 4, and
divides it into parts (12, R348, R349). -/
def Chip.requestIssue (c : Chip) (i : Nat) : Chip :=
  match c.net.want[i]? with
  | none => c
  | some r =>
    if ((c.net.want.take i).any fun q => q.asker.place == r.asker.place) || !c.askerMoves r.asker ||
        c.bit NC_BRG_FENCED (pgNI r.asker.place.1) r.asker.place.2 && decide (r.asker.domain < 80) then c
    else
      let c := { c with net := { c.net with want := c.net.want.eraseIdx i } }
      let r := c.stamp r
      let code := c.niCheck r
      if code ≠ 0 then c.deliverErr r code else c.accept r

/-- A waiting part of a request is sent (12, R345, R346, R350); one whose route entry cannot be used is answered with
ERR_ROUTE (R338). -/
def Chip.requestInject (c : Chip) (i : Nat) : Chip :=
  match c.net.flights[i]? with
  | none => c
  | some f =>
    if !c.askerMoves f.req.asker then c
    else match c.inject f.id with
      | (c, .noRoute) =>
        let c := c.endFlight f.id
        let c := c.deliverErr f.req errRoute
        if f.req.spec then c.deliverLate f [] else c
      | (c, _) => c

/-- The flits that a grant reserved for a request are free again. -/
def Chip.unbook (c : Chip) (ni tag : Nat) : Chip :=
  { c with net := { c.net with booked := c.net.booked.filter fun b => !(b.2.2.1 == ni && b.2.2.2.1 == tag) } }

/-- A packet has been taken by its NI. -/
def Chip.takePacket (c : Chip) (i : Nat) : Chip := c.putPacket i none

/-- The codes of an RSP as they reach the unit: one code for a held request that a router refused (R355), ERR_ECC for
what arrived poisoned (R357). -/
def rspCodes (p : Packet) (f : Flight) : List Nat :=
  if p.poisonHead then f.req.allCodes errEcc
  else
    let cs := if f.st == .announced then f.req.allCodes (p.codes.getD 0 errRoute) else p.codes
    cs.zipIdx.map fun ci => if ci.1 == 0 && p.poisoned.contains ci.2 then errEcc else ci.1

/-- A response reaches its NI and is delivered to its unit (12, R336, R349, R352, R353, R356). -/
def Chip.rspIn (c : Chip) (i : Nat) : Chip :=
  match c.net.packets[i]? with
  | none => c
  | some p =>
    if p.pt != .rsp || !p.home then c
    else match c.flightOf p.ni p.tag with
      | none => c.takePacket i
      | some f =>
        match f.st with
        | .late => c.takePacket i
        | .lost => (c.takePacket i).endFlight f.id
        | .dropped => (c.takePacket i).endFlight f.id
        | _ =>
          if !c.askerMoves f.req.asker then c
          else
            let codes := rspCodes p f
            let ok := (List.range codes.length).filter fun l => codes.getD l 1 == 0
            let c := c.takePacket i
            if f.req.op == .read && f.req.spec && !ok.isEmpty then
              (c.onFlight f.id fun x => { x with st := .late, ok := ok }).deliver f.req codes p.data p.rdata
            else
              let c := (c.endFlight f.id).deliver f.req codes p.data p.rdata
              if f.req.spec then c.deliverLate f [] else c

/-- A LATE packet reaches its NI (12, R352); it does not overtake its RSP. -/
def Chip.lateIn (c : Chip) (i : Nat) : Chip :=
  match c.net.packets[i]? with
  | none => c
  | some p =>
    if p.pt != .late || !p.home then c
    else match c.flightOf p.ni p.tag with
      | none => c.takePacket i
      | some f =>
        match f.st with
        | .late =>
          if !c.askerMoves f.req.asker then c
          else
            let codes := if p.poisonHead then f.req.allCodes errEcc else p.codes
            let codes := codes.zipIdx.map fun ci => if f.ok.contains ci.2 then ci.1 else 0
            ((c.takePacket i).endFlight f.id).deliverLate f codes
        | .sent => if f.req.spec then c else c.takePacket i
        | _ => c.takePacket i

/-- An RSVREQ is taken at its destination, and granted when room allows (12, R346, R347). -/
def Chip.rsvreqIn (c : Chip) (i : Nat) : Chip :=
  match c.net.packets[i]? with
  | none => c
  | some p =>
    if p.pt != .rsvreq || !p.home then c
    else
      let c := c.takePacket i
      let c := if p.poisonHead then c.sendPkt p.dst p.ni p.rvar
          { pt := .rsp, ni := p.ni, tag := p.tag, vc := 1, place := 0, route := 0, dst := p.ni, codes := [errEcc] } |>.1
        else { c with net := { c.net with rsv := c.net.rsv ++ [p] } }
      c.grants p.dst 16

/-- An RSVGNT reaches the sending NI: the held request may be sent (12, R346). One for a part that is given up frees what
it reserved, and the tag. -/
def Chip.rsvgntIn (c : Chip) (i : Nat) : Chip :=
  match c.net.packets[i]? with
  | none => c
  | some p =>
    if p.pt != .rsvgnt || !p.home then c
    else
      let c := c.takePacket i
      match c.flightOf p.ni p.tag with
      | none => c.unbook p.ni p.tag
      | some f =>
        match f.st with
        | .announced => c.onFlight f.id fun x => { x with st := .granted }
        | .lost => (c.unbook p.ni p.tag).endFlight f.id
        | .dropped => (c.unbook p.ni p.tag).endFlight f.id
        | _ => c

/-! ## Lost tags and fences -/

/-- A part holds a tag and has not been given up. -/
def Flight.waits (f : Flight) : Bool := f.tag.isSome && (f.st == .announced || f.st == .granted || f.st == .sent || f.st == .late)

/-- A part is given up by its NI: its unit is answered, and its tag is lost (12, R353). -/
def Chip.loseTag (c : Chip) (f : Flight) (code : Nat) : Chip :=
  let c := if f.st == .granted then c.unbook f.ni (f.tag.getD 0) else c
  ((c.onFlight f.id fun x => { x with st := .lost }).routeRelease).giveUp f code

/-- No response has come in time (12, R353); a freeze suspends the timers (20, R546). -/
def Chip.niTimeout (c : Chip) (ni tag : Nat) : Chip :=
  match c.flightOf ni tag with
  | none => c
  | some f =>
    if !c.stepsRun || !(f.waits || f.st == .dropped) then c
    else
      let c := if f.waits then c.loseTag f errTimeout else (c.onFlight f.id fun (x : Flight) => { x with st := PartSt.lost }).routeRelease
      (c.count NC_TOCNT_COUNT (pgNI ni)).report (pgNI ni) 0

/-- FREELOST (12, R353). -/
def Chip.freeLost (c : Chip) (ni : Nat) : Chip :=
  ({ c with net := { c.net with flights := c.net.flights.filter fun f => !(f.ni == ni && f.st == PartSt.lost) } }).routeRelease

/-- STOP_REQ of an NI page: outstanding tags are answered with ERR_STOPPED and lost (12, after R358). -/
def Chip.niStop (c : Chip) (ni : Nat) : Chip :=
  (c.net.flights.filter fun f => f.ni == ni && f.waits).foldl (fun c f => c.loseTag f errStopped) c

/-- No tag of an NI is outstanding; lost tags wait for nothing. -/
def Chip.niQuiet (c : Chip) (ni : Nat) : Bool := !c.net.flights.any fun (f : Flight) => f.ni == ni && (f.waits || f.st == PartSt.dropped)

/-- A bridge presents no new requests from its domain's masters, and the responses that they wait for are discarded
(12, R356 step 3). -/
def Chip.fenceMasters (c : Chip) (d : Nat) : Chip :=
  let mine := fun (r : Req) => r.asker.domain == d
  let gone := c.net.flights.filter fun f => mine f.req && f.st == .granted
  let c := gone.foldl (fun c f => c.unbook f.ni (f.tag.getD 0)) c
  let fs := c.net.flights.filter fun f => !(mine f.req && (f.st == .waiting || f.st == .granted))
  let fs := fs.map fun (f : Flight) => if mine f.req && f.waits then { f with st := .dropped } else f
  ({ c with net := { c.net with want := c.net.want.filter (fun r => !mine r), flights := fs } }).routeRelease

/-! ## Serial targets (21, R567 to R569) -/

/-- A register access of a serial target. -/
def Chip.serialAsk (c : Chip) (spi wr : Bool) (off value : Nat) : Chip :=
  if (c.serialOf spi).busy then c
  else
    let c := c.onSerial spi fun x => { x with busy := true, wr := wr, stale := false, out := if spi then [] else x.out }
    c.ask { asker := if spi then .spi else .i2c, op := if wr then .regwr else .regrd, addr := regBase + off,
            wdata := BitVec.ofNat 64 (value % 2 ^ 32) }

/-- An I2C write of 4 bytes (R567). -/
def Chip.i2cPointer (c : Chip) (off : Nat) : Chip :=
  if (c.serialOf false).busy && !(c.serialOf false).stale then c
  else c.onSerial false fun x => { x with ptr := BitVec.ofNat 32 off }

/-- An I2C read of a register at the pointer (R567): the bytes of an earlier read are over when `fresh`. -/
def Chip.i2cRead (c : Chip) (fresh : Bool) : Chip :=
  if (c.serialOf false).busy then c
  else
    let c := if fresh then c.onSerial false fun x => { x with out := [] } else c
    c.serialAsk false false (c.serialOf false).ptr.toNat 0

/-- A register access of a target has been outstanding for 1 ms (R567, R568). -/
def Chip.serialTimeout (c : Chip) (spi : Bool) : Chip :=
  let x := c.serialOf spi
  if !x.busy || x.stale then c
  else
    let out := if spi then [BitVec.ofNat 8 (0x80 + errTimeout)] else if x.wr then [] else List.replicate 4 0xFF#8
    (c.onSerial spi fun x => { x with stale := true, out := x.out ++ out,
                                      ptr := if !spi && !x.wr then x.ptr + 4 else x.ptr }).serialFail spi errTimeout

/-- SCL has been low for 25 ms: the I2C target resets its protocol state (R567). -/
def Chip.i2cReset (c : Chip) : Chip :=
  c.onSerial false fun x => { x with out := [], stale := x.busy }

end Sys2Proof.Machine
end

