-- ==== Sys2Proof/Machine/Page.lean ====
section
/-! DEFINITION. Run control of pages: starting, stopping, soft reset and clock gates (01, R44 to R50; 16, R460,
R461, R600). -/
namespace Sys2Proof.Machine

/-- The page's block has no clock during a freeze (20, Table 20-4). -/
def frozenKind : PageKind → Bool
  | .cf | .sc | .mc | .ml | .ln | .sp | .fb | .br | .as | .eg | .ee => true
  | _ => false

/-- The block of a page moves: no freeze holds it. -/
def Chip.pageMoves (c : Chip) (pg : Nat) : Bool :=
  c.stepsRun || !(match pageKind pg with | some (k, _) => frozenKind k | none => false)

/-- The function of a page holds no work in progress: PG_STS.IDLE (01, R44, and the unit of work of each chapter). -/
def Chip.pageQuiet (c : Chip) (pg : Nat) : Bool :=
  match pageKind pg with
  | some (.eg, g) => !(c.grp g).bound.on && !(c.grp g).loose.on
  | some (.ee, e) => !(c.inLap e && (c.lap (e / 8) (c.isLoose e)).parts.contains (e % 8))
  | some (.fb, s) => c.fmpQuiet s
  | some (.as, s) => c.asQuiet s
  | some (.sc, _) => c.scrubQuiet
  | some (.cf, _) => c.stream.wait == .none && c.ldPhase == 0
  | some (.ln, q) => c.lnQuiet q
  | some (.hp, _) => c.hostQuiet
  | some (.ml, q) => c.memQuiet [q]
  | some (.mc, i) =>
    i % 16 != 0 || (!(c.mem.ops.any fun o => o.port / 4 == i / 16) && (c.crypto (i / 16)).grp.isNone && !(c.crypto (i / 16)).saving)
  | some (.sp, 1) => !(List.range 128).any c.spBusy
  | some (.sp, 2) => c.dmaQuiet
  | some (.nci, n) => c.niQuiet n
  | some (.ev, _) => c.ev.cmd.isNone
  | some (.db, _) => !c.bit DB_CMDSTS_BUSY pgDB
  | _ => true

/-- The function of a page starts: its settings are taken into use (R45). A group waits for the alignment edge (02,
R77), an engine for its group's next lap (04, R140), a memory port for INFO (14, R381). -/
def Chip.pageStart (c : Chip) (pg : Nat) : Chip :=
  match pageKind pg with
  | some (.eg, g) => c.egWait g
  | some (.ee, _) => c
  | some (.ln, q) => c.lnStart q
  | some (.ml, q) => c.mlStart q
  | some (.as, s) =>
    (c.setB PG_STS_RUNNING pg true).each ((List.range 16).map (16 * s + ·)) fun c cl =>
      if c.bit AS_SEQCTL_EN pg (cl % 16) then c.seqArm cl else c
  | _ => c.setB PG_STS_RUNNING pg true

/-- The function of a page ends (R44). -/
def Chip.pageEnd (c : Chip) (pg : Nat) : Chip :=
  match pageKind pg with
  | some (.eg, g) => c.groupEnd g
  | some (.ln, q) => ((c.setB PG_STS_RUNNING pg false).setStopping pg false).lnEnd q
  | _ => (c.setB PG_STS_RUNNING pg false).setStopping pg false

/-- A page's function starts where RUN is 1, its domain on, its gate open, and it is idle (R45). -/
def Chip.functionStart (c : Chip) (pg : Nat) : Chip :=
  if c.run pg && c.domOn (domOf pg) && c.gate pg == .opened && c.pageMoves pg && c.pageQuiet pg &&
      (!c.running pg || c.stopping.contains pg) then
    (if c.stopping.contains pg then c.pageEnd pg else c).pageStart pg
  else c

/-- The unit of work in progress is complete (R44). -/
def Chip.stopComplete (c : Chip) (pg : Nat) : Chip :=
  if c.running pg && !c.gated pg && c.pageMoves pg && c.pageQuiet pg && !c.run pg then c.pageEnd pg else c

/-- RUN of a page goes from 1 to 0: an orderly stop begins, and is complete at once in an idle function (R44). -/
def Chip.runFall (c : Chip) (pg : Nat) : Chip :=
  let down := c.setB PG_CTL_RUN pg false
  let d := match pageKind pg with
    | some (.eg, g) => c.egRunClear g
    | some (.ee, e) => c.eeFall e [] false
    | some (.as, s) => down.each ((List.range 16).map (16 * s + ·)) Chip.seqStop
    | some (.ln, q) => down.lnRunClear q
    | some (.cf, _) => down.cfRunClear
    | some (.hp, _) => down.hostStopped
    | some (.ml, q) => { down with mem := { down.mem with starting := down.mem.starting.filter (· != q) } }
    | _ => down
  match pageKind pg with
  | some (.eg, _) => d
  | some (.ee, _) => d
  | _ => if !d.running pg then d
         else if d.pageQuiet pg && d.pageMoves pg && !d.gated pg then d.pageEnd pg
         else d.setStopping pg true

/-- A write of RUN = 0 (R44). -/
def Chip.runClear (c : Chip) (pg : Nat) : Chip := if c.run pg then c.runFall pg else c

/-- A write of RUN = 1 is dropped: the domain is not on (R31), the device has failed (19, R516), the group's image is
being loaded or has failed (03, R107), or lockstep has stopped the group (05, R166). -/
def Chip.runBarred (c : Chip) (pg : Nat) : Bool :=
  !c.domOn (domOf pg) || (c.flt.failed && decide (domOf pg < 79)) ||
    match pageKind pg with
    | some (.eg, g) => decide (2 ≤ c.get EG_LDSTS_STATE pg) || (c.get GL_LSSTS_STATE pgGL == 3 && c.lsGroups.contains g)
    | _ => false

/-- A write of RUN = 1 (R45). -/
def Chip.runSet (c : Chip) (pg : Nat) : Chip :=
  if (pageKind pg).isNone then c
  else if c.runBarred pg then c.wign pg
  else if c.run pg then c
  else (c.setB PG_CTL_RUN pg true).functionStart pg

/-- The lines of a block RAM window request that are not answered yet get a code (09, R263). -/
def Chip.windowEnd (c : Chip) (a : Arrived) (code : Nat) : Chip :=
  c.each (List.range (a.req.len - a.codes.length)) fun c i =>
    c.lineDone a.dstNi a.ni a.tag (a.codes.length + i) code 0 0

/-- Window requests that a sector's block RAMs have accepted. -/
def Chip.windowsOf (c : Chip) (s : Nat) : List Arrived :=
  c.net.arrived.filter fun a =>
    a.done && regionOf a.req.addr == some .bram && (a.req.addr - bramBase) / 0x2000 / 256 == s

/-- STOP_REQ of a BR page: accepted window requests are answered with ERR_STOPPED (01, R46). -/
def Chip.windowsStop (c : Chip) (s : Nat) : Chip :=
  (c.windowsOf s).foldl (fun (c : Chip) a => c.windowEnd a errStopped) c

/-- The debug master's request is abandoned (R46). -/
def Chip.debugStop (c : Chip) : Chip :=
  if !c.bit DB_CMDSTS_BUSY pgDB then c
  else
    let mine := fun (r : Req) => r.asker == .debug
    let fs := (c.net.flights.filter fun f => !(mine f.req && (f.st == .waiting || f.st == .granted))).map fun (f : Flight) =>
      if mine f.req && f.waits then { f with st := PartSt.dropped } else f
    let c := (c.net.flights.filter fun f => mine f.req && f.st == .granted).foldl (fun c f => c.unbook f.ni (f.tag.getD 0)) c
    let c := { c with net := { c.net with want := c.net.want.filter (fun r => !mine r), flights := fs } }
    ((c.set DB_CMDSTS_ERR pgDB errStopped).setB DB_CMDSTS_BUSY pgDB false).routeRelease

/-- Work in progress of a page is abandoned, and what it had accepted is answered with ERR_STOPPED (R46). -/
def Chip.abandon (c : Chip) (pg : Nat) : Chip :=
  match pageKind pg with
  | some (.fb, s) => c.fmpStop s
  | some (.as, s) => c.asAbandon s
  | some (.br, s) => c.windowsStop s
  | some (.sc, _) => c.scrubStop
  | some (.cf, _) => ((c.streamAbort).ldAbort c.ldImage).jliEnded
  | some (.ln, q) => c.lnStop q
  | some (.hp, _) => c.hostStop
  | some (.ml, q) => c.memStop [q]
  | some (.mc, i) =>
    if i % 16 = 0 then
      let c := c.memStop ((List.range 4).map (4 * (i / 16) + ·))
      c.setCrypto (i / 16) { c.crypto (i / 16) with grp := none, saving := false, begins := none }
    else c
  | some (.sp, 2) => c.dmaStop
  | some (.nci, n) => c.niStop n
  | some (.ev, _) => ({ c with ev := { c.ev with cmd := none } }).setB EV_FLCMD_BUSY pgEV false
  | some (.db, _) => c.debugStop
  | _ => c

/-- The action of STOP_REQ on a page (R46): RUN and RUNNING fall. -/
def Chip.stopAct (c : Chip) (pg : Nat) : Chip :=
  match pageKind pg with
  | some (.eg, g) => c.egStop g
  | some (.ee, e) => c.eeStop [e]
  | _ => (((c.abandon pg).setB PG_CTL_RUN pg false).setB PG_STS_RUNNING pg false).setStopping pg false

/-- A function is stopped and idle: STOP_REQ has no effect, SRST is performed (R46, R47). -/
def Chip.stoppedIdle (c : Chip) (pg : Nat) : Bool := !c.run pg && c.pageQuiet pg

/-- A write of STOP_REQ = 1 (R46). -/
def Chip.stopReq (c : Chip) (pg : Nat) : Chip :=
  if (pageKind pg).isNone || (c.stoppedIdle pg && !c.running pg) then c
  else if pageKind pg matches some (.ncr, _) then c.runClear pg
  else c.stopAct pg

/-- Pages whose read-only fields show what the device is and does: a soft reset leaves those fields as they are. -/
def systemKind : PageKind → Bool
  | .gl | .ck | .pw | .fc | .ev | .db | .ncr | .nci | .hp => true
  | _ => false

/-- The read-only fields of a page at offsets 0x040 and above, with each instance. -/
def liveFields (k : PageKind) : List (Fld × Nat) :=
  ((fldsOf k).filter fun F => F.acc == .ro).flatMap fun F => (List.range F.cnt).map fun i => (F, i)

/-- Register fields of a page return to their reset values (R47). -/
def Chip.resetFields (c : Chip) (pg : Nat) : Chip :=
  match pageKind pg with
  | some (k, _) =>
    if systemKind k then (liveFields k).foldl (fun (d : Chip) Fi => d.set Fi.1 pg (c.get Fi.1 pg Fi.2) Fi.2) (c.clearBlock pg)
    else c.clearBlock pg
  | none => c

/-- What a soft reset of a block's registers means to what they stand for (R47). -/
def Chip.resetBlock (c : Chip) (pg : Nat) : Chip :=
  let c := c.resetFields pg
  match pageKind pg with
  | some (.eg, g) =>
    let x := c.grp g
    (c.setGrp g { x with lapCnt := 0, snap := 0, snapLap := 0, trace := {}, batch := {}, adm := {}, lsBuf := [] }).scrubLook
  | some (.ee, e) =>
    ({ c with eng := { c.eng with detPend := c.eng.detPend.filter (· != e), sig := Store.put 0 c.eng.sig e 0 } }).scrubLook
  | some (.as, s) => c.each ((List.range 16).map (16 * s + ·)) fun c cl => c.setSeq cl {}
  | some (.sc, _) => { c with scrub := {} }
  | some (.ln, q) =>
    let c := (c.each (quadLanes q) fun c l => c.setLane l {}).setPort q {}
    c.eqLanes (quadLanes q) false
  | some (.mc, i) =>
    if i % 16 = 0 then c.setCrypto (i / 16) { slots := (c.crypto (i / 16)).slots }
    else if i % 16 = 1 then c.setCrypto (i / 16) { c.crypto (i / 16) with slots := [] }
    else c
  | some (.sp, 2) => { c with sp := { c.sp with dma := [] } }
  | some (.ck, _) =>
    let c := (c.setB CK_LOOPSTS_FPLL0 pgCK false).setB CK_LOOPSTS_FPLL1 pgCK false
    { c with clk := { c.clk with coasting := c.clk.coasting.filter fun l => l != 2 && l != 3, switching := [] } }
  | some (.db, _) => c.each (List.range 64) fun c g => c.setGrp g { c.grp g with halt := {} }
  | _ => c

/-- A write of SRST = 1, judged by how the page stood before any field of the same write took effect (R47, R48). -/
def Chip.softReset (c : Chip) (pg : Nat) (may : Bool) : Chip :=
  if (pageKind pg).isNone then c else if may then c.resetBlock pg else c.wign pg

/-- The SRST command. -/
def Chip.srst (c : Chip) (pg : Nat) : Chip := c.softReset pg (c.stoppedIdle pg)

/-- A write of CLKEN = 0: the gate asks for the idle handshake (R49; 16, R460). -/
def Chip.clkenClear (c : Chip) (pg : Nat) : Chip :=
  if (pageKind pg).isNone then c
  else
    let c := c.setB PG_CTL_CLKEN pg false
    if c.gate pg == .opened && c.domOn (domOf pg) then c.setGate pg .asked else c

/-- A write of CLKEN = 1 (R49; 16, R461, R600): a forced gate opens into the action of STOP_REQ. -/
def Chip.clkenSet (c : Chip) (pg : Nat) : Chip :=
  if (pageKind pg).isNone then c
  else
    let g := c.gate pg
    let c := (c.setB PG_CTL_CLKEN pg true).setGate pg .opened
    match g, pageKind pg with
    | .forced, _ => c.stopAct pg
    | .closed, some (.eg, n) =>
      c.setGrp n { c.grp n with paced := false, lateDone := false, lastLen := none }
    | _, _ => c

/-- A block answers the idle handshake, and its gate closes (16, R460, R600). -/
def Chip.gateShake (c : Chip) (pg : Nat) : Chip :=
  if c.gate pg == .asked && c.pageMoves pg && c.pageQuiet pg then
    let c := c.setGate pg .closed
    match pageKind pg with
    | some (.eg, g) => c.dropPend g
    | _ => c
  else c

/-- A write to PG_CTL takes effect in the order of R48. -/
def Chip.pgCtl (c : Chip) (pg v : Nat) : Chip :=
  let may := c.stoppedIdle pg
  let c := if v.testBit 1 then c.stopReq pg else c
  let c := if v.testBit 2 then c.softReset pg may else c
  let c := if v.testBit 0 then c.runSet pg else c.runClear pg
  if v.testBit 3 then (if c.bit PG_CTL_CLKEN pg then c else c.clkenSet pg)
  else if c.bit PG_CTL_CLKEN pg then c.clkenClear pg else c

end Sys2Proof.Machine
end

