-- ==== Sys2Proof/Machine/Clock.lean ====
section
/-! DEFINITION. Clock generation and supervision (16): REFCLK, the loops, clock switches and forced gates. -/
namespace Sys2Proof.Machine

/-! ## Loops -/

/-- The lock bit of a loop in CK_LOOPSTS: 0 engine, 1 network, 2 and 3 fabric, 4 host port. -/
def loopBit : Nat → Fld
  | 0 => CK_LOOPSTS_ENG
  | 1 => CK_LOOPSTS_NET
  | 2 => CK_LOOPSTS_FPLL0
  | 3 => CK_LOOPSTS_FPLL1
  | _ => CK_LOOPSTS_HOST

/-- A loop is to run: a fabric loop is enabled with an FM in range, an engine or host port loop is not parked (R451,
R452; 17, R473). -/
def Chip.loopWanted (c : Chip) (l : Nat) : Bool :=
  if l = 2 ∨ l = 3 then
    let f := (if c.get CK_REFCFG_FREQ pgCK = 0 then 80 else if c.get CK_REFCFG_FREQ pgCK = 1 then 100 else 125) * c.get CK_FPLL_FM pgCK (l - 2)
    c.bit CK_FPLL_EN pgCK (l - 2) && decide (8000 ≤ f) && decide (f ≤ 16000)
  else decide (l < 5) && !c.clk.parked.contains l

/-- A loop coasts or relocks, or no longer does: COAST follows (R454, R456). -/
def Chip.setCoast (c : Chip) (l : Nat) (b : Bool) : Chip :=
  let ls := c.clk.coasting.filter (· != l)
  let ls := if b then ls ++ [l] else ls
  ({ c with clk := { c.clk with coasting := ls } }).setB CK_STS_COAST pgCK !ls.isEmpty

/-- A loop locks (R451, R456). The network loop's first lock begins the switch of MAIN. -/
def Chip.loopLock (c : Chip) (l : Nat) : Chip :=
  if l < 5 && c.get CK_STS_REFST pgCK == 2 && c.loopWanted l && !c.bit (loopBit l) pgCK then
    let c := (c.setB (loopBit l) pgCK true).setCoast l false
    if l = 1 && !c.clk.onNet then { c with clk := { c.clk with onNet := true, mainSwitch := true } } else c
  else c

/-- A loop is stopped: unlocked without a fault (17, R473). -/
def Chip.loopOff (c : Chip) (l : Nat) : Chip := (c.setB (loopBit l) pgCK false).setCoast l false

/-- A fabric loop with EN = 1 starts, where REFCLK is qualified: an FM out of range sets RANGE (R451, R452). -/
def Chip.fpllStart (c : Chip) (m : Nat) : Chip :=
  if c.bit CK_FPLL_EN pgCK m && c.get CK_STS_REFST pgCK == 2 && !c.loopWanted (2 + m) then c.setB CK_FPLL_RANGE pgCK true m else c

/-! ## REFCLK (R448, R449, R454, R456) -/

/-- The band of a frequency code (R449). -/
def Chip.inBand (c : Chip) (f count : Nat) : Bool :=
  let n := if f = 0 then 2048 else if f = 1 then 2560 else 3200
  decide (100 * (if count < n then n - count else count - n) ≤ n * (c.get CK_REFCFG_TOL pgCK + 1))

/-- REFCLK is qualified: the loops start (R448, R449, R456, R457). -/
def Chip.refQualify (c : Chip) : Chip :=
  let c := (c.set CK_STS_REFST pgCK 2).setB CK_STS_TICKSRC pgCK true
  let c := { c with clk := { c.clk with run := 0, badRun := 0, restarts := 0, waitTold := false } }
  (c.fpllStart 0).fpllStart 1

/-- CK_REFWAIT is reported once for a wait. -/
def Chip.refWait (c : Chip) : Chip :=
  if c.clk.waitTold then c else ({ c with clk := { c.clk with waitTold := true } }).report pgCK 0

/-- The main-path delay count ends with a number of REFCLK edges in its last 16 MON cycles (R448). -/
def Chip.refCount (c : Chip) (edges : Nat) : Chip :=
  if c.get CK_STS_REFST pgCK == 1 && c.bit CK_REFCFG_VALID pgCK then
    if 64 ≤ edges then c.refQualify
    else
      let n := c.clk.restarts + 1
      let c := { c with clk := { c.clk with restarts := min 16 n } }
      if 16 ≤ n then c.refWait else c
  else c

/-- A loss of REFCLK is detected (R454, R455): every loop coasts, lanes and the host link lose lock. -/
def Chip.refLoss (c : Chip) : Chip :=
  if c.get CK_STS_REFST pgCK == 2 then
    let c := ((c.set CK_STS_REFST pgCK 3).setB CK_STS_REFLOSS pgCK true).setB CK_STS_TICKSRC pgCK false
    let c := { c with clk := { c.clk with run := 0, badRun := 0, waitTold := false } }
    let c := c.each ((List.range 5).filter c.loopWanted) fun c l => (c.setB (loopBit l) pgCK false).setCoast l true
    let c := ((c.setB CK_STS_COAST pgCK true).report pgCK 1).lanesLoseRef
    let c := c.each (List.range 16) fun c q => if c.bit LN_QSTS_LOCKED (pgLN q) then c.setB LN_QSTS_LOCKED (pgLN q) false else c
    c.hostLinkDown
  else c

/-- A window of 4,096 MON cycles ends with a count of REFCLK edges (R449, R454, R456). -/
def Chip.refWindow (c : Chip) (count : Nat) : Chip :=
  let st := c.get CK_STS_REFST pgCK
  let own := c.get CK_REFCFG_FREQ pgCK
  let step := fun (hit : Option Nat) =>
    match hit with
    | none => { c with clk := { c.clk with run := 0 } }
    | some f =>
      let n := if c.clk.run ≠ 0 ∧ c.clk.runCode = f then c.clk.run + 1 else 1
      if 8 ≤ n then (c.set CK_REFCFG_FREQ pgCK f).refQualify else { c with clk := { c.clk with runCode := f, run := n } }
  if st = 1 then (if c.bit CK_REFCFG_VALID pgCK then c else step ((List.range 3).find? fun f => c.inBand f count))
  else if st = 3 then step (if c.inBand own count then some own else none)
  else if st = 2 then
    if c.inBand own count then { c with clk := { c.clk with badRun := 0 } }
    else if c.clk.badRun + 1 < 2 then { c with clk := { c.clk with badRun := c.clk.badRun + 1 } }
    else c.refLoss
  else c

/-- No qualification has been made within 100 ms on the fallback path (R449, R456). -/
def Chip.refTimeout (c : Chip) : Chip :=
  let st := c.get CK_STS_REFST pgCK
  if (st = 1 ∧ !c.bit CK_REFCFG_VALID pgCK) ∨ st = 3 then c.refWait else c

/-! ## Fabric clocks (R451 to R453, R458, R459) -/

/-- FCLKs that select fabric loop `m`, or switch to or from it (R452). -/
def Chip.loopUsed (c : Chip) (m : Nat) : Bool :=
  (List.range 8).any fun n => c.get CK_FCLK_SRC pgCK n == m + 1 || c.clk.switching.any fun s => s.1 == n && s.2.1 == m + 1

/-- A write to CK_FPLLm (R451, R452): EN, a 1 to RANGE, FM. -/
def Chip.fpllWrite (c : Chip) (m : Nat) (en clr : Bool) (fm : Nat) : Chip :=
  if 2 ≤ m then c
  else
    let c := if clr then c.setB CK_FPLL_RANGE pgCK false m else c
    if c.bit CK_FPLL_EN pgCK m then
      let c := c.wign pgCK
      if en || c.loopUsed m then c else (c.setB CK_FPLL_EN pgCK false m).loopOff (2 + m)
    else
      let c := (c.set CK_FPLL_FM pgCK fm m).setB CK_FPLL_EN pgCK en m
      c.fpllStart m

/-- A fabric loop loses lock while REFCLK is qualified (R452). -/
def Chip.fpllLoss (c : Chip) (m : Nat) : Chip :=
  if m < 2 && c.get CK_STS_REFST pgCK == 2 && c.bit (loopBit (2 + m)) pgCK then
    ((c.setB (loopBit (2 + m)) pgCK false).setCoast (2 + m) true).report pgCK 2
  else c

/-- A write to CK_FCLKn (R453, R458). -/
def Chip.fclkWrite (c : Chip) (n src div : Nat) : Chip :=
  if 8 ≤ n then c
  else if c.bit CK_FCLK_BUSY pgCK n then c.wign pgCK
  else
    let old := c.get CK_FCLK_SRC pgCK n
    let s := if src % 4 = 3 then old else src % 4
    let d := if div % 256 < 7 then c.get CK_FCLK_DIV pgCK n else div % 256
    if s = old ∧ d = c.get CK_FCLK_DIV pgCK n then c
    else
      let c := ((c.set CK_FCLK_SRC pgCK s n).set CK_FCLK_DIV pgCK d n).setB CK_FCLK_BUSY pgCK true n
      { c with clk := { c.clk with switching := c.clk.switching ++ [(n, old, false)] } }

/-- A switch of an FCLK is over. -/
def Chip.fclkDone (c : Chip) (n : Nat) : Chip :=
  ({ c with clk := { c.clk with switching := c.clk.switching.filter fun s => s.1 != n } }).setB CK_FCLK_BUSY pgCK false n

/-- A switch completes on the new clock (R453, R458): `n` is 0 to 7 for FCLK0 to FCLK7, 8 for MAIN. -/
def Chip.switchDone (c : Chip) (n : Nat) : Chip :=
  if n = 8 then { c with clk := { c.clk with mainSwitch := false } }
  else if n < 8 && c.clk.switching.any (fun s => s.1 == n) then
    let src := c.get CK_FCLK_SRC pgCK n
    if src = 0 || c.bit (loopBit (1 + src)) pgCK then c.fclkDone n else c
  else c

/-- The old clock gives no falling edge within 64 cycles of the new one (R459). A switch from off leaves no clock. -/
def Chip.switchTimeout (c : Chip) (n : Nat) : Chip :=
  let told := fun (c : Chip) => ((c.setB CK_STS_SWTO pgCK true).set CK_STS_SWID pgCK n).report pgCK 3
  if n = 8 then (if c.clk.mainSwitch then told c else c)
  else
    match c.clk.switching.find? fun s => s.1 == n && s.2.1 != 0 && !s.2.2 with
    | none => c
    | some _ =>
      let c := told c
      if c.get CK_FCLK_SRC pgCK n = 0 then c.fclkDone n
      else { c with clk := { c.clk with switching := c.clk.switching.map fun (s : Nat × Nat × Bool) => if s.1 == n then (s.1, s.2.1, true) else s } }

/-! ## Forced gates (R460; 01, R599) -/

/-- The pages whose CLKEN governs the target of a request that has arrived (01, R599). -/
def governors (a : Arrived) : List Nat :=
  let x := a.req.addr
  match regionOf x with
  | some .reg =>
    let off := x - regBase
    if (windowStore off).isSome then [pgEG (8 * ((a.dstNi - 32) / 2) + 4 * (a.dstNi % 2) + a.bridge)] else [off / 0x1000]
  | some .sp => [pgSP 0]
  | some .bram => [pgBR ((x - bramBase) / 0x2000 / 256)]
  | some .ext =>
    if a.dstNi < 52 then [] else let q := 2 * (a.dstNi - 52) + a.bridge; [pgML q, pgMC (q / 4) 0]
  | none => []

/-- No handshake has come in time: the gate closes anyway, and what its block had accepted is answered with
ERR_GATED (R460). -/
def Chip.gateForce (c : Chip) (pg : Nat) : Chip :=
  if c.gate pg == .asked then
    let c := (c.setGate pg .forced).setB CK_STS_GATEFRC pgCK true
    let c := ((c.setB CK_GATEID_VALID pgCK true).set CK_GATEID_OFFS pgCK pg).report pgCK 4
    (c.net.arrived.filter fun a => (governors a).contains pg).foldl (fun c a => c.refuse a errGated) c
  else c

end Sys2Proof.Machine
end

