-- ==== Sys2Proof/Machine/Power.lean ====
section
/-! DEFINITION. Power domains and the governor (17; 01, R31, R41 to R43; 12, R356; 20, R542, R543). -/
namespace Sys2Proof.Machine

/-! ## Rails (R464 to R468) -/

/-- Good and bad levels of a monitor in mV (Table 17-2). -/
def railLevel (n : Nat) : Nat × Nat :=
  if n = 0 then (720, 680) else if n = 1 then (675, 640) else if n < 18 then (720, 680)
  else if n < 20 then (765, 720) else if n = 20 then (810, 765) else if n = 21 then (1080, 1020)
  else if n = 22 then (810, 765) else (1620, 1530)

/-- Monitors that a switched domain needs (Table 17-3). -/
def railsOf (d : Nat) : List Nat :=
  if d < 64 then [2 + d / 8, 18 + d / 32]
  else if d < 72 then [10 + (d - 64), 18 + (d - 64) / 4]
  else if d < 76 then [20, 21]
  else if d < 78 then [1, 18 + (d - 76)]
  else if d = 78 then [1, 18, 19]
  else [22]

/-- A monitor reads good. -/
def Chip.railGood (c : Chip) (n : Nat) : Bool := (c.get PW_RAILSTS_GOOD pgPW).testBit n

/-- Every monitor that a domain needs reads good. -/
def Chip.railsGood (c : Chip) (d : Nat) : Bool := (railsOf d).all c.railGood

/-- A held request reports PW_RAILWAIT once (R466). -/
def Chip.railLook (c : Chip) (d : Nat) : Chip :=
  let s := c.dom d
  if s.phase == .waiting && !s.told && !c.railsGood d then (c.setDom d { s with told := true }).report pgPW 0 else c

/-- A monitor is judged good (R464). -/
def Chip.railRises (c : Chip) (n mv : Nat) : Chip :=
  if 24 ≤ n || mv ≤ (railLevel n).1 then c
  else (c.set PW_VMON_MV pgPW mv n).orBits PW_RAILSTS_GOOD pgPW (2 ^ n)

/-- The sector of an I/O bank. -/
def bankSector (b : Nat) : Nat := cellSector (24 * b)

/-- A bank of a sector that is on lacks its VCCO: PW_VCCO once per loss (R468). -/
def Chip.vccoLook (c : Chip) (b : Nat) : Chip :=
  if !(c.get PW_VCCOSTS_PRESENT pgPW).testBit b && c.domOn (64 + bankSector b) && !c.pow.vccoTold.contains b then
    ({ c with pow := { c.pow with vccoTold := c.pow.vccoTold ++ [b] } }).report pgPW 2
  else c

/-- The VCCO of a bank falls below 1.0 V (R468). -/
def Chip.vccoLoss (c : Chip) (b : Nat) : Chip :=
  if 20 ≤ b then c
  else (c.set PW_VCCOSTS_PRESENT pgPW (setBit (c.get PW_VCCOSTS_PRESENT pgPW) b false)).vccoLook b

/-- The VCCO of a bank rises to 1.0 V or more (R468). -/
def Chip.vccoReturn (c : Chip) (b : Nat) : Chip :=
  if 20 ≤ b then c
  else
    let c := c.orBits PW_VCCOSTS_PRESENT pgPW (2 ^ b)
    { c with pow := { c.pow with vccoTold := c.pow.vccoTold.filter (· != b) } }

/-! ## Fences (12, R356) -/

/-- The bridges of a domain: NI and number. -/
def bridgesOf (d : Nat) : List (Nat × Nat) :=
  ((List.range 32).map (· + 32)).flatMap fun n => (List.range 8).filterMap fun b =>
    match bridgeInfo n b with
    | some (d', _) => if d' = d then some (n, b) else none
    | none => none

/-- NC_BRGn.FENCED of a domain's bridges. -/
def Chip.setFenced (c : Chip) (d : Nat) (b : Bool) : Chip :=
  (bridgesOf d).foldl (fun (c : Chip) nb => c.setB NC_BRG_FENCED (pgNI nb.1) b nb.2) c

/-- A request that has arrived for a domain's bridge and needs the domain: no access to a common header (12, R332). -/
def needsDomain (d : Nat) (a : Arrived) : Bool :=
  (match bridgeInfo a.dstNi a.bridge with | some (d', _) => d' == d | none => false) &&
    !(regionOf a.req.addr == some .reg && (windowStore (a.req.addr - regBase)).isNone && decide (a.req.addr % 0x1000 < 0x40))

/-- No request is inside the domain, and its state record is saved (R356 step 4; 14, R408). -/
def Chip.fenceDone (c : Chip) (d : Nat) : Bool :=
  !(c.net.arrived.any fun a => a.done && needsDomain d a) && !(decide (76 ≤ d) && decide (d < 78) && (c.crypto (d - 76)).saving)

/-- Requests of a domain that are unanswered are answered with ERR_PWROFF (R467). -/
def Chip.refuseAll (c : Chip) (d : Nat) : Chip :=
  (c.net.arrived.filter (needsDomain d)).foldl (fun c a => c.refuse a errPwroff) c

/-! ## What a domain holds (01, R31; log entry 5) -/

/-- The pages of a domain stop holding anything: RUN and RUNNING are 0, and block registers are at their reset
values. -/
def Chip.pagesReset (c : Chip) (d : Nat) : Chip :=
  c.each (pagesOf d) fun c pg =>
    (((c.setB PG_CTL_RUN pg false).setB PG_STS_RUNNING pg false).setStopping pg false).clearBlock pg

/-- The units of a domain lose their state; with `keep`, data stores hold what they held (20, R542). -/
def Chip.unitsLose (c : Chip) (d : Nat) (keep : Bool) : Chip :=
  if d < 64 then
    let mine := fun e => e / 8 == d
    let c := { c with eng := { c.eng with
      group := Store.erase c.eng.group d
      detPend := c.eng.detPend.filter fun e => !mine e
      sig := Store.drop mine c.eng.sig } }
    if keep then c
    else { c with eng := { c.eng with
      sched := Store.drop (fun k => mine (k / 1024 / 128)) c.eng.sched
      ctl := Store.drop (fun k => mine (k / 1024)) c.eng.ctl
      cmap := Store.drop (fun k => mine (k / 256 / 128)) c.eng.cmap
      bank := Store.drop (fun k => mine (k / 8 / 128)) c.eng.bank
      bp := Store.drop (fun k => mine (k / 128)) c.eng.bp } }
  else if d < 72 then (if keep then c.holdSector (d - 64) else c.loseSector (d - 64))
  else if d < 76 then
    { c with link := { c.link with lane := Store.drop (fun l => l / 16 == d - 72) c.link.lane,
                                   port := Store.drop (fun p => p / 4 == d - 72) c.link.port } }
  else if d < 78 then c.memLose (d - 76)
  else if d = 78 then (if keep then { c with sp := { c.sp with dma := [], fix := [] } } else c.spLose)
  else c.onHost fun h => { h with reqs := [], cfg := [], flr := false }

/-- A domain holds nothing any more. -/
def Chip.domainLose (c : Chip) (d : Nat) (keep : Bool) : Chip :=
  ((c.pagesReset d).unitsLose d keep).scrubLook

/-- A domain leaves the on state: what others see of its outputs (01, R26; 07, R192; 15, R425, R443; 03, R109). -/
def Chip.outputsFall (c : Chip) (d : Nat) : Chip :=
  if d < 64 then ((c.raiseGroup d).ldPower d c.ldImage).jliEnded
  else if 72 ≤ d ∧ d < 76 then c.lanesFall fun l => l / 16 == d - 72
  else if d = 79 then c.hostFall
  else c

/-- STOP_REQ on every page of a domain (01, R43). -/
def Chip.domainStop (c : Chip) (d : Nat) : Chip :=
  if d < 64 then c.groupStop d else c.each (pagesOf d) Chip.stopReq

/-- The gates of a domain close, without their handshake. -/
def Chip.gatesClose (c : Chip) (d : Nat) : Chip := c.each (pagesOf d) fun c pg => c.setGate pg .closed

/-- Gates open where CLKEN is 1 (Table 17-4 step 7). -/
def Chip.gatesOpen (c : Chip) (d : Nat) : Chip :=
  c.each (pagesOf d) fun c pg => c.setGate pg (if c.bit PG_CTL_CLKEN pg then .opened else .closed)

/-! ## Loops on demand (R473) -/

/-- A group domain, or domain 79, needs its loop: it is on, or in transition. -/
def Chip.needsLoop (c : Chip) (l : Nat) : Bool :=
  (if l = 0 then List.range 64 else [79]).any fun d =>
    let p := (c.dom d).phase
    p == .rising || p == .on || p == .falling

/-- PW_LOOPCTL of a loop. -/
def Chip.onDemand (c : Chip) (l : Nat) : Bool := if l = 0 then c.bit PW_LOOPCTL_ENG pgPW else c.bit PW_LOOPCTL_HOST pgPW

/-- A loop is parked, or runs again. -/
def Chip.park (c : Chip) (l : Nat) (b : Bool) : Chip :=
  let ls := c.clk.parked.filter (· != l)
  let c := { c with clk := { c.clk with parked := if b then ls ++ [l] else ls } }
  if b then c.loopOff l else c

/-- PW_LOOPCTL is sampled: a domain has taken a slot, or reached the off state. -/
def Chip.loopSample (c : Chip) : Chip :=
  [0, 4].foldl (fun (c : Chip) l =>
    if !c.onDemand l then (if c.clk.parked.contains l then c.park l false else c)
    else if !c.needsLoop l && !c.clk.parked.contains l then c.park l true else c) c

/-! ## Requests (01, R41 to R43; 17, R466, R469 to R471) -/

/-- The power controller is held by a freeze (20, R546). -/
def Chip.powerHeld (c : Chip) : Bool := !c.stepsRun

/-- A domain begins to wait at step 1 of Table 17-4. -/
def Chip.riseWait (c : Chip) (d : Nat) : Chip :=
  let s := c.dom d
  let c := c.setDom d { s with phase := .waiting, told := false, fromEmul := s.emul, fromRet := s.phase == .retention }
  ({ c with pow := { c.pow with queue := c.pow.queue ++ [d] } }).railLook d

/-- A domain begins to fall: steps 1 and 2 of R471. An ordered power-off of a memory/crypto domain saves its record
(14, R408). -/
def Chip.fallBegin (c : Chip) (d : Nat) (toRet : Bool) : Chip :=
  let c := (c.domainStop d).outputsFall d
  let c := (c.setDom d { c.dom d with phase := .falling, toRet := toRet }).fenceMasters d
  if 76 ≤ d ∧ d < 78 ∧ c.bit MC_CTL_PERSIST (pgMC (d - 76) 0) then c.saveGo (d - 76) none else c

/-- A request that waits at step 1 is cancelled (01, R42). -/
def Chip.riseCancel (c : Chip) (d : Nat) : Chip :=
  let s := c.dom d
  { c.setDom d { s with phase := if s.fromRet then .retention else .off } with
    pow := { c.pow with queue := c.pow.queue.filter (· != d), dom := Store.put {} c.pow.dom d { s with phase := if s.fromRet then .retention else .off } } }

/-- The power controller acts on the request of a domain, where no transition is in progress (R42). -/
def Chip.powerLook (c : Chip) (d : Nat) : Chip :=
  let s := c.dom d
  match s.phase, s.req with
  | .off, 0 => c
  | .off, _ => c.riseWait d
  | .waiting, 0 =>
    let c := c.riseCancel d
    if s.fromRet then c.setDom d { c.dom d with phase := .falling, toRet := false } else c
  | .waiting, 2 => if s.fromRet then c.riseCancel d else c
  | .on, 0 => c.fallBegin d false
  | .on, 2 => c.fallBegin d true
  | .retention, 1 => c.riseWait d
  | .retention, 0 => c.setDom d { s with phase := .falling, toRet := false }
  | _, _ => c

/-- Write of REQ is dropped with WIGN: a thermal trip (R486), or a group that runs with a bound engine (01, R43). -/
def Chip.reqBarred (c : Chip) (d v : Nat) : Bool :=
  (c.pow.tripped && v != 0) ||
    (v == 0 && decide (d < 64) && c.run (pgEG d) && (List.range 8).any fun k => c.run (pgEE (8 * d + k)) && !c.isLoose (8 * d + k))

/-- A write of PG_PWR.REQ at a page (01, R41). -/
def Chip.reqWrite (c : Chip) (pg v : Nat) : Chip :=
  let d := domOf pg
  if (pageKind pg).isNone || 80 ≤ d || v = 3 || (v = 2 && d ≠ 78) || 4 ≤ v then c
  else if c.reqBarred d v then c.wign pg
  else
    let s := c.dom d
    let c := c.setDom d { s with req := v }
    if c.powerHeld then { c with pow := { c.pow with later := c.pow.later.filter (· != d) ++ [d] } } else c.powerLook d

/-! ## Transitions -/

/-- Domains in steps 2 to 7 of Table 17-4 that hold an on slot (R470; 20, R542). -/
def Chip.slotsUsed (c : Chip) : Nat :=
  ((List.range 80).filter fun d => (c.dom d).phase == .rising && !(c.dom d).fromEmul).length

/-- A waiting domain may take its slot as far as the order of requests goes (R470). -/
def Chip.firstInQueue (c : Chip) (d : Nat) : Bool :=
  ((c.pow.queue.takeWhile (· != d)).all fun x => !c.railsGood x || (c.dom x).fromEmul) && c.pow.queue.contains d

/-- A waiting request leaves step 1: its monitors are good, a slot is free, and its loop has locked (R466, R470,
R473; 18, R497). A loop that stands still is started first. -/
def Chip.slotTake (c : Chip) (d : Nat) : Chip :=
  let s := c.dom d
  let l := if d < 64 then 0 else 4
  let needs := decide (d < 64) || d == 79
  if s.phase != .waiting || c.powerHeld || !c.railsGood d || !(s.fromEmul || (c.slotsUsed < 4 && c.firstInQueue d)) then c
  else if needs && c.clk.parked.contains l then c.park l false
  else if needs && !c.bit (loopBit l) pgCK && !c.clk.coasting.contains l then c
  else
    let c := c.setDom d { s with phase := .rising }
    ({ c with pow := { c.pow with queue := c.pow.queue.filter (· != d) } }).loopSample

/-- A domain's own work at step 5 of Table 17-4 (14, R409; 15, R415). -/
def Chip.ownWork (c : Chip) (d : Nat) : Chip :=
  if 72 ≤ d ∧ d < 76 then c.eqLoad (d - 72)
  else if 76 ≤ d ∧ d < 78 then c.recordRestore (d - 76)
  else c

/-- A domain reaches the on state: steps 4 to 7 of Table 17-4. -/
def Chip.powerOn (c : Chip) (d : Nat) : Chip :=
  let s := c.dom d
  if s.phase != .rising || c.powerHeld then c
  else
    let c := if s.fromRet then c else c.domainLose d s.fromEmul
    let c := c.ownWork d
    let c := c.setDom d { s with phase := .on, told := false, emul := false, ends := false, fromEmul := false, fromRet := false, toRet := false }
    let c := (c.gatesOpen d).setFenced d false
    let c := if s.fromRet then
        c.each (List.range 4) fun c t => c.set SP_AWAKE_AWAKE (pgSP 0) (2 ^ 32 - 1 - c.get SP_RET_RET (pgSP 0) t) t
      else c
    let c := if d = 79 then (c.setB PG_CTL_RUN pgHP true).setB PG_STS_RUNNING pgHP true else c
    let c := if 64 ≤ d ∧ d < 72 then c.each ((List.range 20).filter fun b => bankSector b == d - 64) Chip.vccoLook else c
    let c := match c.stream.wait with | .waiton m => c.waitonGo m | _ => c
    c.powerLook d

/-- Emulation applies to a power-off (20, R542). -/
def Chip.emulates (c : Chip) : Bool := c.get DB_AUTHSTS_LEVEL pgDB != 0 && c.bit DB_CTL_PWREMU pgDB

/-- Steps 3 to 5 of R471: the domain reaches off, or retention. -/
def Chip.powerDown (c : Chip) (d : Nat) : Chip :=
  let s := c.dom d
  let c := (c.setFenced d true).gatesClose d
  let c := if s.toRet then c.each (List.range 4) fun c t => c.set SP_AWAKE_AWAKE (pgSP 0) 0 t else c
  let e := c.emulates
  let c := if e || s.toRet then c else c.domainLose d false
  ((c.setDom d { s with phase := if s.toRet then .retention else .off, emul := e, ends := false }).loopSample).powerLook d

/-- The fences and the gate handshakes are complete (R471). -/
def Chip.powerOff (c : Chip) (d : Nat) : Chip :=
  if (c.dom d).phase == .falling && !c.powerHeld && c.fenceDone d then c.powerDown d else c

/-- A fence has not completed within 100 us (R471): what remains is answered with ERR_PWROFF. -/
def Chip.fenceTimeout (c : Chip) (d : Nat) : Chip :=
  if (c.dom d).phase == .falling && !c.powerHeld && !c.fenceDone d then ((c.refuseAll d).powerDown d).report pgPW 3 else c

/-- A domain is cut at once, without handshakes (R467): REQ becomes 0. -/
def Chip.cut (c : Chip) (d : Nat) : Chip :=
  let s := c.dom d
  let c := if s.phase == .on then c.outputsFall d else c
  let c := (c.refuseAll d).fenceMasters d
  let c := ((c.setFenced d true).gatesClose d).domainLose d false
  ({ c with pow := { c.pow with queue := c.pow.queue.filter (· != d), dom := Store.put {} c.pow.dom d {} } }).loopSample

/-- The domain is on, or its power-off is emulated: a rail failure or a trip acts on it (R467; 20, R543). -/
def DomSt.powered (s : DomSt) : Bool := s.phase == .on || s.emul

/-- A monitor other than 0, 1 and 23 becomes bad (R464, R467). A domain in steps 2 to 7 of its rise waits again. -/
def Chip.railFalls (c : Chip) (n mv : Nat) : Chip :=
  let c := (c.set PW_VMON_MV pgPW mv n).set PW_RAILSTS_GOOD pgPW (setBit (c.get PW_RAILSTS_GOOD pgPW) n false)
  c.each ((List.range 80).filter fun d => (railsOf d).contains n) fun c d =>
    let s := c.dom d
    if s.powered then (c.cut d).report pgPW 1
    else if s.phase == .rising then
      ({ c.setDom d { s with phase := .waiting } with pow := { c.pow with queue := d :: c.pow.queue, dom := Store.put {} c.pow.dom d { s with phase := .waiting } } }).railLook d
    else c.railLook d

/-- Emulated power-offs are to end (20, R543): LEVEL has become NONE, or PWREMU is written as 0. -/
def Chip.emulEnds (c : Chip) : Chip :=
  c.each (List.range 80) fun c d => if (c.dom d).emul then c.setDom d { c.dom d with ends := true } else c

/-- A domain completes its power-off for real (20, R543). -/
def Chip.emulOver (c : Chip) (d : Nat) : Chip :=
  let s := c.dom d
  if s.emul && s.ends && !c.powerHeld then
    let c := if s.phase == .off then c.domainLose d false else c
    c.setDom d { s with emul := false, ends := false }
  else c

/-- What REQ writes during a freeze asked for is carried out (20, R546). -/
def Chip.powerThaw (c : Chip) : Chip :=
  ({ c with pow := { c.pow with later := [] } }).each c.pow.later Chip.powerLook

/-! ## The governor (R474 to R482) -/

/-- The hottest valid reading in quarters of a degree, and its sensor (R483, R487). -/
def Chip.hottest (c : Chip) : Option (Int × Nat) :=
  (List.range 72).foldl (fun (a : Option (Int × Nat)) n =>
    if c.pow.seen.contains n && !(c.get PW_SENSFAIL_FAIL pgPW (n / 32)).testBit (n % 32) then
      let t := sgn 10 (c.get PW_TEMP_TEMP pgPW n)
      match a with
      | some b => if b.1 < t then some (t, n) else a
      | none => some (t, n)
    else a) none

/-- A group runs with at least one bound engine (R476). -/
def Chip.boundRuns (c : Chip) (g : Nat) : Bool := c.groupUp g && !(c.ready g false).isEmpty

/-- The boundary of an epoch (R475 to R477, R482). `energy` gives the energy of the epoch in nJ by counter 0 to 81,
`loose` the loose-lap energy of each group. -/
def Chip.epoch (c : Chip) (energy loose : List Nat) : Chip :=
  let gs := List.range 64
  let bound := gs.filter c.boundRuns
  let total := ((List.range 82).map fun n => energy.getD n 0).foldl (· + ·) 0
  let looseSum := (gs.map fun g => loose.getD g 0).foldl (· + ·) 0
  let cap := (c.get PW_CAP_CAP pgPW + 1) * 1000000
  let mw := fun g => (c.get EG_ADMBRSV_MW (pgEG g) + 1) * 10000
  let rsv := (bound.map mw).foldl (· + ·) 0
  let nl := total - looseSum + (bound.map fun g => mw g - (energy.getD g 0 - loose.getD g 0)).foldl (· + ·) 0
  let hot : Bool := match c.hottest with | some (t, _) => decide (4 * sgn 8 (c.get PW_THERM_THROT pgPW) ≤ t) | none => false
  let b := if decide (cap < rsv) || hot then 0 else cap - nl
  let w := max 1 (((gs.filter fun g => (c.grp g).adm.demand).map fun g => c.get EG_ADMCTL_WT (pgEG g) + 1).foldl (· + ·) 0)
  let refill := min 0xFFFF (b / (32 * w))
  let n := (c.get PW_EPOCH_COUNT pgPW + 1) % 2 ^ 32
  let c := { c with pow := { c.pow with
    energy := (List.range 82).foldl (fun es i =>
      Store.put 0 es i (Store.get 0 es i + BitVec.ofNat 64 (energy.getD i 0))) c.pow.energy
    overRun := if cap < total then min 100 (c.pow.overRun + 1) else 0
    overTold := decide (cap < rsv) } }
  let was := c.get PW_GOVSTS_OVERCAP pgPW == 1
  let c := (c.setB PW_GOVSTS_OVERCAP pgPW (decide (cap < rsv))).reportIf (decide (cap < rsv) && !was) pgPW 4
  let exc := c.pow.overRun == 100 && !c.bit PW_GOVSTS_CAPEXC pgPW
  let c := (if exc then c.setB PW_GOVSTS_CAPEXC pgPW true else c).reportIf exc pgPW 5
  let c := ((c.set PW_EPOCH_COUNT pgPW n).set PW_BUDGET_WORD pgPW (refill + n % 256 * 2 ^ 16 + b2n hot * 2 ^ 24)).setB PW_GOVSTS_THROT pgPW hot
  c.each gs fun c g =>
    let x := c.grp g
    if c.domOn g then c.setGrp g { x with adm := { x.adm with demand := false, due := true } } else c

/-! ## Temperature and ageing (R483 to R488) -/

/-- Every switched domain is cut by a thermal trip (R486). -/
def Chip.trip (c : Chip) : Chip :=
  let c := c.each (List.range 80) fun c d =>
    if (c.dom d).phase == .off && !(c.dom d).emul then c.setDom d {} else c.cut d
  ((({ c with pow := { c.pow with tripped := true } }).setB PW_GOVSTS_TRIPPED pgPW true)).report pgPW 7

/-- PW_HOT and THERM_N follow the readings (R483, R485). -/
def Chip.hotLook (c : Chip) : Chip :=
  match c.hottest with
  | none => c
  | some (t, n) =>
    let c := (c.set PW_HOT_TEMP pgPW (ofInt 10 t)).set PW_HOT_INDEX pgPW n
    let alert := 4 * sgn 8 (c.get PW_THERM_ALERT pgPW)
    if !c.pow.therm && alert ≤ t then ({ c with pow := { c.pow with therm := true } }).report pgPW 6
    else if c.pow.therm && t ≤ alert - 12 then { c with pow := { c.pow with therm := false } }
    else c

/-- A sensor has failed its check. -/
def Chip.sensorFailed (c : Chip) (n : Nat) : Bool := (c.get PW_SENSFAIL_FAIL pgPW (n / 32)).testBit (n % 32)

/-- A sensor's reading is renewed (R483, R485, R486). -/
def Chip.sensorRead (c : Chip) (n temp : Nat) : Chip :=
  if 72 ≤ n || c.sensorFailed n then c
  else
    let c := c.set PW_TEMP_TEMP pgPW temp n
    let c := { c with pow := { c.pow with seen := if c.pow.seen.contains n then c.pow.seen else c.pow.seen ++ [n] } }
    let c := c.hotLook
    if !c.pow.tripped && decide ((4 * c.get PW_TTRIP_TRIP pgPW : Nat) ≤ sgn 10 temp) then c.trip else c

/-- A sensor's check passes or fails (R487). -/
def Chip.sensorCheck (c : Chip) (n : Nat) (pass : Bool) : Chip :=
  if 72 ≤ n || pass != c.sensorFailed n then c
  else
    let bits := c.get PW_SENSFAIL_FAIL pgPW (n / 32)
    let c := c.set PW_SENSFAIL_FAIL pgPW (setBit bits (n % 32) (!pass)) (n / 32)
    let c := { c with pow := { c.pow with seen := c.pow.seen.filter (· != n) } }
    if pass then c.hotLook else (((c.set PW_TEMP_TEMP pgPW 0x1FF n).report pgPW 8)).hotLook

/-- A group's ageing margin is read, and its body bias code is chosen (R488). -/
def Chip.ageRead (c : Chip) (g marg : Nat) : Chip :=
  if 64 ≤ g || !c.domOn g then c
  else
    let gb := c.get PW_AGEGB_GB pgPW
    let code := c.get PW_AGE_CODE pgPW g
    let m := min 255 marg
    let c := c.set PW_AGE_MARG pgPW m g
    if m < gb then (if code < 15 then c.set PW_AGE_CODE pgPW (code + 1) g else c.report pgPW 9)
    else if 2 * gb < m ∧ 0 < code then c.set PW_AGE_CODE pgPW (code - 1) g
    else c

/-- A body bias code comes into force at a step edge with no lap in progress, or in a stopped group (R488). -/
def Chip.biasApply (c : Chip) (g : Nat) : Chip :=
  if g < 64 && c.domOn g && (!c.groupUp g || (!(c.grp g).bound.on && !(c.grp g).loose.on)) && c.stepsRun then
    c.set EG_BIAS_CODE (pgEG g) (c.get PW_AGE_CODE pgPW g)
  else c

end Sys2Proof.Machine
end

