-- ==== Sys2Proof/Machine/Recorder.lean ====
section
/-! DEFINITION. The event recorder, its clear, its read window and the UART (21, R557 to R566). -/
namespace Sys2Proof.Machine

/-- The first flash address of the record ring, and its records. -/
def ringBase : Nat := 0x280000
def ringLen : Nat := 262144

/-- Flash address of the ring's place of a record (log entry 8). -/
def ringAddr (seq : Nat) : Nat := ringBase + 32 * (seq % ringLen)

/-- The 32 bytes of a record (21, Table 21-4). -/
def Rec.bytes (r : Rec) : List (BitVec 8) :=
  let b := natLe 4 r.seq.toNat ++ natLe 6 r.time.toNat ++ natLe 2 r.code.toNat ++ natLe 2 r.source.toNat ++
    natLe 2 r.flags.toNat ++ natLe 8 r.data.toNat ++ natLe 4 0
  b ++ natLe 4 (crc32 b).toNat

/-- The record that 32 bytes hold; none where CHECK does not match (21, R561). -/
def recOf (b : List (BitVec 8)) : Option Rec :=
  if leAt b 28 4 = (crc32 (b.take 28)).toNat then
    some { seq := BitVec.ofNat 32 (leAt b 0 4), time := BitVec.ofNat 48 (leAt b 4 6), code := BitVec.ofNat 16 (leAt b 10 2),
           source := BitVec.ofNat 16 (leAt b 12 2), flags := BitVec.ofNat 16 (leAt b 14 2), data := BitVec.ofNat 64 (leAt b 16 8) }
  else none

/-- The front buffer's fill is shown (21, EV_STS). -/
def Chip.showBuf (c : Chip) : Chip := c.set EV_STS_BUF pgEV c.ev.buf.length

/-- A record takes its SEQ and enters the front buffer, or is lost (21, R558, R559). -/
def Chip.enterRec (c : Chip) (r : Rec) : Chip :=
  if 1024 ≤ c.ev.buf.length + c.ev.early.length then
    { c.count EV_LOST_COUNT pgEV with ev := { c.ev with lost := c.ev.lost + 1 } }
  else if c.ev.searching then { c with ev := { c.ev with early := c.ev.early ++ [r] } }
  else
    let seq := (c.get EV_HEAD_SEQ pgEV + 1) % 2 ^ 32
    let c := c.set EV_HEAD_SEQ pgEV seq
    let c := if c.bit EV_STS_EMPTY pgEV then (c.set EV_TAIL_SEQ pgEV seq).setB EV_STS_EMPTY pgEV false else c
    ({ c with ev := { c.ev with buf := c.ev.buf ++ [{ r with seq := BitVec.ofNat 32 seq }] } }).showBuf

/-- A record with the present TIME and tick source (21, Table 21-4). -/
def Chip.newRec (c : Chip) (code source : Nat) (data : BitVec 64) (sw : Bool) : Rec :=
  { time := c.ev.time, code := BitVec.ofNat 16 code, source := BitVec.ofNat 16 source,
    flags := BitVec.ofNat 16 (b2n (!c.bit CK_STS_TICKSRC pgCK) + 2 * b2n sw), data := data }

/-- An event is recorded, under the rate limit of its code (21, R558, R560). -/
def Chip.record (c : Chip) (code source : Nat) (data : BitVec 64) (sw : Bool := false) (always : Bool := false) : Chip :=
  if always then c.enterRec (c.newRec code source data sw)
  else
    let n := Store.get (0, 0) c.ev.rate code
    let full := c.get EV_CTL_LIMIT pgEV + 1 ≤ n.1
    let n' := if full then (n.1, n.2 + 1) else (n.1 + 1, n.2)
    let c := { c with ev := { c.ev with rate := Store.put (0, 0) c.ev.rate code n' } }
    if full then c else c.enterRec (c.newRec code source data sw)

/-- The LOST record is entered as soon as the buffer has room (21, R559). -/
def Chip.lostRecord (c : Chip) : Chip :=
  if 0 < c.ev.lost ∧ c.ev.buf.length + c.ev.early.length < 1024 then
    let n := c.ev.lost
    (({ c with ev := { c.ev with lost := 0 } }).record 0x0004 0 (BitVec.ofNat 64 n) false true).report pgEV 3
  else c

/-- A record is programmed into its place of the ring; the sector after a full one is erased, and with it
the oldest records (21, R558). -/
def Chip.programRec (c : Chip) (r : Rec) : Chip :=
  let s := r.seq.toNat
  let a := ringAddr s
  let c := if c.unitErased a then c else c.eraseSector (a / 0x1000)
  let c := c.programUnit a r.bytes
  if s % 128 = 127 then
    let c := c.eraseSector ((ringBase + 32 * ((s + 1) % ringLen)) / 0x1000)
    if ringLen - 128 ≤ (s + 2 ^ 32 - c.get EV_TAIL_SEQ pgEV) % 2 ^ 32 then
      c.set EV_TAIL_SEQ pgEV ((s + 2 ^ 32 + 129 - ringLen) % 2 ^ 32)
    else c
  else c

/-- The oldest buffered record is programmed (21, R558, R559). -/
def Chip.recordProgram (c : Chip) : Chip :=
  if c.ev.searching then c
  else match c.ev.buf with
  | [] => c
  | r :: rs =>
    let c := { c with ev := { c.ev with buf := rs } }
    (c.programRec r).showBuf.lostRecord

/-- A rate window ends: one SUPPRESSED record for each code that was suppressed (21, R560). -/
def Chip.rateEnd (c : Chip) : Chip :=
  let overRate := c.ev.rate.filter fun kv => 0 < kv.2.2
  let c := { c with ev := { c.ev with rate := [] } }
  overRate.foldl (fun c kv => c.record 0x0002 kv.1 (BitVec.ofNat 64 kv.2.2) false true) c

/-- TIME wraps to 0 (21, R561). -/
def Chip.timeWrap (c : Chip) : Chip :=
  let n := c.ev.wraps + 1
  ({ c with ev := { c.ev with time := 0, wraps := n } }).record 0x0005 0 (BitVec.ofNat 64 (n % 2 ^ 32)) false true

/-- A microsecond tick of the recorder: TIME counts, windows end and TIME wraps (16, R457; 21, R560, R561). -/
def Chip.tickTime (c : Chip) : Chip :=
  if c.ev.time = BitVec.allOnes 48 then c.rateEnd.timeWrap
  else
    let c := { c with ev := { c.ev with time := c.ev.time + 1 } }
    if c.ev.time.toNat % 1000000 = 0 then c.rateEnd else c

/-- The end of the present rate window comes: time moves on to it (21, R560; log entry 9). -/
def Chip.rateWindow (c : Chip) : Chip :=
  let t := (c.ev.time.toNat / 1000000 + 1) * 1000000
  if t < 2 ^ 48 then ({ c with ev := { c.ev with time := BitVec.ofNat 48 t } }).rateEnd else c.rateEnd.timeWrap

/-- The record of a SEQ that stands in the ring. -/
def Chip.ringRec (c : Chip) (seq : Nat) : Option Rec :=
  (recOf (c.flashBytes (ringAddr seq) 32)).filter fun r => r.seq.toNat == seq

/-- The number of records before `seq` in an unbroken run down to a CLEAR record, at most `n` (21, R561,
R565). -/
def Chip.runBack (c : Chip) : Nat → Nat → Nat
  | 0, _ => 0
  | n + 1, seq =>
    match c.ringRec seq with
    | none => 0
    | some r =>
      if r.code.toNat = 1 then 0
      else match c.ringRec ((seq + 2 ^ 32 - 1) % 2 ^ 32) with
        | none => 0
        | some _ => 1 + c.runBack n ((seq + 2 ^ 32 - 1) % 2 ^ 32)

/-- The ring search of a cold start is done, and COLDSTART is entered; records that arose meanwhile follow
it (21, R561). An erasure that power interrupted is completed (21, R565). -/
def Chip.searchDone (c : Chip) : Chip :=
  if !c.ev.searching then c
  else
    let units := (c.ev.flash.filterMap fun kv =>
      let a := 8 * kv.1
      if ringBase ≤ a ∧ a < ringBase + 32 * ringLen then some (a - a % 32) else none).eraseDups
    let found := units.filterMap fun a => (recOf (c.flashBytes a 32)).map fun r => r.seq.toNat
    let early := c.ev.early
    let c := { c with ev := { c.ev with searching := false, early := [] } }
    let (newest, none_) := match found with | [] => (0, 1) | x :: xs => (xs.foldl max x, 0)
    let c := if none_ = 1 then c
      else
        let tail := (newest + 2 ^ 32 - c.runBack ringLen newest) % 2 ^ 32
        let c := ((c.set EV_HEAD_SEQ pgEV newest).set EV_TAIL_SEQ pgEV tail).setB EV_STS_EMPTY pgEV false
        let keep := fun s => (s + 2 ^ 32 - tail) % 2 ^ 32 ≤ (newest + 2 ^ 32 - tail) % 2 ^ 32
        let old := ((found.filter fun s => !keep s).map fun s => ringAddr s / 0x1000).eraseDups
        let used := ((found.filter keep).map fun s => ringAddr s / 0x1000)
        let cleared := match c.ringRec tail with | some r => r.code.toNat == 1 | none => false
        if cleared then (old.filter fun x => !used.contains x).foldl (fun c x => c.eraseSector x) c else c
    let c := c.record 0x0003 0 (BitVec.ofNat 64 (newest + none_ * 2 ^ 32)) false true
    let c := c.set EV_UARTSEQ_SEQ pgEV (c.get EV_HEAD_SEQ pgEV)
    (early.foldl (fun c r => c.enterRec r) c).lostRecord

/-! ## The read window and software records (21, R562, R563) -/

/-- A SEQ lies from EV_TAIL to EV_HEAD (21, R562). -/
def Chip.readable (c : Chip) (seq : Nat) : Bool :=
  let t := c.get EV_TAIL_SEQ pgEV
  !c.bit EV_STS_EMPTY pgEV && decide ((seq + 2 ^ 32 - t) % 2 ^ 32 ≤ (c.get EV_HEAD_SEQ pgEV + 2 ^ 32 - t) % 2 ^ 32)

/-- The 32 bytes of a record, in the front buffer or in flash; zeros where it is not readable. -/
def Chip.recBytes (c : Chip) (seq : Nat) : List (BitVec 8) :=
  if c.readable seq then
    match c.ev.buf.find? fun r => r.seq.toNat == seq with
    | some r => r.bytes
    | none => c.flashBytes (ringAddr seq) 32
  else List.replicate 32 0

/-- The word at an offset of the read window (21, R562). -/
def Chip.windowWord (c : Chip) (off : Nat) : Nat :=
  let seq := (c.get EV_RDSEQ_SEQ pgEV + (off - 0x800) / 32) % 2 ^ 32
  leAt (c.recBytes seq) (off % 32) 4

/-- What reading the window reports: words of flash that decode with an error (21, R562, R555). -/
def Chip.windowNote (c : Chip) (off : Nat) : Chip :=
  let seq := (c.get EV_RDSEQ_SEQ pgEV + (off - 0x800) / 32) % 2 ^ 32
  if c.readable seq && !(c.ev.buf.any fun r => r.seq.toNat == seq) then c.flashNote (ringAddr seq + off % 32 - off % 8) 8 else c

/-- A write of EV_SWCODE (21, R563). -/
def Chip.softwareRecord (c : Chip) (who : Who) (code : Nat) : Chip :=
  if 0x8000 ≤ code % 2 ^ 16 then
    let d := c.get EV_SWDATAL_DATA pgEV + 2 ^ 32 * c.get EV_SWDATAH_DATA pgEV
    c.record (code % 2 ^ 16) (0xF000 + who.cls) (BitVec.ofNat 64 d) true
  else c.wign pgEV

/-! ## Clearing (21, R564, R565) -/

/-- The lapse of a verified authorisation. -/
def Chip.clrLapse (c : Chip) : Chip := c.setB EV_CLRSTS_AUTH pgEV false

/-- Who may write EV_CLRCMD at all. -/
def Who.mayClear (w : Who) : Bool := w == .host || w == .debug || w.mgmt

/-- CHALLENGE of the owner clear (21, R564; 20, R529). -/
def Chip.clrChallenge (c : Chip) (who : Who) : Chip :=
  let c := c.clrLapse
  let err := fun (c : Chip) (e : Nat) => c.set EV_CLRSTS_ERR pgEV e
  if c.bit EV_CLRSTS_LOCKOUT pgEV then err c 1
  else if !c.keyPresent 0x10C0 then err c 2
  else
    let (n, c) := c.drawWord
    let c := (c.set EV_CLRNONCEL_VALUE pgEV n.toNat).set EV_CLRNONCEH_VALUE pgEV (n.toNat / 2 ^ 32)
    err ({ c.setB EV_CLRSTS_CHAL pgEV true with ev := { c.ev with chalBy := who.cls } }) 0

/-- VERIFY of the owner clear (21, R564). The two values are compared as the response registers hold them. -/
def Chip.clrVerify (c : Chip) (who : Who) : Chip :=
  let c := c.clrLapse
  if !c.bit EV_CLRSTS_CHAL pgEV then c.set EV_CLRSTS_ERR pgEV 3
  else
    let nonce := c.get EV_CLRNONCEL_VALUE pgEV + 2 ^ 32 * c.get EV_CLRNONCEH_VALUE pgEV
    let given := (List.range 4).flatMap fun i => natLe 4 (c.get EV_CLRRESP_VALUE pgEV i)
    let ok := given == c.response 0x10C0 nonce 0x43 who.cls
    let c := ((c.setB EV_CLRSTS_CHAL pgEV false).set EV_CLRNONCEL_VALUE pgEV 0).set EV_CLRNONCEH_VALUE pgEV 0
    let c := c.each (List.range 4) fun c i => c.set EV_CLRRESP_VALUE pgEV 0 i
    if ok then
      { (c.set EV_CLRSTS_ERR pgEV 0).setB EV_CLRSTS_AUTH pgEV true with ev := { c.ev with authBy := who.cls } }
    else
      let n := min (c.get EV_CLRSTS_CNT pgEV + 1) 8
      let c := ((c.set EV_CLRSTS_CNT pgEV n).set EV_CLRSTS_ERR pgEV 4).report pgEV 5
      if n = 8 then c.setB EV_CLRSTS_LOCKOUT pgEV true else c

/-- CLEAR (21, R564, R565): the CLEAR record is programmed, EV_TAIL moves to it, the erasure begins. -/
def Chip.recorderClear (c : Chip) (who : Who) : Chip :=
  let allowed := (who == .debug && c.get DB_AUTHSTS_LEVEL pgDB == 2) ||
    ((who == .host || who.mgmt) && c.bit EV_CLRSTS_AUTH pgEV && c.ev.authBy == who.cls)
  let busy := c.bit EV_STS_CLRBUSY pgEV
  let c := c.clrLapse
  if !allowed then c.set EV_CLRSTS_ERR pgEV 5
  else if busy then c.set EV_CLRSTS_ERR pgEV 6
  else
    let head := c.get EV_HEAD_SEQ pgEV
    let data := BitVec.ofNat 64 (head + 2 ^ 32 * c.get EV_TAIL_SEQ pgEV)
    let c := { c with ev := { c.ev with buf := [], early := [] } }
    let seq := (head + 1) % 2 ^ 32
    let r := { c.newRec 0x0001 who.cls data false with seq := BitVec.ofNat 32 seq }
    let c := ((c.set EV_HEAD_SEQ pgEV seq).setB EV_STS_EMPTY pgEV false).programRec r
    let c := ((c.set EV_TAIL_SEQ pgEV seq).setB EV_STS_CLRBUSY pgEV true).showBuf
    (c.set EV_CLRSTS_ERR pgEV 0).report pgEV 4

/-- The background erasure ends: every ring sector without a readable record is erased (21, R565). -/
def Chip.clearErased (c : Chip) : Chip :=
  if !c.bit EV_STS_CLRBUSY pgEV then c
  else
    let tail := c.get EV_TAIL_SEQ pgEV
    let n := (c.get EV_HEAD_SEQ pgEV + 2 ^ 32 - tail) % 2 ^ 32
    let first := tail % ringLen / 128
    let kept := fun x => (x + 2048 - first) % 2048 ≤ (tail % 128 + n) / 128
    let dirty := ((c.ev.flash.filterMap fun kv =>
      let a := 8 * kv.1
      if ringBase ≤ a ∧ a < ringBase + 32 * ringLen then some ((a - ringBase) / 0x1000) else none).eraseDups).filter fun x => !kept x
    (dirty.foldl (fun c x => c.eraseSector (ringBase / 0x1000 + x)) c).setB EV_STS_CLRBUSY pgEV false

/-! ## The UART (21, R566) -/

/-- An upper-case hexadecimal digit. -/
def hexDigit (n : Nat) : BitVec 8 := BitVec.ofNat 8 (if n % 16 < 10 then 48 + n % 16 else 55 + n % 16)

/-- `n` digits of a number, the most significant first. -/
def hexOf (n v : Nat) : List (BitVec 8) := ((List.range n).map fun i => hexDigit (v / 16 ^ i)).reverse

/-- The line of a record: 55 characters (21, R566). -/
def uartLine (b : List (BitVec 8)) : List (BitVec 8) :=
  hexOf 8 (leAt b 0 4) ++ [32] ++ hexOf 12 (leAt b 4 6) ++ [32] ++ hexOf 4 (leAt b 10 2) ++ [32] ++ hexOf 4 (leAt b 12 2) ++
    [32] ++ hexOf 4 (leAt b 14 2) ++ [32] ++ hexOf 16 (leAt b 16 8) ++ [13, 10]

/-- The UART sends a record; UART_RX high lets it (21, R566). -/
def Chip.uartRecord (c : Chip) (rx : Bool) : Chip :=
  if c.bit EV_UARTCTL_EN pgEV && c.works pgEV && c.get CK_STS_REFST pgCK == 2 && rx && !c.bit EV_STS_EMPTY pgEV then
    let s := c.get EV_UARTSEQ_SEQ pgEV
    let head := c.get EV_HEAD_SEQ pgEV
    if s = (head + 1) % 2 ^ 32 then c
    else
      let s := if c.readable s then s else c.get EV_TAIL_SEQ pgEV
      { c.set EV_UARTSEQ_SEQ pgEV ((s + 1) % 2 ^ 32) with ev := { c.ev with uart := uartLine (c.recBytes s) } }
  else c

/-- EV_UARTCTL.EN goes from 0 to 1 (21, R566). -/
def Chip.uartEnable (c : Chip) : Chip :=
  if c.bit EV_UARTCTL_EN pgEV then c
  else (c.setB EV_UARTCTL_EN pgEV true).set EV_UARTSEQ_SEQ pgEV ((c.get EV_HEAD_SEQ pgEV + 1) % 2 ^ 32)

end Sys2Proof.Machine
end

