-- ==== Sys2Proof/Machine/Fault.lean ====
section
/-! DEFINITION. The fault collector, its pins and the failed state (19). -/
namespace Sys2Proof.Machine

/-- Every page that is mapped (01, R40). -/
def allPages : List Nat := (List.range 0x600).filter fun pg => (pageKind pg).isSome

/-- The collector runs: MAIN is up (18, R492, R498). -/
def Chip.collects (c : Chip) : Bool := c.rst.mainRel

/-- FLTS_N is asserted: MAIN is not up, or a critical sticky bit stands (R514, R515). -/
def Chip.flts (c : Chip) : Bool :=
  !c.rst.mainRel || allPages.any fun pg => c.get PG_FSTK_FSTK pg &&& c.get PG_FEN_FEN pg &&& c.get PG_FCRIT_FCRIT pg != 0

/-- The debug master has level FULL (20, Table 20-1). -/
def Chip.fullDebug (c : Chip) : Bool := c.get DB_AUTHSTS_LEVEL pgDB == 2

/-- The masters of R501, R521 and R544: the host port, the debug master at full level and the management targets. -/
def Chip.guardian (c : Chip) (w : Who) : Bool := w == .host || w.mgmt || (w == .debug && c.fullDebug)

/-! ## FLTP_N (R513) -/

/-- FLTP_N is released where its width has run and the report is acknowledged; its deasserted time begins. -/
def Chip.fltpLook (c : Chip) : Chip :=
  if c.flt.fltp && !c.flt.width && c.flt.acked then { c with flt := { c.flt with fltp := false, holdoff := true } } else c

/-- A C1 or C2 report asserts FLTP_N, or does so when the deasserted time is over. -/
def Chip.fltpReport (c : Chip) : Chip :=
  if c.flt.holdoff then { c with flt := { c.flt with acked := false, heldReport := true } }
  else { c with flt := { c.flt with acked := false, fltp := true, width := true } }

/-- A write of FC_ACK.ACK. -/
def Chip.faultAck (c : Chip) : Chip :=
  ({ c.setB FC_STS_PEND pgFC false with flt := { c.flt with acked := true } }).fltpLook

/-- The width of FLTP_N has run. -/
def Chip.fltpWidth (c : Chip) : Chip := ({ c with flt := { c.flt with width := false } }).fltpLook

/-- The deasserted time of FLTP_N is over. -/
def Chip.fltpHoldoff (c : Chip) : Chip :=
  if !c.flt.holdoff then c
  else if c.flt.heldReport then { c with flt := { c.flt with holdoff := false, heldReport := false, fltp := true, width := true } }
  else { c with flt := { c.flt with holdoff := false } }

/-! ## The failed state (R516) -/

/-- The device enters the failed state. CFG_DONE goes low with the sectors that it started. -/
def Chip.failState (c : Chip) : Chip :=
  if c.flt.failed then c
  else
    let c := { c with flt := { c.flt with failed := true } }
    let c := c.each (List.range 79) Chip.domainStop
    let c := c.each ((List.range 8).filter fun s => c.started s) Chip.holdSector
    { c.setB CF_STS_DONEREL pgCF false with stream := { c.stream with toStart := [] } }

/-! ## Reports (R512, R517, R518) -/

/-- The vector of a report of a class from a page of a block type (R518). -/
def Chip.faultVector (c : Chip) (type cls : Nat) : Chip :=
  if !c.run pgFC then c
  else if cls = 3 then c.msixRaise (c.get FC_C3VEC_VEC pgFC)
  else if cls = 0 then (if c.bit FC_VMAP_C0EN pgFC (type - 1) then c.msixRaise (c.get FC_VMAP_VC0 pgFC (type - 1)) else c)
  else c.msixRaise (c.get FC_VMAP_VC12 pgFC (type - 1))

/-- A report is processed (R512). -/
def Chip.faultProcess (c : Chip) (r : Report) : Chip :=
  match pageKind r.page, faultClass r.page r.bit with
  | some (k, _), some cls =>
    let c := c.orBits PG_FSTK_FSTK r.page (2 ^ r.bit)
    if !(c.get PG_FEN_FEN r.page).testBit r.bit then c
    else
      let c := c.count FC_CLSCNT_COUNT pgFC cls
      let c := ((c.set FC_LAST_CLASS pgFC cls).set FC_LAST_PAGE pgFC r.page).set FC_LAST_BIT pgFC r.bit
      let data := c.get PG_FSTK_FSTK r.page + 2 ^ 32 * cls + 2 ^ 34 * b2n r.forced + 2 ^ 35 * b2n r.broken +
        2 ^ 36 * b2n ((c.get PG_FCRIT_FCRIT r.page).testBit r.bit)
      let c := c.record (0x1000 + 32 * typeOf k + r.bit) r.page (BitVec.ofNat 64 data)
      let c := if cls = 1 ∨ cls = 2 then (c.setB FC_STS_PEND pgFC true).fltpReport else c
      let c := if cls = 3 then c.failState else c
      c.faultVector (typeOf k) cls
  | _, _ => c

/-- The report that is processed next: of the page that reported first, the lowest bit (R519). -/
def nextReport (rs : List Report) : Option Report :=
  match rs with
  | [] => none
  | r :: _ => some ((rs.filter fun q => q.page == r.page).foldl (fun a q => if q.bit < a.bit then q else a) r)

/-- The collector processes the next report. -/
def Chip.faultReport (c : Chip) : Chip :=
  match c.collects, nextReport c.flt.waiting with
  | true, some r => ({ c with flt := { c.flt with waiting := c.flt.waiting.erase r } }).faultProcess r
  | _, _ => c

/-- The collector processes every report that waits. -/
def Chip.faultDrain (c : Chip) : Chip := forN c.flt.waiting.length c fun c _ => c.faultReport

/-! ## Broken pairs (R509) -/

/-- A pair whose rails have stayed equal. -/
def Chip.brokenPair (c : Chip) (pg b : Nat) : Chip :=
  if (faultClass pg b).isNone || !c.domOn (domOf pg) || c.flt.brokenPairs.contains (pg, b) || !c.collects then c
  else
    let c := ((c.setB FC_PAIRSRC_VALID pgFC true).set FC_PAIRSRC_PAGE pgFC pg).set FC_PAIRSRC_BIT pgFC b
    let c := c.report pgFC 0
    { c with flt := { c.flt with
        brokenPairs := c.flt.brokenPairs ++ [(pg, b)]
        waiting := addReport c.flt.waiting { page := pg, bit := b, broken := true } } }

/-- A broken pair is valid again. -/
def Chip.pairValid (c : Chip) (pg b : Nat) : Chip :=
  { c with flt := { c.flt with brokenPairs := c.flt.brokenPairs.filter (· != (pg, b)) } }

/-! ## Forcing and clearing (R510, R511) -/

/-- The class action of a forced C2 source on the unit of its own page (R510, Table 19-8). Sources whose unit only
the event itself names act on no unit. -/
def Chip.forcedStop (c : Chip) (pg b : Nat) : Chip :=
  match pageKind pg, b with
  | some (.gl, _), 0 => c.each (c.lsGroups.filter fun g => c.run (pgEG g)) fun c g => c.egRunClear g
  | some (.as, _), 1 => c.stopAct pg
  | some (.eg, g), 2 => c.groupStop g
  | some (.eg, g), 6 => c.groupStop g
  | some (.eg, g), 9 =>
    let x := c.grp g
    let es := ((List.range 8).map (8 * g + ·)).filter fun e => c.isLoose e
    let c := c.setGrp g { x with batch := { x.batch with active := false } }
    if x.loose.on then c.each es fun c e => c.runClear (pgEE e) else c.eeStop es
  | some (.ee, e), 5 => c.eeStop [e]
  | _, _ => c

/-- A write of 1 bits to PG_FFRC (R510). -/
def Chip.faultForce (c : Chip) (w : Who) (pg v : Nat) : Chip :=
  (List.range 32).foldl (fun (c : Chip) b =>
    if !v.testBit b then c
    else match faultClass pg b with
      | none => c
      | some 3 => if w == .debug && c.fullDebug then c.report pg b true else c.wign pg
      | some 2 => if c.domOn (domOf pg) then (c.forcedStop pg b).report pg b true else c
      | some _ => c.report pg b true) c

/-- A write of 1 bits to PG_FSTK (R511). -/
def Chip.stickyClear (c : Chip) (pg v : Nat) : Chip :=
  let old := c.get PG_FSTK_FSTK pg
  c.set PG_FSTK_FSTK pg (ofBits (fun b => old.testBit b && (!v.testBit b || faultClass pg b == some 3)) 32)

/-! ## Summaries -/

/-- The SUM of FC_TYPESUM, FC_EGSUML with FC_EGSUMH, and FC_NCSUM0 to FC_NCSUM3. -/
def Chip.typeSum (c : Chip) : Nat :=
  (allPages.filter fun pg => c.get PG_FSTK_FSTK pg != 0).foldl (fun a pg =>
    match pageKind pg with | some (k, _) => a ||| 2 ^ (typeOf k - 1) | none => a) 0
def Chip.egSum (c : Chip) : Nat :=
  ofBits (fun g => (pgEG g :: (List.range 8).map fun k => pgEE (8 * g + k)).any fun pg => c.get PG_FSTK_FSTK pg != 0) 64
def Chip.ncSum (c : Chip) : Nat := ofBits (fun x => c.get PG_FSTK_FSTK (pgRouter x) != 0) 128

/-! ## The host watchdog (R520 to R522) -/

/-- A debug halt is in effect in some group. -/
def Chip.anyHalt (c : Chip) : Bool := c.eng.group.any fun kv => kv.2.halt.halted

/-- The count is held (R522). -/
def Chip.wdHeld (c : Chip) : Bool := c.bit DB_CTL_WDHOLD pgDB && c.anyHalt

/-- The count is loaded. -/
def Chip.wdLoad (c : Chip) : Chip :=
  let c := c.set GL_WDCNT_COUNT pgGL ((c.get GL_WDPER_PERIOD pgGL + 1) * 1000)
  { c with rst := { c.rst with warned := false } }

/-- A hold is over: the count is loaded while the watchdog counts (R522). -/
def Chip.wdUnhold (held : Bool) (c : Chip) : Chip :=
  if held && !c.wdHeld && c.bit GL_WDCTL_EN pgGL then c.wdLoad else c

/-- A performed write to GL_WDCTL (R521). A reserved ACTION is not taken (00, R17). -/
def Chip.wdControl (c : Chip) (v : Nat) : Chip :=
  let was := c.bit GL_WDCTL_EN pgGL
  let c := ((c.setB GL_WDCTL_EN pgGL (v.testBit 0)).setB GL_WDCTL_WEN pgGL (v.testBit 1))
  let c := if bitsOf v 9 8 < 2 then c.set GL_WDCTL_ACTION pgGL (bitsOf v 9 8) else c
  if !was && v.testBit 0 then c.wdLoad else c

/-- A write to GL_WDKICK (R520). -/
def Chip.wdKick (c : Chip) (v : Nat) : Chip :=
  if v % 2 ^ 16 = 0x5A5A then c.wdLoad else c.report pgGL 6

end Sys2Proof.Machine
end

