-- ==== Sys2Proof/Machine/Reset.lean ====
section
/-! DEFINITION. Start-up and reset (18), with the records of flash that AON reads (16, R447). -/
namespace Sys2Proof.Machine

/-- The board parameter partition of flash (21), and the places of its records (Table 18-3). -/
def boardBase : Nat := 0x40000
def clockAt : Nat := boardBase
def identityAt : Nat := boardBase + 0x40
def routeAt : Nat := boardBase + 0x2000

/-! ## Records (16, R447; 18, R494) -/

/-- The clock record is valid (16, R447). -/
def Chip.clockValid (c : Chip) : Bool :=
  let b := c.flashBytes clockAt 16
  leAt b 0 4 == 0x31434C43 && leAt b 12 4 == (crc32 (b.take 12)).toNat && leAt b 4 2 < 4096 && leAt b 6 1 < 3 &&
    leAt b 7 1 < 32 && leAt b 8 4 == 0

/-- CK_REFCFG is loaded, and REF_EN is driven high (16, R447 to R450). -/
def Chip.clockRecord (c : Chip) : Chip :=
  let b := c.flashBytes clockAt 16
  let ok := c.clockValid
  let c := c.flashNote clockAt 16
  let c := ((c.setB CK_REFCFG_VALID pgCK ok).set CK_REFCFG_REFDLY pgCK (if ok then leAt b 4 2 else 0)).set CK_REFCFG_TOL pgCK
    (if ok then leAt b 7 1 else 9)
  let c := (c.set CK_REFCFG_FREQ pgCK (if ok then leAt b 6 1 else 0)).set CK_STS_REFST pgCK 1
  { c with clk := { c.clk with refEn := true } }

/-- The identity record is valid (R494). -/
def Chip.identityValid (c : Chip) : Bool :=
  let b := c.flashBytes identityAt 32
  leAt b 0 4 == 0x31444942 && leAt b 28 4 == (crc32 (b.take 28)).toNat && leAt b 5 1 < 8 && leAt b 10 18 == 0

/-- The straps are sampled, and the identity record is read (R493, R494). -/
def Chip.straps (c : Chip) (dev : BitVec 6) (mode : BitVec 2) (pudc : Bool) : Chip :=
  let c := { c with pin := { c.pin with devId := dev, cfgMode := mode, pudcN := pudc } }
  let c := (c.set GL_STRAPS_DEV_ID pgGL dev.toNat).set GL_STRAPS_CFG_MODE pgGL mode.toNat
  let c := (c.set CF_CTL_SRC pgCF (b2n (mode == 1 || mode == 2))).setB CF_CTL_DONESYNC pgCF (mode == 2)
  let b := c.flashBytes identityAt 32
  let ok := c.identityValid
  let c := (c.flashNote identityAt 32).setB GL_STS_IDREC pgGL ok
  if ok then
    let opt := leAt b 5 1
    let c := { c with rst := { c.rst with ssvid := leAt b 6 2, ssid := leAt b 8 2, hpoff := opt.testBit 2 } }
    if opt.testBit 1 && (leAt b 4 1 != dev.toNat + 64 * mode.toNat || opt.testBit 0 != pudc) then
      (c.setB GL_STS_STRAPMIS pgGL true).report pgGL 1
    else c
  else ({ c with rst := { c.rst with ssvid := 0, ssid := 0, hpoff := false } }).report pgGL 2

/-! ## Cold start (R492) -/

/-- The device with nothing but what outlasts a loss of VDD_AON or VDD_AUX: the flash with the state records in it,
the pins, and what the monitors read (R491; log entry 56). -/
def Chip.powerUp (c : Chip) : Chip :=
  let rails := fun (k : Nat) => keyPage k == pgPW &&
    (k == PW_RAILSTS_GOOD.key pgPW 0 || keyOff k == PW_VMON_MV.off ||
      k == PW_VCCOSTS_PRESENT.key pgPW 0)
  { stepping := c.stepping, regs := c.regs.filter fun kv => rails kv.1, pin := { c.pin with scan := 0 }, free := c.free,
    ev := { flash := c.ev.flash, place := c.ev.place, spares := c.ev.spares, erases := c.ev.erases },
    mem := { recs := c.mem.recs, log := c.mem.log } }

/-- Step 3 begins: MAIN is released, the collector runs, the configuration port accepts words, and domain 79 is
requested on (R492, R496, R497). -/
def Chip.mainRelease (c : Chip) : Chip :=
  let c := { c.set GL_STS_PHASE pgGL 2 with rst := { c.rst with phase := .mainup, mainRel := true } }
  if c.rst.hpoff then c
  else if c.pow.tripped then c
  else (c.setDom 79 { c.dom 79 with req := 1 }).powerLook 79

/-- Step 3 begins where step 2 is complete and monitor 1 reads good (R492). -/
def Chip.stepThree (c : Chip) : Chip :=
  if c.rst.phase == .records && c.rst.recordsRead && c.railGood 1 then c.mainRelease else c

/-- Steps 1 and 2: monitors 0 and 23 read good (R492, R493); the recorder begins its search (21, R561). -/
def Chip.coldStart (c : Chip) (dev : BitVec 6) (mode : BitVec 2) (pudc : Bool) : Chip :=
  if c.rst.phase != .held || !c.railGood 0 || !c.railGood 23 then c
  else
    let c := { c with rst := { c.rst with phase := .records, recordsRead := true }, ev := { c.ev with searching := true } }
    ((c.clockRecord.straps dev mode pudc).loadProvision).stepThree

/-! ## The route record (R495) -/

/-- The route record is valid. -/
def Chip.routeValid (c : Chip) : Bool :=
  leAt (c.flashBytes routeAt 8) 0 6 == 0x31455452 + 2 ^ 32 &&
    let b := c.flashBytes routeAt 65548
    leAt b 65544 4 == (crc32 (b.take 65544)).toNat

/-- The route table entry that the record gives for entry `i` of an NI, and whether it is loaded otherwise than it
stands. -/
def Chip.routeLoaded (c : Chip) (n i : Nat) : BitVec 49 × Bool :=
  let e := c.flashNat (routeAt + 8 + 8 * (256 * (n - 32) + i)) 8
  let r := BitVec.ofNat 48 e
  let m := 32 + i / 8
  if !e.testBit 48 then (BitVec.ofNat 49 (e % 2 ^ 48), decide (2 ^ 49 ≤ e))
  else if 2 ^ 49 ≤ e ∨ (m ≠ n ∧ routeErr n m r ≠ 0) then (BitVec.ofNat 49 (e % 2 ^ 48), true)
  else (BitVec.ofNat 49 (e % 2 ^ 49), false)

/-- The built-in route of an entry (12, R355; R495). -/
def builtIn (n m : Nat) : BitVec 49 := BitVec.ofNat 49 ((routeOf (shortDirs (niRouter n) (niRouter m))).toNat + 2 ^ 48)

/-- The route load completes (R495). -/
def Chip.routeLoad (c : Chip) : Chip :=
  if !c.rst.mainRel || c.get GL_STS_ROUTES pgGL != 0 then c
  else
    let ok := c.routeValid
    let (c, bad) := forN 32 (c, false) fun (cb : Chip × Bool) k =>
      forN 256 cb fun (cb : Chip × Bool) i =>
        let n := 32 + k
        let (v, b) := if ok then c.routeLoaded n i else (0, false)
        let m := 32 + i / 8
        if i % 8 = 0 ∧ m ≠ n ∧ !v.getLsbD 48 then (cb.1.setRoute n i (builtIn n m), true)
        else (cb.1.setRoute n i v, cb.2 || b)
    let inv := ok && forN 32 false fun b k => b || (List.range 256).any fun i => (c.routeLoaded (32 + k) i).2
    let c := c.set GL_STS_ROUTES pgGL (if !ok then 2 else if bad then 3 else 1)
    if !ok || inv then c.report pgGL 2 else c

/-- Step 6: the device is ready (R492, Table 18-7). Domain 79 is on, is not requested, or waits for a rail. After a
warm reset the network loop is not waited for (R498). -/
def Chip.deviceReady (c : Chip) : Chip :=
  let hp := c.domOn 79 || (c.dom 79).req != 1 || ((c.dom 79).phase == .waiting && !c.railsGood 79)
  if c.rst.phase == .mainup && c.get GL_STS_ROUTES pgGL != 0 && hp && (c.rst.afterWarm || c.bit CK_LOOPSTS_NET pgCK) then
    { c.set GL_STS_PHASE pgGL 3 with rst := { c.rst with phase := .ready } }
  else c

/-! ## Warm reset (R498 to R501) -/

/-- A freeze has stopped the clocks of a domain: it cannot answer its handshakes (R504; 20, Table 20-4). -/
def Chip.stuck (c : Chip) (d : Nat) : Bool := !c.stepsRun && decide (d < 79)

/-- The freeze ends (R504). -/
def Chip.freezeOver (c : Chip) : Chip :=
  let c := (((c.set GL_FRZSTS_STATE pgGL 0).setB GL_FRZ_REQ pgGL false))
  { c with rst := { c.rst with freezePin := false }, pow := { c.pow with later := [] } }

/-- A domain is switched off by a warm reset: at once, or in the order of R471. -/
def Chip.warmOff (c : Chip) (now : Bool) (d : Nat) : Chip :=
  let s := c.dom d
  if s.phase == .off && !s.emul && s.req == 0 then c
  else if now || s.emul || !(s.phase == .on || s.phase == .falling) then c.cut d
  else (c.setDom d { c.dom d with req := 0 }).powerLook d

/-- A cause of a warm reset: bit of GL_RSTCAUSE; `now` for a bad VDD_MAIN (R498). The stream is abandoned, and the
switched domains go off. -/
def Chip.warmBegin (c : Chip) (cause : Fld) (now : Bool) : Chip :=
  if c.rst.phase == .held then c
  else
    let c := c.setB cause pgGL true
    let more := c.rst.phase == .warm
    let stuckD := (List.range 80).filter c.stuck
    let c := { c with
      rst := { c.rst with phase := .warm, mainRel := false, mainBad := c.rst.mainBad || now }
      stream := { c.stream with buf := [], wait := .none, toStart := [], errDrive := false, pend := none } }
    let c := (c.setB CF_STS_DONEREL pgCF false).freezeOver
    let c := if more && !now then c else c.each (List.range 80) fun c d => c.warmOff (now || stuckD.contains d) d
    { c with pow := { c.pow with later := [] } }

/-- RESET_N has been low for 1 us, or is high again (R498, R504). -/
def Chip.resetPin (c : Chip) (low : Bool) : Chip :=
  let c := { c with rst := { c.rst with pin := low } }
  if low then c.warmBegin GL_RSTCAUSE_PIN false else c

/-- What the pages of MAIN and the common headers hold after a warm reset (R499, R500; 19, Table 19-5): the CK, PW and
EV pages, the reset cause and count, the sticky bits of C3 sources, and the failures and lockout of the debug port. -/
def keepWarm (k : Nat) : Bool :=
  let pg := keyPage k
  let off := keyOff k
  ((pg == pgCK || pg == pgPW || pg == pgEV) && off != PG_FSTK_FSTK.off) || off == PG_FSTK_FSTK.off ||
    (pg == pgGL && (off == GL_RSTCAUSE_COLD.off || off == GL_RSTCNT_COUNT.off)) ||
    (pg == pgDB && (k == DB_AUTHSTS_CNT.key pgDB 0 || k == DB_AUTHSTS_LOCKOUT.key pgDB 0))

/-- Only the C3 bits of a sticky register are left. -/
def c3Only (k v : Nat) : Nat :=
  if keyOff k == PG_FSTK_FSTK.off then v &&& c3Bits (keyPage k) else v

/-- MAIN and the GL page are reset; what is left of the state of their units is at reset. -/
def Chip.mainReset (c : Chip) : Chip :=
  let regs := ((c.regs.filter fun kv => keepWarm kv.1).map fun kv => (kv.1, c3Only kv.1 kv.2)).filter fun kv =>
    !(kv.2 == 0 && keyOff kv.1 == PG_FSTK_FSTK.off)
  { c with
    regs := regs
    peeks := c.peeks.filter fun kv => kv.1 / 0x1000 == pgPW
    stream := { doneIn := c.stream.doneIn, errIn := c.stream.errIn }
    loader := {}
    scrub := {}
    net := { next := c.net.next }
    eng := { c.eng with lsSync := false, lsFresh := false, lsWords := [], lsOut := [], detPend := [] }
    flt := { failed := regs.any fun kv => keyOff kv.1 == PG_FSTK_FSTK.off }
    ev := { c.ev with i2c := {}, spi := {}, chalBy := 0, authBy := 0 }
    clk := { c.clk with gate := c.clk.gate.filter fun kv => kv.1 == pgCK || kv.1 == pgPW || kv.1 == pgEV || decide (domOf kv.1 < 80) }
    stopping := c.stopping.filter fun pg => pg == pgCK || pg == pgPW || pg == pgEV }

/-- The reset is released (R498, R499). Domains that are not off by now have had their 10 ms and are cut. RESET_N is
high, and VDD_MAIN reads good where it was the cause. -/
def Chip.warmRelease (c : Chip) (dev : BitVec 6) (mode : BitVec 2) (pudc : Bool) : Chip :=
  if c.rst.phase != .warm || c.rst.pin || !c.railGood 1 then c
  else
    let c := c.each (List.range 80) fun c d =>
      if (c.dom d).phase == .off && !(c.dom d).emul then c else c.cut d
    let c := c.mainReset
    let c := { c with pow := { c.pow with dom := [], queue := [], later := [] },
                      rst := { phase := .warm, recordsRead := true, afterWarm := true } }
    let c := (c.count GL_RSTCNT_COUNT pgGL).straps dev mode pudc
    (c.loadProvision.mainRelease).report pgGL 3

/-- GL_RSTCTL is written with WARM = 1 by a master that may (R501). -/
def Chip.warmRequest (c : Chip) (v : Nat) : Chip :=
  if v.testBit 0 then (if bitsOf v 15 8 = 0xA5 then c.warmBegin GL_RSTCAUSE_SOFT false else c.wign pgGL) else c

/-! ## Monitors (17, R464, R467) -/

/-- A monitor is judged good. -/
def Chip.railUp (c : Chip) (n mv : Nat) : Chip := (c.railRises n mv).stepThree

/-- A monitor becomes bad: 0 and 23 are a cold cause, 1 is a warm cause once MAIN has been released, the others act
on the domains that need them (R491, R504; 17, R467). -/
def Chip.railDown (c : Chip) (n mv : Nat) : Chip :=
  if 24 ≤ n ∨ !c.railGood n then c
  else if n = 0 ∨ n = 23 then
    let c := (c.set PW_VMON_MV pgPW mv n).set PW_RAILSTS_GOOD pgPW (setBit (c.get PW_RAILSTS_GOOD pgPW) n false)
    c.powerUp
  else if n = 1 then
    let c := (c.set PW_VMON_MV pgPW mv n).set PW_RAILSTS_GOOD pgPW (setBit (c.get PW_RAILSTS_GOOD pgPW) n false)
    if c.rst.phase == .held || c.rst.phase == .records then c else c.warmBegin GL_RSTCAUSE_MAINSUP true
  else c.railFalls n mv

/-! ## The host watchdog's count (19, R520) -/

/-- The count reaches 0 (19, R520): GL_WDEXP is recorded before MAIN is held. -/
def Chip.wdExpire (c : Chip) : Chip :=
  let c := (((c.report pgGL 5).setB GL_WDSTS_EXP pgGL true).wdLoad)
  if c.get GL_WDCTL_ACTION pgGL = 1 then c.faultDrain.warmBegin GL_RSTCAUSE_WDOG false else c

/-- The count falls to a value at a tick: the warning point and the expiry. -/
def Chip.wdFalls (c : Chip) (n : Nat) : Chip :=
  let c := c.set GL_WDCNT_COUNT pgGL n
  let c := if c.bit GL_WDCTL_WEN pgGL && !c.rst.warned && decide (n ≤ (c.get GL_WDPER_WARN pgGL + 1) * 1000) then
      ({ c with rst := { c.rst with warned := true } }).report pgGL 4
    else c
  if n = 0 then c.wdExpire else c

/-- The watchdog counts. -/
def Chip.wdCounts (c : Chip) : Bool := c.bit GL_WDCTL_EN pgGL && !c.wdHeld && c.rst.mainRel

/-- A tick of the watchdog. -/
def Chip.wdTick (c : Chip) : Chip := if c.wdCounts then c.wdFalls (c.get GL_WDCNT_COUNT pgGL - 1) else c

/-- The count has reached the warning point: time has moved on to it (log entry 9). -/
def Chip.wdWarn (c : Chip) : Chip :=
  if c.wdCounts && c.bit GL_WDCTL_WEN pgGL && !c.rst.warned then
    c.wdFalls (min (c.get GL_WDCNT_COUNT pgGL - 1) ((c.get GL_WDPER_WARN pgGL + 1) * 1000))
  else c

/-- The count has reached 0: time has moved on to it (log entry 9). -/
def Chip.wdZero (c : Chip) : Chip := if c.wdCounts then c.wdFalls 0 else c

end Sys2Proof.Machine
end

