-- ==== Sys2Proof/Machine/Debug.lean ====
section
/-! DEFINITION. The test access port, debug access, run control and freeze (20). -/
namespace Sys2Proof.Machine

/-! ## Authorisation (R528 to R531) -/

/-- The code of a debug port in DB_AUTHSTS.OWNER and in the message M (R528, R529): 0 for any other master. -/
def Who.debugPort : Who → Nat
  | .jtag => 1
  | .host => 2
  | _ => 0

/-- The session owner (R528). -/
def Chip.dbOwner (c : Chip) (w : Who) : Bool := w.debugPort != 0 && c.get DB_AUTHSTS_OWNER pgDB == w.debugPort

/-- The owner at level FULL. -/
def Chip.dbFull (c : Chip) (w : Who) : Bool := c.dbOwner w && c.fullDebug

/-- OWNER returns to none whenever LEVEL is NONE and no challenge is outstanding (R528). -/
def Chip.ownerLook (c : Chip) : Chip :=
  if c.get DB_AUTHSTS_LEVEL pgDB = 0 ∧ !c.bit DB_AUTHSTS_CHAL pgDB then c.set DB_AUTHSTS_OWNER pgDB 0 else c

/-- A group's halt ends (R538): forces are applied, and the deadline monitor re-arms. -/
def Chip.releaseGroup (c : Chip) (g : Nat) : Chip :=
  let x := c.grp g
  if !x.halt.record then c
  else if x.halt.step.isSome then c.setGrp g { x with halt := { x.halt with rel := true } }
  else
    let c := c.setGrp g { x with halt := {}, paced := false, lateDone := false, lastLen := none }
    if x.halt.halted then c.forcesAtStart g else c

/-- Groups are released (R538; 19, R522). -/
def Chip.releaseGroups (c : Chip) (gs : List Nat) : Chip := Chip.wdUnhold c.wdHeld (c.each gs Chip.releaseGroup)

/-- A halted sequencer returns to RUN or WAIT (R541). -/
def Chip.seqRelease (c : Chip) (cl : Nat) : Chip :=
  if c.seqState cl = 4 then
    (c.setSeqState cl (if (c.seqOf cl).inWait then 2 else 1)).setSeq cl { c.seqOf cl with inWait := false }
  else c

/-- LEVEL takes a value (R531): every halt ends when it leaves FULL, every emulated power-off when it becomes NONE. -/
def Chip.setLevel (c : Chip) (l : Nat) : Chip :=
  let old := c.get DB_AUTHSTS_LEVEL pgDB
  let c := c.set DB_AUTHSTS_LEVEL pgDB l
  let c := if old = 2 ∧ l ≠ 2 then
      (c.releaseGroups (List.range 64)).each (List.range 128) fun c cl =>
        (if c.seqOf cl = {} then c else c.setSeq cl { c.seqOf cl with wantHalt := false, stepping := false }).seqRelease cl
    else c
  if l = 0 then c.emulEnds else c

/-- The flash address of the key of a level, and whether it is present (21, Table 21-2). -/
def debugKey (l : Nat) : Nat := if l = 1 then 0x1000 else 0x1020

/-- CHALLENGE (R528, R529). -/
def Chip.dbChallenge (c : Chip) (w : Who) (l : Nat) : Chip :=
  if w.debugPort = 0 ∨ (c.get DB_AUTHSTS_OWNER pgDB ≠ 0 ∧ !c.dbOwner w) then c
  else if c.bit DB_AUTHSTS_LOCKOUT pgDB then c.set DB_AUTHSTS_ERR pgDB 1
  else if l = 0 ∨ l = 3 then c.set DB_AUTHSTS_ERR pgDB 5
  else if !c.keyPresent (debugKey l) then c.set DB_AUTHSTS_ERR pgDB 2
  else
    let (n, c) := c.drawWord
    let c := ((c.set DB_NONCEL_NONCE pgDB (n.toNat % 2 ^ 32)).set DB_NONCEH_NONCE pgDB (n.toNat / 2 ^ 32)).setB DB_AUTHSTS_CHAL pgDB true
    let c := (c.set DB_AUTHSTS_OWNER pgDB w.debugPort).set DB_AUTHSTS_ERR pgDB 0
    { c with rst := { c.rst with askLevel := l } }

/-- VERIFY (R529, R530). -/
def Chip.dbVerify (c : Chip) (w : Who) : Chip :=
  if !c.dbOwner w then c
  else if !c.bit DB_AUTHSTS_CHAL pgDB then c.set DB_AUTHSTS_ERR pgDB 3
  else
    let l := c.rst.askLevel
    let nonce := c.get DB_NONCEL_NONCE pgDB + 2 ^ 32 * c.get DB_NONCEH_NONCE pgDB
    let given := (List.range 4).flatMap fun i => natLe 4 (c.get DB_RESP_RESP pgDB i)
    let ok := given == c.response (debugKey l) nonce l (c.get DB_AUTHSTS_OWNER pgDB)
    let c := ((c.setB DB_AUTHSTS_CHAL pgDB false).set DB_NONCEL_NONCE pgDB 0).set DB_NONCEH_NONCE pgDB 0
    let c := c.each (List.range 4) fun c i => c.set DB_RESP_RESP pgDB 0 i
    let c :=
      if ok then (c.set DB_AUTHSTS_ERR pgDB 0).setLevel l
      else
        let n := min (c.get DB_AUTHSTS_CNT pgDB + 1) 8
        let c := ((c.set DB_AUTHSTS_CNT pgDB n).set DB_AUTHSTS_ERR pgDB 4).report pgDB 0
        if n = 8 then ((c.setB DB_AUTHSTS_LOCKOUT pgDB true).setLevel 0).report pgDB 1 else c
    c.ownerLook

/-- DROP (R531). An outstanding challenge stays, and with it its owner. -/
def Chip.dbDrop (c : Chip) (w : Who) : Chip :=
  if c.dbOwner w then ((c.set DB_AUTHSTS_ERR pgDB 0).setLevel 0).ownerLook else c

/-! ## The debug master (R532 to R534) -/

/-- The registers that level OBSERVE may write: device address and value (Table 20-1). -/
def observeWrites (a v : Nat) : Bool :=
  decide (regBase ≤ a) &&
    (let pg := (a - regBase) / 0x1000
     let off := (a - regBase) % 0x1000
     match pageKind pg with
     | some (.eg, _) =>
       off == EG_OBSCTL_MODE.off || (decide (EG_OBSSEL_EN.off ≤ off) && decide (off < EG_OBSSEL_EN.off + 256))
     | some (.ev, _) => off == EV_RDSEQ_SEQ.off || off == EV_FLADDR_ADDR.off || (off == EV_FLCMD_OP.off && bitsOf v EV_FLCMD_OP.hi EV_FLCMD_OP.lo == 1)
     | _ => false)

/-- A request that the level permits (Table 20-1). -/
def Chip.dbPermits (c : Chip) (op a : Nat) (v : Nat × Nat) (wide : Bool) : Bool :=
  match c.get DB_AUTHSTS_LEVEL pgDB with
  | 2 => true
  | 1 => op == 1 || op == 3 || (op == 4 && observeWrites a v.1 && (!wide || observeWrites (a + 4) v.2))
  | _ => false

/-- A write of DB_CMD by the owner (R532, R533): GO sends one request. -/
def Chip.dbCommand (c : Chip) (w : Who) (v : Nat) : Chip :=
  let go := v.testBit 8
  if !c.dbOwner w then c
  else if go && c.bit DB_CMDSTS_BUSY pgDB then c.wign pgDB
  else
    let c := (c.setB DB_CMD_PEEK pgDB (v.testBit 5)).setB DB_CMD_RSIZE pgDB (v.testBit 4)
    let c := if 1 ≤ v % 16 ∧ v % 16 ≤ 4 then c.set DB_CMD_OP pgDB (v % 16) else c
    let op := c.get DB_CMD_OP pgDB
    let a := c.get DB_ADDRL_ADDR pgDB + 2 ^ 32 * c.get DB_ADDRH_ADDR pgDB
    let d := fun i => c.get DB_DATA_DATA pgDB i
    let wide := v.testBit 4
    if !go then c
    else if !c.accepts pgDB then c.set DB_CMDSTS_ERR pgDB errStopped
    else if op = 0 ∨ !c.dbPermits op a (d 0, d 1) wide then c.set DB_CMDSTS_ERR pgDB errDenied
    else
      let line := BitVec.ofNat 512 ((List.range 16).foldl (fun s i => s + d i * 2 ^ (32 * i)) 0)
      let mask := BitVec.ofNat 64 (c.get DB_WMASKL_MASK pgDB + 2 ^ 32 * c.get DB_WMASKH_MASK pgDB)
      (c.setB DB_CMDSTS_BUSY pgDB true).ask
        { asker := .debug, op := if op = 1 then .read else if op = 2 then .write else if op = 3 then .regrd else .regwr
          addr := a, wide := wide && (op == 3 || op == 4)
          peek := c.get DB_AUTHSTS_LEVEL pgDB == 1 || v.testBit 5
          wdata := BitVec.ofNat 64 (if wide then d 0 + 2 ^ 32 * d 1 else d 0)
          lines := if op = 2 then [{ data := line, mask := mask }] else [] }

/-! ## Run control (R536 to R541) -/

/-- The groups that a 32-bit register names: groups 0 to 31, or 32 to 63. -/
def groupsOf (high : Bool) (bits : Nat) : List Nat := (setBitsOf 32 bits).map (· + if high then 32 else 0)

/-- A write of DB_HALTL or DB_HALTH (R536). -/
def Chip.dbHalt (c : Chip) (w : Who) (high : Bool) (bits : Nat) : Chip :=
  if !c.dbOwner w then c
  else if !c.fullDebug then c.wign pgDB
  else c.each (groupsOf high bits) fun c g =>
    if c.domOn g then c.setGrp g { c.grp g with halt := { (c.grp g).halt with record := true } } else c

/-- A step edge at which the halt of a group takes effect (R536). -/
def Chip.dbHaltEffect (c : Chip) (g : Nat) : Chip := if g < 64 ∧ c.groupUp g ∧ c.stepsRun then c.haltEffect g else c

/-- A write of DB_RELL or DB_RELH (R538). -/
def Chip.dbRelease (c : Chip) (w : Who) (high : Bool) (bits : Nat) : Chip :=
  if !c.dbOwner w then c else if !c.fullDebug then c.wign pgDB else c.releaseGroups (groupsOf high bits)

/-- A write of DB_STEPL or DB_STEPH (R539). -/
def Chip.dbStep (c : Chip) (w : Who) (high : Bool) (bits : Nat) : Chip :=
  if !c.dbOwner w then c
  else if !c.fullDebug then c.wign pgDB
  else c.each (groupsOf high bits) fun c g =>
    let x := c.grp g
    if x.halt.halted && x.halt.step.isNone then
      (c.setGrp g { x with halt := { x.halt with step := some (c.bit DB_CTL_STEPCLS pgDB) } }).forcesAtStart g
    else c.wign pgDB

/-- The clusters that a write of DB_CTL.SEQ names. -/
def seqNamed (sector cluster : Nat) (all : Bool) : List Nat :=
  if all then (List.range 16).map (16 * (sector % 8) + ·) else [16 * (sector % 8) + cluster % 16]

/-- DB_CTL.SEQ = HALT: a running sequencer halts at its next instruction boundary outside a LOCK pair (R541). -/
def Chip.seqDebugHalt (c : Chip) (w : Who) (sector cluster : Nat) (all : Bool) : Chip :=
  if !c.dbFull w then c
  else c.each (seqNamed sector cluster all) fun c cl =>
    let s := c.seqOf cl
    if !c.seqActive cl then c
    else if s.lock || s.stall then c.setSeq cl { s with wantHalt := true }
    else (c.setSeqState cl 4).setSeq cl { s with inWait := c.seqState cl == 2 }

/-- DB_CTL.SEQ = STEP: a halted sequencer issues one instruction or LOCK pair (R541). -/
def Chip.seqDebugStep (c : Chip) (w : Who) (sector cluster : Nat) (all : Bool) : Chip :=
  if !c.dbFull w then c
  else c.each (seqNamed sector cluster all) fun c cl =>
    if c.seqState cl = 4 then (c.seqRelease cl).setSeq cl { (c.seqRelease cl).seqOf cl with stepping := true } else c

/-- DB_CTL.SEQ = RELEASE (R541). -/
def Chip.seqDebugRelease (c : Chip) (w : Who) (sector cluster : Nat) (all : Bool) : Chip :=
  if !c.dbFull w then c else c.each (seqNamed sector cluster all) Chip.seqRelease

/-- A write of DB_CTL by the owner: WDHOLD, PWREMU and STEPCLS, and the sequencer command (R522, R541, R543). -/
def Chip.dbControl (c : Chip) (w : Who) (v : Nat) : Chip :=
  if !c.dbOwner w then c
  else
    let held := c.wdHeld
    let emu := c.bit DB_CTL_PWREMU pgDB
    let c := ((c.setB DB_CTL_STEPCLS pgDB (v.testBit 2)).setB DB_CTL_PWREMU pgDB (v.testBit 1)).setB DB_CTL_WDHOLD pgDB (v.testBit 0)
    let c := Chip.wdUnhold held c
    let c := if emu && !v.testBit 1 then c.emulEnds else c
    let sector := bitsOf v 22 20
    let cluster := bitsOf v 19 16
    if bitsOf v 9 8 = 0 then c
    else if !c.fullDebug then c.wign pgDB
    else if bitsOf v 9 8 = 1 then c.seqDebugHalt w sector cluster (v.testBit 23)
    else if bitsOf v 9 8 = 2 then c.seqDebugRelease w sector cluster (v.testBit 23)
    else c.seqDebugStep w sector cluster (v.testBit 23)

/-! ## Read-out (R548) -/

/-- What a read of DB_FFVAL returns. -/
def Chip.ffReadback (c : Chip) : Nat :=
  let s := c.get DB_FFSEL_SECT pgDB
  let t := 2048 * s + 64 * c.get DB_FFSEL_ROW pgDB + c.get DB_FFSEL_COL pgDB
  if c.get GL_FRZSTS_STATE pgGL = 2 ∧ c.get DB_AUTHSTS_LEVEL pgDB ≠ 0 ∧ c.started s then
    2 ^ 31 + ofBits (fun m => c.fab.now.qOf t m) 16
  else 0

/-! ## Freeze (R544 to R549) -/

/-- Some source requests a freeze (R544). -/
def Chip.freezeAsked (c : Chip) : Bool := c.rst.freezePin || c.bit GL_FRZ_REQ pgGL

/-- FREEZE_N has been low for 1 us, or is high again; it is ignored until READY (R544). -/
def Chip.freezePin (c : Chip) (low : Bool) : Chip :=
  { c with rst := { c.rst with freezePin := low && c.rst.phase == .ready } }

/-- A write of GL_FRZ (R544). -/
def Chip.freezeRequest (c : Chip) (w : Who) (v : Nat) : Chip :=
  if !c.guardian w then c
  else if bitsOf v 31 24 = 0xA5 then c.setB GL_FRZ_REQ pgGL (v.testBit 0)
  else c.wign pgGL

/-- The alignment edge A_F: the freeze begins to drain (R545). -/
def Chip.freezeBegin (c : Chip) : Chip :=
  if c.freezeAsked && c.get GL_FRZSTS_STATE pgGL == 0 then c.set GL_FRZSTS_STATE pgGL 1 else c

/-- Every clock outside the island has stopped (R545, R546): the lanes send electrical idle, and the ports go down
without a fault. -/
def Chip.freezeComplete (c : Chip) : Chip :=
  if c.get GL_FRZSTS_STATE pgGL = 1 then ((c.set GL_FRZSTS_STATE pgGL 2).lanesFall fun _ => true).report pgGL 7 else c

/-- The alignment edge A_T: the frozen clocks restart (R549). A stream that lost words fails (R546), and the power
controller goes on. -/
def Chip.thaw (c : Chip) : Chip :=
  if c.get GL_FRZSTS_STATE pgGL = 2 ∧ !c.freezeAsked then
    let c := c.set GL_FRZSTS_STATE pgGL 0
    let c := c.each (List.range 64) fun c g =>
      c.setGrp g { c.grp g with paced := false, lateDone := false, lastLen := none }
    let c := if c.stream.lostWords then
        ({ c with stream := { c.stream with lostWords := false } }).streamFail 0x0A 0 c.lastSeq
      else c
    c.powerThaw
  else c

/-! ## Test access port (R526, R527; 22, R593) -/

/-- The JTAG identity code (00, Table 0-3). -/
def Stepping.idcode : Stepping → Nat
  | .a0 => 0x2B5120A7
  | .a1 => 0x3B5120A7
  | .b0 => 0x4B5120A7

/-- The values that the boundary cells capture (22, R593): `pins` are the levels of cells 1,440 and up as the board
gives them; those that the device drives follow what it drives. -/
def Chip.boundary (c : Chip) (pins : BitVec 52) : Nat × Chip :=
  let v := c.fab.now
  let rec_ := c.fabVal v fabDepth
  let user := (List.range 480).flatMap fun n =>
    let inp := if c.bankUp n then c.cellLevel v rec_ n else some false
    [inp, c.cellData v rec_ n, c.cellEnable v rec_ n]
  let own := fun (i : Nat) (b : Bool) => (i, b)
  let drives := [own 1475 c.cfgWait, own 1477 (!c.bit CF_STS_DONEREL pgCF), own 1479 c.stream.errDrive,
    own 1488 c.clk.refEn, own 1489 (!c.flt.fltp), own 1490 (!c.flts), own 1491 (!c.pow.therm)]
  let ded := (List.range 52).map fun i =>
    match drives.find? fun d => d.1 == 1440 + i with
    | some d => some d.2
    | none => some (pins.getLsbD i)
  c.takeBits (user ++ ded)

end Sys2Proof.Machine
end

