-- ==== Sys2Proof/Machine/Regs.lean ====
section
/-! DEFINITION. Reads and writes of register pages: what each field reads as, and what a write of each register does
(00, R14 to R20; 01, R31, R41 to R48; the register tables of every chapter). -/
namespace Sys2Proof.Machine

/-! ## Fields at an offset -/

/-- The sub-page of a page: MC and SP pages differ by number (13, 14). -/
def subPage : PageKind → Nat → Nat
  | .mc, n => n % 16
  | .sp, n => n
  | _, _ => 255

/-- The fields of the register at an offset of a page, each with its instance (01, Table 1-6). -/
def fieldsAt (pg off : Nat) : List (Fld × Nat) :=
  match pageKind pg with
  | none => []
  | some (k, n) =>
    (if off < 0x40 then flds_pg else fldsOf k).filterMap fun F =>
      if F.sub != 255 && F.sub != subPage k n then none
      else if off < F.off then none
      else if F.cnt ≤ 1 then (if off = F.off then some (F, 0) else none)
      else if (off - F.off) % F.stride = 0 ∧ (off - F.off) / F.stride < F.cnt then some (F, (off - F.off) / F.stride)
      else none

/-! ## What fields read as -/

/-- The bits of the 64 groups of which a test holds: low or high word. -/
def groupWord (p : Nat → Bool) (high : Bool) : Nat := ofBits (fun i => p (i + if high then 32 else 0)) 32

/-- Fields of the common header (01). -/
def Chip.viewHead (c : Chip) (w : Who) (F : Fld) (pg : Nat) : Option Nat :=
  let d := domOf pg
  if F = PG_VER_LEVEL then some c.stepping.level
  else if F = PG_STS_PWRON then some (b2n (c.domOn d))
  else if F = PG_STS_IDLE then some (b2n (c.pageQuiet pg))
  else if F = PG_STS_RUNNING then some (b2n (c.works pg))
  else if F = PG_PWR_EMUL then some (b2n (w == .debug && decide (d < 80) && (c.dom d).emul && !(c.dom d).ends))
  else if F = PG_PWR_STATE then some (c.domState d)
  else if F = PG_PWR_REQ then some (if d < 80 then (c.dom d).req else 1)
  else none

/-- EG_STEPCLK.LOCKED (02, R77; 16, R451, R455). -/
def Chip.stepLocked (c : Chip) (g : Nat) : Bool :=
  c.domOn g && c.bit PG_CTL_CLKEN (pgEG g) && c.bit CK_LOOPSTS_ENG pgCK &&
    (match (c.grp g).rate with
     | some r => !((c.grp g).waiting && r != c.get EG_STEPCLK_DIV (pgEG g))
     | none => false)

/-- Fields of EG pages that show what a group does (04, 07, 17). -/
def Chip.viewGroup (c : Chip) (F : Fld) (g : Nat) : Option Nat :=
  let x := c.grp g
  let hot := c.hotOf g
  if F = EG_STEPCLK_LOCKED then some (b2n (c.stepLocked g))
  else if F = EG_LAPSTS_WAIT then some (b2n (c.groupUp g && !(c.ready g false).isEmpty && !x.bound.on && !x.halt.halted))
  else if F = EG_LAPCNTL_COUNT then some (x.lapCnt.toNat % 2 ^ 32)
  else if F = EG_OBSVALL_VAL then some (x.snap.toNat % 2 ^ 32)
  else if F = EG_LPCTL_BUSY then some (b2n (c.batchBusy g))
  else if F = EG_TRCSTS_BUSY then some (b2n (c.traceBusy g))
  else if F = EG_ADMSTS_HOT then some (ofInt 10 hot)
  else if F = EG_ADMSTS_HOTSTOP then some (b2n (decide (4 * sgn 8 (c.get EG_ADMTH_TLIM (pgEG g)) ≤ hot)))
  else if F = EG_ADMSTS_DEMAND then some (b2n (c.offered g))
  else none

/-- Fields of GL that show what stands elsewhere (05; 18; 19; 20). -/
def Chip.viewGlobal (c : Chip) (F : Fld) : Option Nat :=
  if F = GL_STRAPS_PUDC then some (b2n c.pin.pudcN)
  else if F = GL_LSCTL_SYNC then some (b2n c.eng.lsSync)
  else if F = GL_WDSTS_HELD then some (b2n c.wdHeld)
  else if F = GL_WDSTS_RUNNING then some (b2n (c.bit GL_WDCTL_EN pgGL && !c.wdHeld))
  else if F = GL_FRZSTS_PIN then some (b2n c.rst.freezePin)
  else if F = GL_FRZSTS_REG then some (c.get GL_FRZ_REQ pgGL)
  else none

/-- Fields of DB (20). -/
def Chip.viewDebug (c : Chip) (F : Fld) : Option Nat :=
  if F = DB_HALTL_HALT then some (groupWord (fun g => (c.grp g).halt.record) false)
  else if F = DB_HALTH_HALT then some (groupWord (fun g => (c.grp g).halt.record) true)
  else if F = DB_RELL_REL then some (groupWord (fun g => (c.grp g).halt.rel) false)
  else if F = DB_RELH_REL then some (groupWord (fun g => (c.grp g).halt.rel) true)
  else if F = DB_STEPL_STEP then some (groupWord (fun g => (c.grp g).halt.step.isSome) false)
  else if F = DB_STEPH_STEP then some (groupWord (fun g => (c.grp g).halt.step.isSome) true)
  else if F = DB_HSTSL_HSTS then some (groupWord (fun g => (c.grp g).halt.halted) false)
  else if F = DB_HSTSH_HSTS then some (groupWord (fun g => (c.grp g).halt.halted) true)
  else if F = DB_AUTHSTS_KEYOBS then some (b2n (c.keyPresent 0x1000))
  else if F = DB_AUTHSTS_KEYFULL then some (b2n (c.keyPresent 0x1020))
  else if F = DB_FFVAL_VALID then some (c.ffReadback / 2 ^ 31)
  else if F = DB_FFVAL_Q then some (c.ffReadback % 2 ^ 16)
  else none

/-- Fields of FC (19). -/
def Chip.viewFault (c : Chip) (F : Fld) (i : Nat) : Option Nat :=
  if F = FC_STS_DEVFAIL then some (b2n c.flt.failed)
  else if F = FC_STS_FLTS then some (b2n c.flts)
  else if F = FC_STS_FLTP then some (b2n c.flt.fltp)
  else if F = FC_TYPESUM_SUM then some c.typeSum
  else if F = FC_EGSUML_SUM then some (c.egSum % 2 ^ 32)
  else if F = FC_EGSUMH_SUM then some (c.egSum / 2 ^ 32)
  else if F = FC_NCSUM_SUM then some (bitsOf c.ncSum (32 * i + 31) (32 * i))
  else none

/-- The levels of the set/reset trees, drivers first; one that cannot be predicted reads as 0 (08, R241). -/
def Chip.gsrLevels (c : Chip) (s : Nat) (drv : Bool) : Nat :=
  ofBits (fun n => ((if drv then c.gsrDrv c.fab.now n else c.gsr c.fab.now s n).getD false)) 4

/-- Fields of the other pages that show what stands elsewhere. -/
def Chip.viewUnit (c : Chip) (F : Fld) (pg i n : Nat) : Option Nat :=
  match F.kind with
  | .ee => if F = EE_SIGL_SIG then some ((Store.get 0 c.eng.sig n).toNat % 2 ^ 32) else none
  | .pw => if F = PW_ENGL_COUNT then some ((Store.get 0 c.pow.energy i).toNat % 2 ^ 32) else none
  | .ev => if F = EV_CLRSTS_KEY then some (b2n (c.keyPresent 0x10C0)) else none
  | .fb =>
    if F = FB_GSRSTS_DRV then some (c.gsrLevels n true)
    else if F = FB_GSRSTS_TREE then some (c.gsrLevels n false) else none
  | .cf =>
    if F = CF_STS_ERRIN then some (b2n (c.stream.errIn || c.stream.errDrive))
    else if F = CF_STS_DONEIN then some (b2n (c.stream.doneIn && c.bit CF_STS_DONEREL pgCF)) else none
  | .ncr =>
    if F = NC_RSTS_HELD then some (b2n (!c.run pg && c.net.packets.any fun p => p.place == n && !p.home)) else none
  | .nci =>
    if F = NC_RTECMD_BUSY then some (b2n (c.routeBusy n))
    else if F = NC_NISTS_LOST then some (c.net.flights.filter fun f => f.ni == n && f.st == .lost).length
    else if F = NC_NISTS_OUTST then some (c.net.flights.filter fun f => f.ni == n && f.tag.isSome).length else none
  | .ml =>
    if F = ML_STS_OUTST then some (c.mem.pmp.filter fun r => r.port == n).length
    else if F = ML_STS_LINKUP then some (b2n (c.memLink n)) else none
  | .mc => if F = MC_CTL_SAVE then some (b2n (c.crypto (n / 16)).saving) else none
  | .hp => if F = HP_LINK_INRESET then some (b2n (c.pin.perst && c.domOn 79)) else none
  | _ => none

/-- The value that a field has for a reader, before the access type is looked at. -/
def Chip.view (c : Chip) (w : Who) (F : Fld) (pg i : Nat) : Option Nat :=
  match pageKind pg with
  | none => none
  | some (_, n) =>
    match F.kind with
    | .pg => c.viewHead w F pg
    | .eg => c.viewGroup F n
    | .gl => c.viewGlobal F
    | .db => c.viewDebug F
    | .fc => c.viewFault F i
    | _ => c.viewUnit F pg i n

/-- What a field reads as: a write-only field and a self-clearing bit whose action has been taken read 0 (00, R18). -/
def Chip.fieldRead (c : Chip) (w : Who) (F : Fld) (pg i : Nat) : Nat :=
  match F.acc, c.view w F pg i with
  | .wo, _ => 0
  | _, some v => v % 2 ^ F.width
  | .w1s, none => 0
  | _, none => c.get F pg i

/-- The value of the register at an offset (00, R15, R16, R18). -/
def Chip.regValue (c : Chip) (w : Who) (pg off : Nat) : Nat :=
  (fieldsAt pg off).foldl (fun a Fi => a + c.fieldRead w Fi.1 pg Fi.2 * 2 ^ Fi.1.lo) 0

/-! ## Reads -/

/-- The high registers that a read of a low register fills, with their values (04, R143; 06, EE_SIGL; 07, R203; 17,
PW_ENGL). -/
def Chip.splitHigh (c : Chip) (pg off : Nat) : List (Fld × Nat × Nat) :=
  match pageKind pg with
  | some (.eg, g) =>
    let x := c.grp g
    if off = EG_LAPCNTL_COUNT.off then [(EG_LAPCNTH_COUNT, 0, x.lapCnt.toNat / 2 ^ 32)]
    else if off = EG_OBSVALL_VAL.off then [(EG_OBSVALH_VAL, 0, x.snap.toNat / 2 ^ 32), (EG_OBSLAP_LAP, 0, x.snapLap.toNat)]
    else []
  | some (.ee, e) => if off = EE_SIGL_SIG.off then [(EE_SIGH_SIG, 0, (Store.get 0 c.eng.sig e).toNat / 2 ^ 32)] else []
  | some (.pw, _) =>
    if PW_ENGL_COUNT.off ≤ off ∧ off < PW_ENGL_COUNT.off + 8 * 82 ∧ off % 8 = 0 then
      [(PW_ENGH_COUNT, (off - PW_ENGL_COUNT.off) / 8, (Store.get 0 c.pow.energy ((off - PW_ENGL_COUNT.off) / 8)).toNat / 2 ^ 32)]
    else []
  | _ => []

/-- A register of the store of peek holding values (20, R534). -/
def Chip.peekOf (c : Chip) (pg off : Nat) : Option Nat :=
  match Store.get 0 c.peeks (pg * 0x1000 + off) with
  | 0 => none
  | v + 1 => some v

/-- What a read with the peek attribute leaves: the high half of a split register in its holding value (20, R534). -/
def Chip.peekNote (c : Chip) (pg off : Nat) : Chip :=
  (c.splitHigh pg off).foldl (fun (c : Chip) h =>
    { c with peeks := Store.put 0 c.peeks (pg * 0x1000 + h.1.off + h.2.1 * h.1.stride) (h.2.2 + 1) }) c

/-- What a read without the peek attribute leaves: read-to-clear fields at their reset value, and high halves copied
(00, R18, R19). A read of LN_RXDROP lets LN_RXOVF be reported again (15, R421). -/
def Chip.readNote (c : Chip) (pg off : Nat) : Chip :=
  let rc := (fieldsAt pg off).filter fun Fi => Fi.1.acc == .rc
  let c := rc.foldl (fun (c : Chip) Fi => c.set Fi.1 pg (Fi.1.resetAt pg Fi.2) Fi.2) c
  let c := (c.splitHigh pg off).foldl (fun (c : Chip) h => c.set h.1 pg h.2.2 h.2.1) c
  match pageKind pg, rc with
  | some (.ln, q), [(F, k)] =>
    if F = LN_RXDROP_COUNT then c.setLane (4 * q + k) { c.laneSt (4 * q + k) with ovf := false } else c
  | _, _ => c

/-- A read of a register: its value and what it leaves (00, R15, R18; 20, R534). The read window of the recorder shows
records (21, R562). -/
def Chip.pageRead (c : Chip) (w : Who) (pg off : Nat) (peek : Bool) : Nat × Chip :=
  if pg = pgEV ∧ 0x800 ≤ off then (c.windowWord off, c.windowNote off)
  else if (fieldsAt pg off).isEmpty then (0, c)
  else if peek then ((c.peekOf pg off).getD (c.regValue w pg off), c.peekNote pg off)
  else (c.regValue w pg off, c.readNote pg off)

/-! ## Writes -/

/-- The value that a field would take is a reserved encoding (00, R17; 01, R53). -/
def Chip.reserved (c : Chip) (F : Fld) (pg i v : Nat) : Bool :=
  if F = EG_STEPCLK_DIV then decide (8 < v)
  else if F = EG_PACE_EDGE then decide (2 < v) || (v == 2 && !c.bit GL_OPTIN_PACEDG pgGL)
  else if F = EG_PACE_OVRPOL then decide (2 < v) || (v == 2 && !c.bit GL_OPTIN_OVRSYNC pgGL)
  else if F = EE_PAIR_ROLE ∨ F = EG_OBSCTL_MODE ∨ F = SC_CTL_UNPOL ∨ F = LN_LPWR_REQ ∨ F = EV_UARTCTL_BAUD then v == 3
  else if F = CF_CTL_SRC then decide (2 ≤ v)
  else if F = MC_KCMD_OP then v == 0 || decide (6 < v)
  else if F = ML_CTL_WAYS then !(v == 0 || v == 1 || v == 3 || v == 7)
  else if F = LN_LCFG_MODE ∨ F = LN_LCFG_OD then decide (5 ≤ v)
  else if F = LN_RXRP_PTR then decide (64 * (c.get LN_RXSIZE_SIZE pg i + 1) ≤ v)
  else if F = LN_TXWP_PTR then decide (64 * (c.get LN_TXSIZE_SIZE pg i + 1) ≤ v)
  else if F = PW_CAP_CAP then decide (v < 199) || decide (1649 < v)
  else if F = PW_TTRIP_TRIP then decide (v < 100) || decide (125 < v)
  else false

/-- One field takes its part of a written value, by its access type (00, R17, R18). `locked` holds while the page's RUN
is 1. -/
def Chip.fieldWrite (c : Chip) (locked : Bool) (pg v : Nat) (Fi : Fld × Nat) : Chip :=
  let F := Fi.1
  let x := bitsOf v F.hi F.lo
  match F.acc with
  | .rw => if c.reserved F pg Fi.2 x then c else c.set F pg x Fi.2
  | .wo => c.set F pg x Fi.2
  | .rwl => if locked then c.wign pg else if c.reserved F pg Fi.2 x then c else c.set F pg x Fi.2
  | .w1c => c.set F pg (c.get F pg Fi.2 &&& (x ^^^ (2 ^ F.width - 1))) Fi.2
  | _ => c

/-- The fields of a register take a written value (00, R18, R20). -/
def Chip.plainWrite (c : Chip) (pg off v : Nat) : Chip :=
  let locked := c.run pg
  (fieldsAt pg off).foldl (fun (c : Chip) Fi => c.fieldWrite locked pg v Fi) c

/-- A register that is written only while something holds: elsewhere the write is dropped, and WIGN is set. -/
def Chip.openWrite (c : Chip) (ok : Bool) (pg off v : Nat) : Chip := if ok then c.plainWrite pg off v else c.wign pg

/-- Fields of a register that keep their values under a write: WIGN is set where the write would have changed one. -/
def Chip.keepWrite (c : Chip) (ok : Bool) (pg v : Nat) (Fs : List Fld) : Chip :=
  let change := Fs.any fun F => bitsOf v F.hi F.lo != c.get F pg
  if ok then Fs.foldl (fun (c : Chip) F => if c.reserved F pg 0 (bitsOf v F.hi F.lo) then c else c.set F pg (bitsOf v F.hi F.lo)) c
  else if change then c.wign pg else c

/-- A write of the common header (01, R41 to R48; 19, R510, R511). -/
def Chip.headWrite (c : Chip) (w : Who) (pg off v : Nat) : Chip :=
  if off = PG_CTL_RUN.off then c.pgCtl pg v
  else if off = PG_STS_WIGN.off then (if v.testBit 2 then c.set PG_STS_WIGN pg 0 else c)
  else if off = PG_FSTK_FSTK.off then c.stickyClear pg v
  else if off = PG_FFRC_FFRC.off then c.faultForce w pg v
  else if off = PG_FCRIT_FCRIT.off then c.set PG_FCRIT_FCRIT pg ((v &&& assignedBits pg) ||| c3Bits pg)
  else if off = PG_FEN_FEN.off then c.set PG_FEN_FEN pg ((v &&& assignedBits pg) ||| c3Bits pg)
  else if off = PG_PWR_REQ.off then c.reqWrite pg (v % 4)
  else c

/-- GL_LSCTL (05, R163, R165, R167): the settings are taken only in OFF and STOPPED; SYNC and STOP act at any time. -/
def Chip.lsControl (c : Chip) (v : Nat) : Chip :=
  let st := c.lsState
  let opened := st == 0 || st == 3
  let c :=
    if opened then
      let c := c.keepWrite true pgGL v [GL_LSCTL_NMEM, GL_LSCTL_MEMBER, GL_LSCTL_MASTER]
      if v.testBit 0 then (if st = 0 then c.lockstepArm else c) else c.lockstepDisarm
    else c.keepWrite false pgGL v [GL_LSCTL_NMEM, GL_LSCTL_MEMBER, GL_LSCTL_MASTER, GL_LSCTL_EN]
  let c := if v.testBit 2 then c.lockstepSync else c
  if v.testBit 3 then c.lockstepStop else c

/-- GL registers (01, 05, 18, 19, 20): the code of the answer, and the device. -/
def Chip.writeGlobal (c : Chip) (w : Who) (off v : Nat) : Nat × Chip :=
  if off = GL_OPTIN_PACEDG.off then
    (0, c.plainWrite pgGL off (match c.stepping with | .a0 => 0 | .a1 => v % 2 | .b0 => v % 4))
  else if off = GL_LSCTL_EN.off then (0, c.lsControl v)
  else if off = GL_LSLINK_LINK.off ∨ off = GL_LSPORTL_PORT.off ∨ off = GL_LSPORTH_PORT.off ∨ off = GL_LSBASE_BASE.off then
    (0, c.openWrite (c.lsState == 0 || c.lsState == 3) pgGL off v)
  else if off = GL_RSTCTL_WARM.off ∨ off = GL_WDCTL_EN.off ∨ off = GL_WDPER_WARN.off ∨ off = GL_WDKICK_KICK.off ∨ off = GL_FRZ_REQ.off then
    if !c.guardian w then (errDenied, c)
    else if off = GL_RSTCTL_WARM.off then (0, c.warmRequest v)
    else if off = GL_WDCTL_EN.off then (0, if bitsOf v 31 24 = 0xA5 then c.wdControl v else c.wign pgGL)
    else if off = GL_WDPER_WARN.off then (0, c.openWrite (!c.bit GL_WDCTL_EN pgGL) pgGL off v)
    else if off = GL_WDKICK_KICK.off then (0, c.wdKick v)
    else (0, c.freezeRequest w v)
  else (0, c.plainWrite pgGL off v)

/-- CK registers (16). -/
def Chip.writeClock (c : Chip) (off v : Nat) : Chip :=
  if CK_FPLL_EN.off ≤ off ∧ off < CK_FPLL_EN.off + 8 then
    c.fpllWrite ((off - CK_FPLL_EN.off) / 4) (v.testBit 31) (v.testBit 16) (v % 256)
  else if CK_FCLK_DIV.off ≤ off ∧ off < CK_FCLK_DIV.off + 32 then
    c.fclkWrite ((off - CK_FCLK_DIV.off) / 4) (bitsOf v 9 8) (v % 256)
  else c.plainWrite pgCK off v

/-- EV registers (21). -/
def Chip.writeRecorder (c : Chip) (w : Who) (off v : Nat) : Nat × Chip :=
  if off = EV_SWCODE_CODE.off then (0, c.softwareRecord w (v % 2 ^ 16))
  else if off = EV_CLRCMD_OP.off then
    (0, match v % 4 with
      | 1 => c.clrChallenge w
      | 2 => c.clrVerify w
      | 3 => c.recorderClear w
      | _ => c)
  else if off = EV_FLCMD_OP.off then
    if !v.testBit 4 then (0, c.set EV_FLCMD_OP pgEV (v % 4))
    else if c.flashMaster w (v % 4) then (0, c.flashGo w (v % 4)) else (errDenied, c)
  else if off = EV_UARTCTL_EN.off then
    let c := if bitsOf v 2 1 = 3 then c else c.set EV_UARTCTL_BAUD pgEV (bitsOf v 2 1)
    (0, if v.testBit 0 then c.uartEnable else c.setB EV_UARTCTL_EN pgEV false)
  else (0, c.plainWrite pgEV off v)

/-- DB_AUTHCMD (20, R528 to R531). -/
def Chip.authCommand (c : Chip) (w : Who) (v : Nat) : Chip :=
  match v % 4 with
  | 1 => c.dbChallenge w (bitsOf v 9 8)
  | 2 => c.dbVerify w
  | 3 => c.dbDrop w
  | _ => c

/-- DB registers: only the session owner writes them, but for a CHALLENGE while there is none (20, R528). -/
def Chip.writeDebug (c : Chip) (w : Who) (off v : Nat) : Nat × Chip :=
  let first := off == DB_AUTHCMD_OP.off && v % 4 == 1 && c.get DB_AUTHSTS_OWNER pgDB == 0 && w.debugPort != 0
  if !c.dbOwner w && !first then (errDenied, c)
  else if off = DB_CTL_SEQ.off then (0, c.dbControl w v)
  else if off = DB_AUTHCMD_OP.off then (0, c.authCommand w v)
  else if off = DB_CMD_OP.off then (0, c.dbCommand w v)
  else if off = DB_HALTL_HALT.off then (0, c.dbHalt w false v)
  else if off = DB_HALTH_HALT.off then (0, c.dbHalt w true v)
  else if off = DB_RELL_REL.off then (0, c.dbRelease w false v)
  else if off = DB_RELH_REL.off then (0, c.dbRelease w true v)
  else if off = DB_STEPL_STEP.off then (0, c.dbStep w false v)
  else if off = DB_STEPH_STEP.off then (0, c.dbStep w true v)
  else if (DB_DATA_DATA.off ≤ off ∧ off < DB_DATA_DATA.off + 64) ∨ off = DB_ADDRL_ADDR.off ∨ off = DB_ADDRH_ADDR.off ∨
      off = DB_WMASKL_MASK.off ∨ off = DB_WMASKH_MASK.off then
    (0, c.openWrite (!c.bit DB_CMDSTS_BUSY pgDB) pgDB off v)
  else (0, c.plainWrite pgDB off v)

/-- CF registers (03, 10). -/
def Chip.writeConfig (c : Chip) (off v : Nat) : Chip :=
  if off = CF_JLCTL_GO.off then
    let c := c.plainWrite pgCF off v
    let c := if v.testBit 2 then c.loaderAbort else c
    if v.testBit 0 then c.loaderGo else c
  else if off = CF_CTL_ABORT.off then
    let c := c.plainWrite pgCF off v
    if v.testBit 8 then c.streamAbort else c
  else if off = CF_SRCCTL_GO.off then
    let c := c.plainWrite pgCF off v
    if v.testBit 0 then c.srcGo else c
  else c.plainWrite pgCF off v

/-- Registers of an NI page (12, R340, R353). -/
def Chip.writeNi (c : Chip) (n off v : Nat) : Chip :=
  let pg := pgNI n
  if off = NC_MODE_RSV.off then
    let c := c.plainWrite pg off v
    if v.testBit 8 then c.freeLost n else c
  else if off = NC_RTECMD_INDEX.off then
    if c.routeBusy n then c.wign pg
    else
      let c := c.plainWrite pg off v
      let c := if v.testBit 8 then c.routeWrite n (v % 256) (v.testBit 10) else c
      if v.testBit 9 then c.routeRead n (v % 256) else c
  else c.plainWrite pg off v

/-- Registers of an SP page (13). -/
def Chip.writeScratch (c : Chip) (p off v : Nat) : Chip :=
  let pg := pgSP p
  if p = 1 ∧ SP_OWN_OWNER.off ≤ off ∧ off < SP_OWN_OWNER.off + 512 then c.bankHandover ((off - SP_OWN_OWNER.off) / 4) v
  else if p = 2 ∧ SP_DMADESCL_ADDR.off ≤ off ∧ off < SP_DMADESCL_ADDR.off + 0x80 then
    let ch := (off - SP_DMADESCL_ADDR.off) / 0x20
    let r := (off - SP_DMADESCL_ADDR.off) % 0x20
    if r < 8 then c.openWrite (c.get SP_DMASTS_STATE pg ch != 1) pg off v
    else
      let c := c.plainWrite pg off v
      if r = 8 ∧ v.testBit 0 then c.dmaGo ch else c
  else c.plainWrite pg off v

/-- A key command of an engine (14, R387, MC_KCMD); one given while another is in progress is dropped. -/
def Chip.keyCommand (c : Chip) (m op slot : Nat) : Chip :=
  let pg := pgMC m 0
  if c.bit MC_KCMD_BUSY pg then c.wign pg
  else match op with
    | 1 => c.keyLoad m slot
    | 2 => c.keyNew m slot
    | 3 => c.keyClear m slot
    | 4 => c.keyTree m
    | 5 => c.keyGroups m false
    | 6 => c.keyGroups m true
    | _ => c

/-- Registers of an MC page (14). -/
def Chip.writeCrypto (c : Chip) (i off v : Nat) : Chip :=
  let m := i / 16
  let pg := pgMC m (i % 16)
  if i % 16 = 0 then
    if off = MC_CTL_SAVE.off then
      let c := c.plainWrite pg off v
      if v.testBit 1 then c.saveGo m none else c
    else if off = MC_KCMD_OP.off then
      let c := c.plainWrite pg off v
      if v.testBit 16 then c.keyCommand m (c.get MC_KCMD_OP pg) (v % 256) else c
    else if off = MC_TREECTL_INIT.off then c.each (setBitsOf 4 v) fun c p => c.treeInit (4 * m + p)
    else if off = MC_RKCTL_GO.off then
      let c := c.plainWrite pg off v
      if v.testBit 8 then c.rekeyGo m (v % 256) else c
    else if MC_PSNA_VALID.off ≤ off ∧ off < MC_PSNA_VALID.off + 0x80 ∧ off % 8 = 0 then
      (if v.testBit 31 then c.poisonClear m ((off - MC_PSNA_VALID.off) / 8) else c)
    else c.plainWrite pg off v
  else if i % 16 = 1 ∧ MC_KSLOT_RIGHTS.off ≤ off ∧ off < MC_KSLOT_RIGHTS.off + 0x400 then
    c.keyRights m ((off - MC_KSLOT_RIGHTS.off) / 4) (v % 2 ^ 16)
  else c.plainWrite pg off v

/-- An enable of a ring is written (15, R419). -/
def Chip.ringWrite (c : Chip) (l : Nat) (tx on : Bool) : Chip :=
  if on then c.ringEnable l tx
  else if c.laneGet (if tx then LN_RINGCTL_TXEN else LN_RINGCTL_RXEN) l = 1 then c.ringDisable l tx else c

/-- Registers of an LN page (15). -/
def Chip.writeLane (c : Chip) (q off v : Nat) : Chip :=
  let pg := pgLN q
  if 0x80 ≤ off ∧ off < 0x100 ∧ off % 0x20 = 0x0C then
    (if v % 4 = 3 then c else c.lanePowerReq (4 * q + (off - 0x80) / 0x20) (v % 4))
  else if 0x100 ≤ off ∧ off < 0x200 then
    let k := (off - 0x100) / 0x40
    let l := 4 * q + k
    let r := (off - 0x100) % 0x40
    if r ≤ 0x08 then c.openWrite (c.laneGet LN_RINGCTL_RXEN l == 0) pg off v
    else if 0x14 ≤ r ∧ r ≤ 0x1C then c.openWrite (c.laneGet LN_RINGCTL_TXEN l == 0) pg off v
    else if r = 0x28 then (c.ringWrite l false (v.testBit 0)).ringWrite l true (v.testBit 1)
    else
      let c := (c.plainWrite pg off v).txPump l 8
      match c.messagePort l with
      | some p => c.portPump p
      | none => c
  else if off = LN_PCTL_EN.off then
    let was := c.bit LN_PCTL_EN pg
    let c := if v.testBit 0 then (if was then c else c.portEnable q) else if was then c.portDisable q else c
    if v.testBit 1 then c.rewiden q else c
  else c.plainWrite pg off v

/-- Registers of the HP page: conventional reset holds them (15, R441, R442). -/
def Chip.writeHost (c : Chip) (off v : Nat) : Chip :=
  if c.pin.perst then c
  else if off = HP_MSIFRCL_FRC.off then c.msixForce false v
  else if off = HP_MSIFRCH_FRC.off then c.msixForce true v
  else (c.plainWrite pgHP off v).msixFlush

/-- A DETACH (06, R185). -/
def Chip.pairDetach (c : Chip) (e : Nat) : Chip := if c.mayDetach e then c.requestDetach e else c.wign (pgEE e)

/-- A REJOIN (06, R187; 11, R322). -/
def Chip.pairRejoin (c : Chip) (e : Nat) : Chip :=
  let pg := pgEE e
  if (c.reloadState != 0 && c.reloadEng == e) || !c.detached e then c.wign pg
  else if c.running (pgEG (e / 8)) then (if c.run pg then c.setB EE_PAIR_JOINPEND pg true else c.wign pg)
  else ((c.setB EE_PAIR_DETACHED pg false).report pg 8).scrubLook

/-- EE_PAIR (06). -/
def Chip.pairWrite (c : Chip) (e v : Nat) : Chip :=
  let pg := pgEE e
  let c := c.plainWrite pg EE_PAIR_ROLE.off v
  if v.testBit 4 && v.testBit 5 then c.wign pg
  else if v.testBit 4 then c.pairDetach e
  else if v.testBit 5 then c.pairRejoin e else c

/-- Registers of an AS page (09, R278). -/
def Chip.writeSlices (c : Chip) (s off v : Nat) : Chip :=
  let pg := pgAS s
  if 0x100 ≤ off ∧ off < 0x200 ∧ off % 0x10 = 0 then
    let j := (off - 0x100) / 0x10
    let was := c.bit AS_SEQCTL_EN pg j
    let c := c.plainWrite pg off v
    if v.testBit 0 && !was then (if c.run pg then c.seqArm (16 * s + j) else c)
    else if !v.testBit 0 && was then c.seqStop (16 * s + j) else c
  else c.plainWrite pg off v

/-- The master may write the observation registers (07, R601). -/
def Chip.mayObserve (c : Chip) (w : Who) : Bool :=
  w == .host || w.mgmt || (w == .debug && c.get DB_AUTHSTS_LEVEL pgDB != 0)

/-- Registers of an EG page (07, R200, R204, R211, R601). -/
def Chip.writeGroup (c : Chip) (w : Who) (g off v : Nat) : Nat × Chip :=
  let pg := pgEG g
  let quiet := !c.bit EG_LPCTL_EN pg && !c.batchBusy g
  let still := !c.bit EG_TRCCTL_EN pg && !c.traceBusy g
  if off = EG_OBSCTL_MODE.off ∨ (EG_OBSSEL_EN.off ≤ off ∧ off < EG_OBSSEL_EN.off + 0x100) then
    if c.mayObserve w then (0, c.plainWrite pg off v) else (errDenied, c)
  else if EG_FRCSEL_EN.off ≤ off ∧ off < EG_FRCSEL_EN.off + 0x40 then
    -- under KIND = 1 ENG and the upper bits of BP are reserved (07)
    if w == .debug && c.fullDebug then (0, c.plainWrite pg off (if v.testBit 28 then v &&& 0xF00003FF else v)) else (errDenied, c)
  else if EG_LPINL_ADDR.off ≤ off ∧ off ≤ EG_LPCNT_COUNT.off then (0, c.openWrite quiet pg off v)
  else if off = EG_LPCTL_EN.off then
    let c := c.keepWrite quiet pg v [EG_LPCTL_KIDX]
    (0, if v.testBit 0 then c.batchEnable g else if c.bit EG_LPCTL_EN pg then c.batchDisable g else c)
  else if off = EG_TRCMASK_IN.off ∨ off = EG_TRCBASEL_ADDR.off ∨ off = EG_TRCBASEH_ADDR.off ∨ off = EG_TRCSIZE_SIZE.off then
    (0, c.openWrite still pg off v)
  else if off = EG_TRCCTL_EN.off then
    let c := c.keepWrite still pg v [EG_TRCCTL_KIDX, EG_TRCCTL_CLASS, EG_TRCCTL_OBS, EG_TRCCTL_WRAP]
    let c := if v.testBit 0 then c.traceEnable g else if c.bit EG_TRCCTL_EN pg then c.traceDisable g else c
    (0, if v.testBit 4 then c.traceFlush g else c)
  else (0, c.plainWrite pg off v)

/-- A write of a register: the code of the answer, and the device. One to an offset that names no register is ignored
(00, R15). -/
def Chip.pageWrite (c : Chip) (w : Who) (pg off v : Nat) : Nat × Chip :=
  if (fieldsAt pg off).isEmpty && (pageKind pg).isSome then (0, c)
  else if off < 0x40 then (0, c.headWrite w pg off v)
  else match pageKind pg with
    | none => (errDecode, c)
    | some (.gl, _) => c.writeGlobal w off v
    | some (.ck, _) => (0, c.writeClock off v)
    | some (.ev, _) => c.writeRecorder w off v
    | some (.db, _) => c.writeDebug w off v
    | some (.fc, _) => (0, if off = FC_ACK_ACK.off then (if v.testBit 0 then c.faultAck else c) else c.plainWrite pg off v)
    | some (.cf, _) => (0, c.writeConfig off v)
    | some (.nci, n) => (0, c.writeNi n off v)
    | some (.sp, p) => (0, c.writeScratch p off v)
    | some (.mc, i) => (0, c.writeCrypto i off v)
    | some (.ln, q) => (0, c.writeLane q off v)
    | some (.hp, _) => (0, c.writeHost off v)
    | some (.fb, _) => (0, (c.plainWrite pg off v).settle)
    | some (.as, s) => (0, c.writeSlices s off v)
    | some (.eg, g) => c.writeGroup w g off v
    | some (.ee, e) => (0, if off = EE_PAIR_ROLE.off then c.pairWrite e v else c.plainWrite pg off v)
    | some _ => (0, c.plainWrite pg off v)

/-! ## The store window (01, R35 to R39, R595, R597, R598) -/

/-- The 32-bit word `i` of an entry of the operand window as stored: LRS, capture window, current bank. The flag says
that its state-file word is uncorrectable (R39, R598). -/
def Chip.stateWord (c : Chip) (e b bank i : Nat) : Nat × Bool :=
  let d := eccDecode (c.bankWord e b bank (i / 2))
  (bitsOf d.data.toNat (32 * (i % 2) + 31) (32 * (i % 2)), d.isBad)

/-- A 32-bit word of a store of the window: its value, and whether it is uncorrectable. -/
def Chip.storeWord (c : Chip) (g : Nat) (s : Store5) (off : Nat) : Nat × Bool :=
  match s with
  | .sched => (0, false)
  | .ctl =>
    let o := off - 0x1800000
    (bitsOf (c.ctlRec (8 * g + o / 0x10000) (o % 0x10000 / 64)).toNat (8 * (o % 64) + 31) (8 * (o % 64)), false)
  | .cmap =>
    let o := off - 0x1900000
    let entry := fun (j : Nat) => (c.mapEntry (8 * g + o / 0x10000) (o % 0x10000 / 0x200) j).toNat
    (entry (o % 0x200 / 2) + 2 ^ 16 * entry (o % 0x200 / 2 + 1), false)
  | .opd =>
    let o := off - 0x1980000
    let e := 8 * g + o / 0x4000
    let b := o % 0x4000 / 0x80
    let i := o % 0x80 / 4
    if i < 16 then (bitsOf (c.bp e b).lrs.toNat (32 * i + 31) (32 * i), false)
    else if i < 24 then (bitsOf (c.bp e b).cap.toNat (32 * (i - 16) + 31) (32 * (i - 16)), false)
    else c.stateWord e b (c.cur e) (i - 24)
  | .state =>
    let o := off - 0x19A0000
    let i := o % 0x40 / 4
    c.stateWord (8 * g + o / 0x2000) (o % 0x2000 / 0x40) (i / 8) (i % 8)

/-- A schedule word of the window: engine, BP and word. -/
def schedAt (g off : Nat) : Nat × Nat × Nat :=
  let o := off - 0x1000000
  (8 * g + o / 0x100000, o % 0x100000 / 0x2000, o % 0x2000 / 8)

/-- A read of the store window of a group (R37, R39, R598): data, code and device. -/
def Chip.storeRead (c : Chip) (g off : Nat) (wide : Bool) : Nat × Nat × Chip :=
  match windowStore off with
  | none => (0, errDecode, c)
  | some .sched =>
    let (e, b, w) := schedAt g off
    let d := eccDecode (c.schedWord e b w)
    (d.data.toNat, if d.isBad then errEcc else 0, c.reportIf d.isBad (pgEG g) 0)
  | some s =>
    let lo := c.storeWord g s off
    let hi := if wide then c.storeWord g s (off + 4) else (0, false)
    (lo.1 + 2 ^ 32 * hi.1, if lo.2 || hi.2 then errEcc else 0, c)

/-- 32 bits of a state-file word are written by a read-modify-write; the flag says that the word was uncorrectable
(R597). -/
def Chip.stateHalf (c : Chip) (e b bank i v : Nat) : Chip × Bool :=
  if (eccDecode (c.bankWord e b bank (i / 2))).isBad then (c, true)
  else ((c.rmwState e b bank (i / 2) fun d =>
    BitVec.ofNat 64 (setBits d.toNat (32 * (i % 2) + 31) (32 * (i % 2)) v)).1, false)

/-- A 32-bit word of a store of the window is written. -/
def Chip.storeHalf (c : Chip) (g : Nat) (s : Store5) (off v : Nat) : Chip × Bool :=
  match s with
  | .sched => (c, false)
  | .ctl =>
    let o := off - 0x1800000
    let e := 8 * g + o / 0x10000
    let i := o % 0x10000 / 64
    (c.setCtl e i (BitVec.ofNat 512 (setBits (c.ctlRec e i).toNat (8 * (o % 64) + 31) (8 * (o % 64)) v)), false)
  | .cmap =>
    let o := off - 0x1900000
    let e := 8 * g + o / 0x10000
    let b := o % 0x10000 / 0x200
    let j := o % 0x200 / 2
    ((c.setMap e b j (BitVec.ofNat 12 v)).setMap e b (j + 1) (BitVec.ofNat 12 (v / 2 ^ 16)), false)
  | .opd =>
    let o := off - 0x1980000
    let e := 8 * g + o / 0x4000
    let b := o % 0x4000 / 0x80
    let i := o % 0x80 / 4
    if i < 16 then (c.setBp e b ((List.range 32).foldl (fun x n => x.putLrs (32 * i + n) (v.testBit n)) (c.bp e b)), false)
    else if i < 24 then (c.setBp e b ((List.range 32).foldl (fun x n => x.putCap (32 * (i - 16) + n) (v.testBit n)) (c.bp e b)), false)
    else (c, false)
  | .state =>
    let o := off - 0x19A0000
    let i := o % 0x40 / 4
    c.stateHalf (8 * g + o / 0x2000) (o % 0x2000 / 0x40) (i / 8) (i % 8) v

/-- The stores of a group do not take writes: it runs, or its image is being loaded or has failed (R38; 03, R107). -/
def Chip.storeLocked (c : Chip) (g : Nat) : Bool :=
  c.run (pgEG g) || !c.pageQuiet (pgEG g) || decide (2 ≤ c.get EG_LDSTS_STATE (pgEG g))

/-- A write to the store window of a group: code and device (R37 to R39, R597; 03, R107, R110). A whole state-file word
is written with new check bits. -/
def Chip.storeWrite (c : Chip) (g off : Nat) (wide : Bool) (v : Nat) : Nat × Chip :=
  match windowStore off with
  | none => (errDecode, c)
  | some s =>
    if c.storeLocked g then (0, c.wign (pgEG g))
    else
      let c := (c.set EG_LDSTS_STATE (pgEG g) 0).scrubLook
      match s with
      | .sched =>
        let (e, b, w) := schedAt g off
        (0, c.setSched e b w (BitVec.ofNat 64 v))
      | .state =>
        if wide then
          let o := off - 0x19A0000
          (0, c.setBank (8 * g + o / 0x2000) (o % 0x2000 / 0x40) (o % 0x40 / 32) (o % 32 / 8) (BitVec.ofNat 64 v))
        else
          let r := c.storeHalf g s off (v % 2 ^ 32)
          (if r.2 then errEcc else 0, r.1)
      | s =>
        let r := c.storeHalf g s off (v % 2 ^ 32)
        let r := if wide then r.1.storeHalf g s (off + 4) (v / 2 ^ 32) else r
        (0, r.1)

end Sys2Proof.Machine
end

