-- ==== Sys2Proof/Machine/Targets.lean ====
section
/-! DEFINITION. What a register access or a request of the network meets at its target: checks 5 and 6, the freeze,
and the access itself (01, R30, R34, R36 to R39, R599; 13, R362; 20, R542, R547). -/
namespace Sys2Proof.Machine

/-- GL_FRZSTS.STATE is DRAIN, or FROZEN (20, R545). -/
def Chip.draining (c : Chip) : Bool := c.get GL_FRZSTS_STATE pgGL == 1
def Chip.frozen (c : Chip) : Bool := c.get GL_FRZSTS_STATE pgGL == 2

/-- A power-off of the domain is emulated (20, R542). -/
def Chip.emulated (c : Chip) (d : Nat) : Bool := decide (d < 80) && (c.dom d).emul

/-- The masters that read a frozen device (20, R547). -/
def Who.reader (w : Who) : Bool := w == .host || w == .debug || w == .jtag || w.mgmt

/-- Checks 5 and 6 of an access to the registers of a page: 0, or the code of the refusal (01, R29, R30, R49, R599;
20, R542, R547; log entry 53). -/
def Chip.pageCode (c : Chip) (w : Who) (pg off : Nat) (write : Bool) : Nat :=
  match pageKind pg with
  | none => errDecode
  | some (k, _) =>
    let stopped := c.frozen && frozenKind k
    if off < 0x40 then
      (if stopped && write && (k == .cf || k == .sc || off == PG_CTL_RUN.off) then errGated else 0)
    else if !c.domOn (domOf pg) then (if !write && w == .debug && c.emulated (domOf pg) then 0 else errPwroff)
    else if stopped then (if write then errGated else 0)
    else if !c.bit PG_CTL_CLKEN pg then errGated else 0

/-- The code with which a register access by a master is refused before it reaches the register; 0 where it is
performed (01, R33, R34, R40). While MAIN is held no access is answered. -/
def Chip.regReach (c : Chip) (w : Who) (pg off : Nat) (write : Bool) : Nat :=
  if !c.collects then errTimeout
  else if (pageKind pg).isNone then errDecode
  else if w == .other || (w == .fabric && !c.bit GL_REGACC_FAB pgGL) then errDenied
  else if off % 4 ≠ 0 then errAlign
  else c.pageCode w pg off write

/-- A read of a frozen device, or of a domain whose power-off is emulated, is a peek (20, R534, R542). -/
def Chip.peeks_ (c : Chip) (pg : Nat) (peek : Bool) : Bool := peek || c.frozen || !c.domOn (domOf pg)

/-- A register read by a master: data, code and device. -/
def Chip.readReg (c : Chip) (w : Who) (pg off : Nat) (peek : Bool) : Nat × Nat × Chip :=
  let code := c.regReach w pg off false
  if code ≠ 0 then (0, code, c)
  else
    let r := c.pageRead w pg off (c.peeks_ pg peek)
    (r.1, 0, r.2)

/-- A register write by a master: code and device. -/
def Chip.writeReg (c : Chip) (w : Who) (pg off v : Nat) : Nat × Chip :=
  let code := c.regReach w pg off true
  if code ≠ 0 then (code, c) else c.pageWrite w pg off v

/-! ## Requests that have arrived (12, R347, R348) -/

/-- The domain of the bridge at which a request has arrived. -/
def Arrived.dom (a : Arrived) : Nat := (((bridgeInfo a.dstNi a.bridge).map Prod.fst)).getD 0xFE

/-- The scratchpad banks that a request touches. -/
def Arrived.banks (a : Arrived) : List Nat :=
  if regionOf a.req.addr == some .sp then (blocksOf 0x40000 a.req.addr (64 * a.req.len)).map fun x => (x - spBase) / 0x40000
  else []

/-- A request waits in a bank that is being cleared (13, R362). -/
def Chip.waitsInBank (c : Chip) (a : Arrived) : Bool := a.banks.any c.spBusy

/-- An earlier request of the same bridge and channel goes first (12, R347). One that waits in a bank holds up requests to
that bank alone. -/
def Chip.heldUp (c : Chip) (i : Nat) (a : Arrived) : Bool :=
  (c.net.arrived.take i).any fun q =>
    q.dstNi == a.dstNi && q.bridge == a.bridge && q.vc == a.vc && !q.done &&
      (!c.waitsInBank q || q.banks.any fun b => a.banks.contains b)

/-- What a target does with a request: it is refused with a code, waits, is performed, or is read by the read-out path. -/
inductive Meets where
  | refused (code : Nat)
  | waits
  | served
  | readOut
  deriving DecidableEq, Repr

/-- What a request to a store or window meets (01, R30, R599; 20, R542, R547). `pgs` are the pages whose CLKEN governs it,
`ext` holds for external memory. -/
def Chip.meets (c : Chip) (a : Arrived) (pgs : List Nat) (ext : Bool) : Meets :=
  let write := a.req.op == .write || a.req.op == .regwr
  let w := a.req.asker.who
  if !c.domOn a.dom then
    (if !write && !ext && w == .debug && c.emulated a.dom then .readOut else .refused errPwroff)
  else if c.draining then .waits
  else if c.frozen then
    (if !w.reader then .waits else if write || ext then .refused errGated else .readOut)
  else if pgs.any fun p => !c.bit PG_CTL_CLKEN p then .refused errGated
  else .served

/-- A request is answered with data; a SPEC read gets its LATE as well (12, R352). -/
def Chip.answer (c : Chip) (a : Arrived) (codes : List Nat) (data : List (BitVec 512)) (rdata : Nat := 0) : Chip :=
  let c := c.reply a codes data (BitVec.ofNat 64 rdata)
  if a.req.op == .read && a.req.spec && codes.any (· == 0) then c.sendLate a (codes.map fun _ => 0) else c

/-- A request is being performed, and its answer waits. -/
def Chip.mark (c : Chip) (a : Arrived) (after : List Nat := []) : Chip :=
  { c with net := { c.net with arrived := c.net.arrived.map fun (x : Arrived) =>
    if x.ni == a.ni && x.tag == a.tag && x.dstNi == a.dstNi then { x with done := true, after := after } else x } }

/-! ## Scratchpad lines (13, R362, R365, R366) -/

/-- The lines of a scratchpad read: codes and data in line order. -/
def Chip.bankReads (c : Chip) (first n : Nat) : List Nat × List (BitVec 512) × Chip :=
  (List.range n).foldl (fun (s : List Nat × List (BitVec 512) × Chip) i =>
    let r := s.2.2.spRead (first + i)
    (s.1 ++ [r.2.1], s.2.1 ++ [if r.2.1 = 0 then r.1 else 0], r.2.2)) ([], [], c)

/-- The lines of a scratchpad write: a poisoned line is not written (12, R357). -/
def Chip.bankWrites (c : Chip) (first : Nat) (ls : List Line) (bad : List Nat) : List Nat × Chip :=
  ls.zipIdx.foldl (fun (s : List Nat × Chip) li =>
    if bad.contains li.2 then (s.1 ++ [errEcc], s.2)
    else
      let r := s.2.spWrite (first + li.2) li.1.data li.1.mask
      (s.1 ++ [r.1], r.2)) ([], c)

/-- A request reaches the scratchpad. -/
def Chip.bankRequest (c : Chip) (a : Arrived) : Chip :=
  let first := (a.req.addr - spBase) / 64
  match c.meets a [pgSP 0] false with
  | .refused code => c.refuse a code
  | .waits => c
  | .readOut =>
    let r := c.bankReads first a.req.len
    c.answer a r.1 r.2.1
  | .served =>
    let code := c.spServe a.banks
    if code ≠ 0 then c.refuse a code
    else if c.waitsInBank a then c
    else if a.req.op == .read then
      let r := c.bankReads first a.req.len
      (if a.req.peek then c else r.2.2).answer a r.1 r.2.1
    else
      let r := c.bankWrites first a.req.lines a.bad
      r.2.answer a r.1 []

/-! ## Block RAM windows (09, R263, R264) -/

/-- The block RAM and the first line in its window that a request addresses. -/
def Arrived.ram (a : Arrived) : Nat × Nat := ((a.req.addr - bramBase) / 0x2000, (a.req.addr - bramBase) % 0x2000 / 64)

/-- The block RAMs of a sector answer window accesses: the BR page runs. -/
def Chip.windowOpen (c : Chip) (s : Nat) : Bool := c.accepts (pgBR s) && c.works (pgBR s)

/-- A request reaches a block RAM window: the lines wait for edges of port B. -/
def Chip.windowRequest (c : Chip) (a : Arrived) : Chip :=
  let (n, line) := a.ram
  match c.meets a [pgBR (n / 256)] false with
  | .refused code => c.refuse a code
  | .waits => c
  | .readOut => c.answer a (List.replicate a.req.len 0) ((List.range a.req.len).map fun i => c.windowRead n (line + i))
  | .served => if c.windowOpen (n / 256) then c.mark a else c.refuse a errStopped

/-- The next line of a window request is answered. -/
def Chip.windowLine (c : Chip) (a : Arrived) (code : Nat) (data : BitVec 512) : Chip :=
  c.lineDone a.dstNi a.ni a.tag a.codes.length code data 0

/-- An edge of port B serves the next line of a window request. -/
def Chip.windowAccess (c : Chip) (i : Nat) (same : Bool) : Chip :=
  match c.net.arrived[i]? with
  | none => c
  | some a =>
    let (n, line) := a.ram
    let l := line + a.codes.length
    if !a.done || regionOf a.req.addr != some .bram || c.draining || c.frozen then c
    else if !c.windowOpen (n / 256) then c.windowLine a errStopped 0
    else
      match (c.edgeBegins same).windowEdge n with
      | (none, _) => c
      | (some lost, d) =>
        let d := { d with fab := { d.fab with taken := d.fab.taken ++ [n] } }
        let d := if lost then d.setB BR_STS_PBLOST (pgBR (n / 256)) true else d
        if a.req.op == .read then d.windowLine a 0 (d.windowRead n l)
        else if a.bad.contains a.codes.length then d.windowLine a errEcc 0
        else match a.req.lines[a.codes.length]? with
          | none => d.windowLine a 0 0
          | some x =>
            let r := d.windowWrite n l x.data x.mask
            r.1.windowLine a (if r.2 then errEcc else 0) 0

/-- No edge of port B has come within 1 us: the access is answered with ERR_GATED. -/
def Chip.windowTimeout (c : Chip) (i : Nat) : Chip :=
  match c.net.arrived[i]? with
  | none => c
  | some a =>
    if a.done && regionOf a.req.addr == some .bram && !c.draining && !c.frozen then c.windowLine a errGated 0 else c

/-! ## External memory (14) -/

/-- A request reaches a memory port. -/
def Chip.portRequest (c : Chip) (a : Arrived) : Chip :=
  match c.meets a (governors a) true with
  | .refused code => c.refuse a code
  | .served => c.memRequest a
  | _ => c

/-! ## Registers and store window (01, R35 to R39; 13, R362) -/

/-- A part admitted under the old owner of a bank has not been completed by the bank. -/
def Chip.atBank (c : Chip) (f : Flight) : Bool :=
  f.st == .waiting || f.st == .announced || f.st == .granted ||
    (c.net.packets.any fun p => p.pt == .req && p.ni == f.ni && some p.tag == f.tag) ||
    (c.net.arrived.any fun a => a.ni == f.ni && some a.tag == f.tag)

/-- The parts under way to a bank. -/
def Chip.partsAt (c : Chip) (b : Nat) : List Nat :=
  (c.net.flights.filter fun f =>
    (f.req.op == .read || f.req.op == .write) && c.atBank f && regionOf f.req.addr == some .sp &&
      (blocksOf 0x40000 f.req.addr (64 * f.req.len)).any fun x => (x - spBase) / 0x40000 == b).map (·.id)

/-- Ownership writes whose old owner's requests are complete are answered (13, R362). -/
def Chip.ownersLook (c : Chip) : Chip :=
  let left := fun (id : Nat) => match c.net.flights.find? fun f => f.id == id with
    | some f => c.atBank f
    | none => false
  (c.net.arrived.filter fun a => a.done && a.req.op == .regwr && !a.after.any left).foldl
    (fun (c : Chip) a => c.answer a [0] []) c

/-- The group whose stores a request to the store window addresses. -/
def Arrived.group (a : Arrived) : Nat := 8 * ((a.dstNi - 32) / 2) + 4 * (a.dstNi % 2) + a.bridge

/-- A request reaches the store window. -/
def Chip.storeRequest (c : Chip) (a : Arrived) : Chip :=
  let g := a.group
  let off := a.req.addr - regBase
  match c.meets a [pgEG g] false with
  | .refused code => c.refuse a code
  | .waits => c
  | .readOut =>
    let r := c.storeRead g off a.req.wide
    c.answer a [r.2.1] [] r.1
  | .served =>
    if a.req.op == .regrd then
      let r := c.storeRead g off a.req.wide
      (if a.req.peek then c else r.2.2).answer a [r.2.1] [] r.1
    else
      let r := c.storeWrite g off a.req.wide a.req.wdata.toNat
      r.2.answer a [r.1] []

/-- A request reaches a register page. -/
def Chip.pageRequest (c : Chip) (a : Arrived) : Chip :=
  let w := a.req.asker.who
  let pg := (a.req.addr - regBase) / 0x1000
  let off := (a.req.addr - regBase) % 0x1000
  let write := a.req.op == .regwr
  let still := 0x40 ≤ off && (match pageKind pg with | some (k, _) => frozenKind k | none => false) && c.domOn (domOf pg)
  if still && (c.draining || (c.frozen && !w.reader)) then c
  else
    let code := c.pageCode w pg off write
    if code ≠ 0 then c.refuse a code
    else if !write then
      let r := c.pageRead w pg off (c.peeks_ pg a.req.peek)
      r.2.answer a [0] [] r.1
    else if pg = pgSP 1 ∧ SP_OWN_OWNER.off ≤ off ∧ off < SP_OWN_OWNER.off + 512 then
      let old := c.partsAt ((off - SP_OWN_OWNER.off) / 4)
      (((c.pageWrite w pg off (a.req.wdata.toNat % 2 ^ 32)).2).mark a old).ownersLook
    else
      let r := c.pageWrite w pg off (a.req.wdata.toNat % 2 ^ 32)
      r.2.answer a [r.1] []

/-- A request of an operation that has arrived at place `i` of its NI's buffers is performed. -/
def Chip.perform (c : Chip) (op : Op) (i : Nat) : Chip :=
  match c.net.arrived[i]? with
  | none => c
  | some a =>
    if a.req.op != op || a.done || c.heldUp i a then c
    else if a.poison then c.refuse a errEcc
    else
      (match regionOf a.req.addr with
       | some .sp => c.bankRequest a
       | some .bram => c.windowRequest a
       | some .ext => c.portRequest a
       | _ => if (windowStore (a.req.addr - regBase)).isSome then c.storeRequest a else c.pageRequest a).ownersLook

end Sys2Proof.Machine
end

