-- ==== Sys2Proof/Machine/Edges.lean ====
section
/-! DEFINITION. Edges at which the engine array meets the fabric: the inputs that a lap takes, and the fences that an
output update or a start drops (04, R113, R133; 07, R212; 10, R303). -/
namespace Sys2Proof.Machine

/-- The input phase of a lap takes what the fabric presents (04, R113). -/
def Chip.lapTakes (c : Chip) (g : Nat) (loose : Bool) : Chip :=
  let l := c.lap g loose
  if l.on && l.phase == .started then
    let r := c.groupIn g
    r.2.lapInput g loose r.1
  else c

/-- The capture of an overrunning pace event takes what the fabric presents (04, R133). -/
def Chip.resyncTake (c : Chip) (g : Nat) : Chip :=
  if (c.grp g).resync then
    let r := c.groupIn g
    r.2.resyncCapture g r.1
  else c

/-- The output phase of a lap; the first update of the output register after a start drops the group's fence (10,
R303). -/
def Chip.lapOutputs (c : Chip) (g : Nat) (loose : Bool) : Chip :=
  let d := c.lapOutput g loose
  if !loose && (c.lap g false).phase == .decided && (d.lap g false).phase == .output && d.groupFenced g then d.dropGroup g else d

/-- The alignment edge of a waiting group; a group in which no bound engine has RUN = 1 drops its fence as it starts
(10, R303). -/
def Chip.groupStarts (c : Chip) (g : Nat) : Chip :=
  let d := c.groupStart g
  if !c.running (pgEG g) && d.running (pgEG g) && (d.runners g).all d.isLoose && d.groupFenced g then
    d.dropGroup g
  else d

/-- A partly filled flit of a trace has been held for 4,096 step periods (07, R212). -/
def Chip.traceOld (c : Chip) (g : Nat) : Chip := if c.stepsRun then c.traceFlush g else c

end Sys2Proof.Machine
end

