-- ==== Sys2Proof/Machine/State.lean ====
section
/-! DEFINITION. The state of the machine: the device, its test access port, the answer to the last register access, and
the queue of the commands that wait. -/
namespace Sys2Proof.Machine

/-- What the machine holds. -/
structure State where
  chip : Chip
  tap : TapSt
  /-- data of the last register read that a command made directly -/
  rdata : BitVec 32
  /-- code of the last register access that a command made directly; 0 for success (12, Table 12-7) -/
  code : Nat
  /-- the commands that wait, first in, first out: the model's own -/
  pending : List Instr
  deriving DecidableEq, Repr

/-- Reasons for a stop with a fault. There is none: what the spec refuses, it answers with a code. -/
inductive Fault where
  deriving DecidableEq, Repr

/-- Reasons for a refusal. -/
inductive Refusal where
  /-- a command that has no meaning yet: raised by an arm of the dispatch alone; safe -/
  | notModelled (mnemonic : String)
  deriving DecidableEq, Repr

/-- The state in which power is applied: AON is held in reset until monitors 0 and 23 read good (18, R491, R492). Nothing
of it is loaded: the flash is erased (log entry 7). -/
def State.reset : State := { chip := {}, tap := {}, rdata := 0, code := 0, pending := [] }

end Sys2Proof.Machine
end

