-- ==== Sys2Proof/Machine/Operands.lean ====
section
/-! DEFINITION. How a command's operands reach the device: an event, a register access by a master, the tick. -/
namespace Sys2Proof.Machine

/-- An event acts on the device. -/
def State.go (s : State) (f : Chip → Chip) : Host.Outcome State Fault Refusal := .next { s with chip := f s.chip }

/-- A register write by a master is performed where the register can be reached; its code is the answer (01, R34). -/
def State.through (s : State) (w : Who) (pg off : Nat) (f : Chip → Nat × Chip) : Host.Outcome State Fault Refusal :=
  if s.chip.regReach w pg off true = 0 then .next { s with chip := (f s.chip).2, code := (f s.chip).1 }
  else .next { s with code := s.chip.regReach w pg off true }

/-- A register write by a master. -/
def State.writes (s : State) (w : Who) (pg off v : Nat) : State :=
  { s with chip := (s.chip.writeReg w pg off v).2, code := (s.chip.writeReg w pg off v).1 }

/-- A register read by a master. -/
def State.reads (s : State) (w : Who) (pg off : Nat) (peek : Bool) : State :=
  { s with chip := (s.chip.readReg w pg off peek).2.2, code := (s.chip.readReg w pg off peek).2.1,
           rdata := BitVec.ofNat 32 (s.chip.readReg w pg off peek).1 }

/-- A monitor becomes bad; the loss of VDD_AON or VDD_AUX takes the test access port with it (18, R491; 20, R526). -/
def State.railBad (s : State) (n mv : Nat) : State :=
  { s with chip := Chip.wdUnhold s.chip.wdHeld (s.chip.railDown n mv),
           tap := if (n = 0 ∨ n = 23) ∧ s.chip.railGood n then {} else s.tap }

/-- AON begins the cold start; its power-up resets the test access port (20, R526). -/
def State.coldStart (s : State) (dev : BitVec 6) (mode : BitVec 2) (pudc : Bool) : State :=
  { s with chip := s.chip.coldStart dev mode pudc, tap := if s.chip.rst.phase == .held then {} else s.tap }

/-- A microsecond passes: the recorder's time and the host watchdog count (16, R457; 19, R520; log entry 10). -/
def State.tick (s : State) : State := { s with chip := s.chip.tickTime.wdTick }

end Sys2Proof.Machine
end

