-- ==== Sys2Proof/Machine/CmdArithmetic.lean ====
section
/-! DEFINITION. Block RAMs, slices and sequencers (09). -/
namespace Sys2Proof.Machine

/-- An edge of the clock of port A or, with `b`, port B of a block RAM (09, R259 to R262). -/
def execBramPortAccess (n : Fin 2048) (b : Bool) (same : Bool) (s : State) : Host.Outcome State Fault Refusal :=
  s.go fun c => c.bramEdge n.val b same

/-- A port B edge serves the next line of the window request at place i (09, R263, R264). -/
def execBramWindowAccess (i : Nat) (same : Bool) (s : State) : Host.Outcome State Fault Refusal :=
  s.go fun c => c.windowAccess i same

/-- No usable port B edge came within 1 us (09, R263). -/
def execBramWindowTimeout (i : Nat) (s : State) : Host.Outcome State Fault Refusal :=
  s.go fun c => c.windowTimeout i

/-- An edge at which a slice samples HOLD (09, R265 to R269). -/
def execSliceHold (n : Fin 2048) (same : Bool) (s : State) : Host.Outcome State Fault Refusal :=
  s.go fun c => c.sliceEdge 0 n.val same

/-- An edge at which a slice samples LOAD (09, R265 to R269). -/
def execSliceLoad (n : Fin 2048) (same : Bool) (s : State) : Host.Outcome State Fault Refusal :=
  s.go fun c => c.sliceEdge 1 n.val same

/-- An edge at which a slice samples ACCUM (09, R265 to R269). -/
def execSliceAccum (n : Fin 2048) (same : Bool) (s : State) : Host.Outcome State Fault Refusal :=
  s.go fun c => c.sliceEdge 2 n.val same

/-- An edge at which a slice samples CASC (09, R265 to R269). -/
def execSliceCasc (n : Fin 2048) (same : Bool) (s : State) : Host.Outcome State Fault Refusal :=
  s.go fun c => c.sliceEdge 3 n.val same

/-- An edge at which a slice samples CLEAR (09, R265 to R269). -/
def execSliceClear (n : Fin 2048) (same : Bool) (s : State) : Host.Outcome State Fault Refusal :=
  s.go fun c => c.sliceEdge 4 n.val same

/-- An edge at which a slice samples LOADY (09, R265 to R269). -/
def execSliceLoady (n : Fin 2048) (same : Bool) (s : State) : Host.Outcome State Fault Refusal :=
  s.go fun c => c.sliceEdge 5 n.val same

/-- An edge at which a slice samples ADDY (09, R265 to R269). -/
def execSliceAddy (n : Fin 2048) (same : Bool) (s : State) : Host.Outcome State Fault Refusal :=
  s.go fun c => c.sliceEdge 6 n.val same

/-- The start of a sequencer (09, R278). -/
def execSeqEnable (q : Fin 128) (s : State) : Host.Outcome State Fault Refusal :=
  s.go fun c => c.seqEnable q.val

/-- A sequencer issues NOP (09, R272 to R276). -/
def execSeqNop (q : Fin 128) (same : Bool) (s : State) : Host.Outcome State Fault Refusal :=
  s.go fun c => c.seqNop q.val same

/-- A sequencer issues SLICE (09, R272 to R276). -/
def execSeqSlice (q : Fin 128) (same : Bool) (s : State) : Host.Outcome State Fault Refusal :=
  s.go fun c => c.seqSlice q.val same

/-- A sequencer issues LOOP (09, R272 to R276). -/
def execSeqLoop (q : Fin 128) (same : Bool) (s : State) : Host.Outcome State Fault Refusal :=
  s.go fun c => c.seqLoop q.val same

/-- A sequencer issues JUMP (09, R272 to R276). -/
def execSeqJump (q : Fin 128) (same : Bool) (s : State) : Host.Outcome State Fault Refusal :=
  s.go fun c => c.seqJump q.val same

/-- A sequencer issues SETAR (09, R272 to R276). -/
def execSeqSetar (q : Fin 128) (same : Bool) (s : State) : Host.Outcome State Fault Refusal :=
  s.go fun c => c.seqSetar q.val same

/-- A sequencer issues WAIT (09, R272 to R276). -/
def execSeqWait (q : Fin 128) (same : Bool) (s : State) : Host.Outcome State Fault Refusal :=
  s.go fun c => c.seqWait q.val same

/-- A sequencer issues BSCALE (09, R272 to R276). -/
def execSeqBscale (q : Fin 128) (same : Bool) (s : State) : Host.Outcome State Fault Refusal :=
  s.go fun c => c.seqBscale q.val same

/-- A sequencer issues HALT (09, R272 to R276). -/
def execSeqHalt (q : Fin 128) (same : Bool) (s : State) : Host.Outcome State Fault Refusal :=
  s.go fun c => c.seqHalt q.val same

/-- A sequencer issues SETK (09, R272 to R276). -/
def execSeqSetk (q : Fin 128) (same : Bool) (s : State) : Host.Outcome State Fault Refusal :=
  s.go fun c => c.seqSetk q.val same

/-- The next instruction of a sequencer is illegal (09, R277). -/
def execSeqIllegal (q : Fin 128) (same : Bool) (s : State) : Host.Outcome State Fault Refusal :=
  s.go fun c => c.seqFault q.val same

end Sys2Proof.Machine
end

