-- ==== Sys2Proof/Machine/CmdClocks.lean ====
section
/-! DEFINITION. Clocks (16). -/
namespace Sys2Proof.Machine

/-- The main-path delay count ends, with the REFCLK edges of its last 16 MON cycles (16, R448). -/
def execRefclkQualifyCount (edges : Nat) (s : State) : Host.Outcome State Fault Refusal :=
  s.go fun c => c.refCount edges

/-- A window of 4,096 MON cycles ends with a count of REFCLK edges (16, R449, R454, R456). -/
def execRefclkWindow (count : Nat) (s : State) : Host.Outcome State Fault Refusal :=
  s.go fun c => c.refWindow count

/-- A loop locks: engine, network, fabric 0 and 1, host port (16, R451, R456). -/
def execLoopLock (l : Fin 5) (s : State) : Host.Outcome State Fault Refusal :=
  s.go fun c => c.loopLock l.val

/-- A write of CK_FPLLm with EN = 1 (16, R451, R452). -/
def execFpllEnable (w : Who) (m : Fin 2) (v : BitVec 32) (s : State) : Host.Outcome State Fault Refusal :=
  s.through w pgCK (CK_FPLL_EN.off + CK_FPLL_EN.stride * m.val) fun c => (0, c.writeClock (CK_FPLL_EN.off + 4 * m.val) (setBit v.toNat 31 true))

/-- A fabric loop loses lock (16, R452). -/
def execFpllLockLoss (m : Fin 2) (s : State) : Host.Outcome State Fault Refusal :=
  s.go fun c => c.fpllLoss m.val

/-- A write to CK_FCLKn (16, R453, R458). -/
def execFclkSwitch (w : Who) (n : Fin 8) (v : BitVec 32) (s : State) : Host.Outcome State Fault Refusal :=
  s.through w pgCK (CK_FCLK_DIV.off + CK_FCLK_DIV.stride * n.val) fun c => (0, c.writeClock (CK_FCLK_DIV.off + 4 * n.val) v.toNat)

/-- The old clock of a switch gives no edge (16, R459). -/
def execClockSwitchTimeout (n : Fin 9) (s : State) : Host.Outcome State Fault Refusal :=
  s.go fun c => c.switchTimeout n.val

/-- A block answers the idle handshake (16, R460, R600). -/
def execGateHandshake (pg : Nat) (s : State) : Host.Outcome State Fault Refusal :=
  s.go fun c => c.gateShake pg

/-- No handshake came in time (16, R460). -/
def execGateHandshakeTimeout (pg : Nat) (s : State) : Host.Outcome State Fault Refusal :=
  s.go fun c => c.gateForce pg

/-- A clock switch completes: FCLK0 to FCLK7, or MAIN (16, R453, R458). -/
def execClockSwitchDone (n : Fin 9) (s : State) : Host.Outcome State Fault Refusal :=
  s.go fun c => c.switchDone n.val

/-- REFCLK has not been qualified in time (16, R449). -/
def execRefclkWaitTimeout (s : State) : Host.Outcome State Fault Refusal :=
  s.go fun c => c.refTimeout

/-- A loss of REFCLK is detected (16, R454, R455). -/
def execRefclkLoss (s : State) : Host.Outcome State Fault Refusal :=
  s.go fun c => c.refLoss

end Sys2Proof.Machine
end

