-- ==== Sys2Proof/Machine/Tap.lean ====
section
/-! DEFINITION. The test access port (20, R526, R527; 22, R593). -/
namespace Sys2Proof.Machine

/-- The test access port has power: AON is not held in reset. -/
def State.tapLive (s : State) : Bool := s.chip.rst.phase != .held

/-- An instruction is selected; the boundary register takes the pins as `scan` says. -/
def State.tapSelect (s : State) (code : BitVec 6) (scan : Nat) (dr : BitVec 1492) : State :=
  if s.tapLive then
    { s with tap := { s.tap with ir := code, dr := dr }, chip := { s.chip with pin := { s.chip.pin with scan := scan } } }
  else s

/-- TRST_N: Test-Logic-Reset selects IDCODE, and the boundary register leaves the pins alone. -/
def State.tapReset (s : State) : State := s.tapSelect 0x01 0 (BitVec.ofNat 1492 s.chip.stepping.idcode)

/-- IDCODE. -/
def State.tapIdcode (s : State) : State := s.tapSelect 0x01 0 (BitVec.ofNat 1492 s.chip.stepping.idcode)

/-- The boundary register captures the pins. -/
def State.capture (s : State) (pins : BitVec 52) : State :=
  if s.tapLive then
    let r := s.chip.boundary pins
    { s with tap := { s.tap with dr := BitVec.ofNat 1492 r.1 }, chip := r.2 }
  else s

/-- EXTEST: the boundary register drives the pins, and captures them. -/
def State.tapExtest (s : State) (pins : BitVec 52) : State := (s.tapSelect 0x00 1 0).capture pins

/-- SAMPLE/PRELOAD: the boundary register captures the pins, and its cells take what is shifted in. -/
def State.tapSample (s : State) (cells : BitVec 1492) (pins : BitVec 52) : State :=
  let s := (s.tapSelect 0x02 0 0).capture pins
  if s.tapLive then { s with chip := { s.chip with pin := { s.chip.pin with cells := cells } } } else s

/-- CLAMP: the boundary register holds the pins; bypass is selected. -/
def State.tapClamp (s : State) : State := s.tapSelect 0x04 1 0

/-- HIGHZ: the outputs are high-impedance; bypass is selected. -/
def State.tapHighz (s : State) : State := s.tapSelect 0x05 2 0

/-- BYPASS. -/
def State.tapBypass (s : State) : State := s.tapSelect 0x3F 0 0

/-- DBACC: the DB access register captures the data of the last read, and ERR (R527). -/
def State.tapDbacc (s : State) : State :=
  s.tapSelect 0x10 0 (BitVec.ofNat 1492 (s.tap.data.toNat * 2 ^ 11 + b2n s.tap.err * 2 ^ 44))

/-- Update-DR of DBACC: one access to the DB page, complete at once (R527; log entry 57). -/
def State.dbaccUpdate (s : State) (x : BitVec 45) : State :=
  let off := 4 * bitsOf x.toNat 10 1
  if !s.tapLive || s.tap.ir != 0x10#6 then s
  else if x.getLsbD 0 then
    let r := s.chip.writeReg .jtag pgDB off (bitsOf x.toNat 42 11)
    { s with chip := r.2, tap := { s.tap with data := 0, err := r.1 != 0 } }
  else
    let r := s.chip.readReg .jtag pgDB off false
    { s with chip := r.2.2, tap := { s.tap with data := BitVec.ofNat 32 r.1, err := r.2.1 != 0 } }

end Sys2Proof.Machine
end

