-- ==== Sys2Proof/Machine/CmdDebugging.lean ====
section
/-! DEFINITION. The test access port, debug access and run control (20). -/
namespace Sys2Proof.Machine

/-- The TAP instruction EXTEST, with the levels of boundary cells 1,440 to 1,491 (20, R526; 22, R593). -/
def execExtest (pins : BitVec 52) (s : State) : Host.Outcome State Fault Refusal :=
  .next (s.tapExtest pins)

/-- The TAP instruction SAMPLE/PRELOAD, with the values shifted in and the levels of boundary cells 1,440 to 1,491 (20, R526; 22, R593). -/
def execSamplePreload (cells : BitVec 1492) (pins : BitVec 52) (s : State) : Host.Outcome State Fault Refusal :=
  .next (s.tapSample cells pins)

/-- Update-DR of DBACC (20, R527, R528). -/
def execDbaccUpdate (x : BitVec 45) (s : State) : Host.Outcome State Fault Refusal :=
  .next (s.dbaccUpdate x)

/-- A write of DB_AUTHCMD with OP = CHALLENGE (20, R528, R529). -/
def execChallenge (w : Who) (level : BitVec 2) (s : State) : Host.Outcome State Fault Refusal :=
  s.through w pgDB DB_AUTHCMD_OP.off fun c => c.writeDebug w DB_AUTHCMD_OP.off (1 + 256 * level.toNat)

/-- A write of DB_AUTHCMD with OP = VERIFY (20, R529, R530). -/
def execVerify (w : Who) (s : State) : Host.Outcome State Fault Refusal :=
  s.through w pgDB DB_AUTHCMD_OP.off fun c => c.writeDebug w DB_AUTHCMD_OP.off 2

/-- A write of DB_AUTHCMD with OP = DROP (20, R531). -/
def execDrop (w : Who) (s : State) : Host.Outcome State Fault Refusal :=
  s.through w pgDB DB_AUTHCMD_OP.off fun c => c.writeDebug w DB_AUTHCMD_OP.off 3

/-- A write of DB_CMD with GO = 1 (20, R532, R533). -/
def execDebugRequest (w : Who) (v : BitVec 32) (s : State) : Host.Outcome State Fault Refusal :=
  s.through w pgDB DB_CMD_OP.off fun c => c.writeDebug w DB_CMD_OP.off (setBit v.toNat 8 true)

/-- A write of DB_HALTL or DB_HALTH (20, R536). -/
def execHalt (w : Who) (high : Bool) (v : BitVec 32) (s : State) : Host.Outcome State Fault Refusal :=
  s.through w pgDB (if high then DB_HALTH_HALT.off else DB_HALTL_HALT.off) fun c => c.writeDebug w (if high then DB_HALTH_HALT.off else DB_HALTL_HALT.off) v.toNat

/-- A halt takes effect at a step edge (20, R536). -/
def execHaltEffect (g : Fin 64) (s : State) : Host.Outcome State Fault Refusal :=
  s.go fun c => c.dbHaltEffect g.val

/-- A write of DB_RELL or DB_RELH (20, R538). -/
def execRelease (w : Who) (high : Bool) (v : BitVec 32) (s : State) : Host.Outcome State Fault Refusal :=
  s.through w pgDB (if high then DB_RELH_REL.off else DB_RELL_REL.off) fun c => c.writeDebug w (if high then DB_RELH_REL.off else DB_RELL_REL.off) v.toNat

/-- A write of DB_STEPL or DB_STEPH (20, R539). -/
def execStep (w : Who) (high : Bool) (v : BitVec 32) (s : State) : Host.Outcome State Fault Refusal :=
  s.through w pgDB (if high then DB_STEPH_STEP.off else DB_STEPL_STEP.off) fun c => c.writeDebug w (if high then DB_STEPH_STEP.off else DB_STEPL_STEP.off) v.toNat

/-- A write of DB_CTL with SEQ = HALT (20, R541). -/
def execSeqDebugHalt (w : Who) (v : BitVec 32) (s : State) : Host.Outcome State Fault Refusal :=
  s.through w pgDB DB_CTL_SEQ.off fun c => c.writeDebug w DB_CTL_SEQ.off (setBits v.toNat 9 8 1)

/-- A write of DB_CTL with SEQ = STEP (20, R541). -/
def execSeqDebugStep (w : Who) (v : BitVec 32) (s : State) : Host.Outcome State Fault Refusal :=
  s.through w pgDB DB_CTL_SEQ.off fun c => c.writeDebug w DB_CTL_SEQ.off (setBits v.toNat 9 8 3)

/-- A write of DB_CTL with SEQ = RELEASE (20, R541). -/
def execSeqDebugRelease (w : Who) (v : BitVec 32) (s : State) : Host.Outcome State Fault Refusal :=
  s.through w pgDB DB_CTL_SEQ.off fun c => c.writeDebug w DB_CTL_SEQ.off (setBits v.toNat 9 8 2)

/-- A read of DB_FFVAL (20, R548). -/
def execFfReadback (w : Who) (peek : Bool) (s : State) : Host.Outcome State Fault Refusal :=
  .next (s.reads w pgDB DB_FFVAL_Q.off peek)

/-- TRST_N resets the TAP (20, R526). -/
def execTapReset (s : State) : Host.Outcome State Fault Refusal :=
  .next (s.tapReset)

/-- The TAP instruction IDCODE (20, R526). -/
def execIdcode (s : State) : Host.Outcome State Fault Refusal :=
  .next (s.tapIdcode)

/-- The TAP instruction CLAMP (20, R526; 22, R593). -/
def execClamp (s : State) : Host.Outcome State Fault Refusal :=
  .next (s.tapClamp)

/-- The TAP instruction HIGHZ (20, R526; 22, R593). -/
def execHighz (s : State) : Host.Outcome State Fault Refusal :=
  .next (s.tapHighz)

/-- The TAP instruction DBACC (20, R526; 20, R527). -/
def execDbacc (s : State) : Host.Outcome State Fault Refusal :=
  .next (s.tapDbacc)

/-- The TAP instruction BYPASS (20, R526). -/
def execBypass (s : State) : Host.Outcome State Fault Refusal :=
  .next (s.tapBypass)

end Sys2Proof.Machine
end

