-- ==== Sys2Proof/Machine/CmdEncryption.lean ====
section
/-! DEFINITION. Memory ports and inline encryption (14). -/
namespace Sys2Proof.Machine

/-- LOAD of a slot (14, R387). -/
def execKeyLoad (w : Who) (m : Fin 2) (slot : BitVec 8) (s : State) : Host.Outcome State Fault Refusal :=
  s.through w (pgMC m.val 0) MC_KCMD_OP.off fun c => (0, c.writeCrypto (16 * m.val) MC_KCMD_OP.off (0x10100 + slot.toNat))

/-- NEWKEY of a slot (14, R387). -/
def execKeyNewkey (w : Who) (m : Fin 2) (slot : BitVec 8) (s : State) : Host.Outcome State Fault Refusal :=
  s.through w (pgMC m.val 0) MC_KCMD_OP.off fun c => (0, c.writeCrypto (16 * m.val) MC_KCMD_OP.off (0x10200 + slot.toNat))

/-- CLEAR of a slot (14, R387). -/
def execKeyClear (w : Who) (m : Fin 2) (slot : BitVec 8) (s : State) : Host.Outcome State Fault Refusal :=
  s.through w (pgMC m.val 0) MC_KCMD_OP.off fun c => (0, c.writeCrypto (16 * m.val) MC_KCMD_OP.off (0x10300 + slot.toNat))

/-- TREEKEY (14, R387). -/
def execKeyTreekey (w : Who) (m : Fin 2) (s : State) : Host.Outcome State Fault Refusal :=
  s.through w (pgMC m.val 0) MC_KCMD_OP.off fun c => (0, c.writeCrypto (16 * m.val) MC_KCMD_OP.off 0x10400)

/-- GRPFREE (14, R394). -/
def execKeyGrpfree (w : Who) (m : Fin 2) (s : State) : Host.Outcome State Fault Refusal :=
  s.through w (pgMC m.val 0) MC_KCMD_OP.off fun c => (0, c.writeCrypto (16 * m.val) MC_KCMD_OP.off 0x10500)

/-- GRPINIT (14, R398). -/
def execKeyGrpinit (w : Who) (m : Fin 2) (s : State) : Host.Outcome State Fault Refusal :=
  s.through w (pgMC m.val 0) MC_KCMD_OP.off fun c => (0, c.writeCrypto (16 * m.val) MC_KCMD_OP.off 0x10600)

/-- A write of the rights of a slot (14, R388). -/
def execKeyRightsWrite (w : Who) (m : Fin 2) (slot : BitVec 8) (rights : BitVec 16) (s : State) : Host.Outcome State Fault Refusal :=
  s.through w (pgMC m.val 1) (MC_KSLOT_RIGHTS.off + MC_KSLOT_RIGHTS.stride * slot.toNat) fun c => (0, c.keyRights m.val slot.toNat rights.toNat)

/-- A write of MC_CTL with SAVE = 1 (14, R408). -/
def execStateSave (w : Who) (m : Fin 2) (v : BitVec 32) (s : State) : Host.Outcome State Fault Refusal :=
  s.through w (pgMC m.val 0) MC_CTL_SAVE.off fun c => (0, c.writeCrypto (16 * m.val) MC_CTL_SAVE.off (setBit v.toNat 1 true))

/-- A write of MC_TREECTL.INIT of a port (14, R400). -/
def execTreeInit (w : Who) (m : Fin 2) (p : Fin 4) (s : State) : Host.Outcome State Fault Refusal :=
  s.through w (pgMC m.val 0) MC_TREECTL_INIT.off fun c => (0, c.writeCrypto (16 * m.val) MC_TREECTL_INIT.off (2 ^ p.val))

/-- A write of MC_RKCTL with GO = 1 (14, R404). -/
def execRekeyGo (w : Who) (m : Fin 2) (v : BitVec 32) (s : State) : Host.Outcome State Fault Refusal :=
  s.through w (pgMC m.val 0) MC_RKCTL_GO.off fun c => (0, c.writeCrypto (16 * m.val) MC_RKCTL_GO.off (setBit v.toNat 8 true))

/-- The rekey engine takes the line at its boundary (14, R405 to R407). -/
def execRekeyLine (m : Fin 2) (s : State) : Host.Outcome State Fault Refusal :=
  s.go fun c => c.rekeyLine m.val

/-- A line of a group under re-encryption is taken (14, R393). -/
def execBgReencryptLine (m : Fin 2) (s : State) : Host.Outcome State Fault Refusal :=
  s.go fun c => c.bgLine m.val

/-- A write of 1 to VALID of a poison entry (14, R398). -/
def execPoisonClear (w : Who) (m : Fin 2) (n : Fin 16) (s : State) : Host.Outcome State Fault Refusal :=
  s.through w (pgMC m.val 0) (MC_PSNA_VALID.off + MC_PSNA_VALID.stride * n.val) fun c => (0, c.poisonClear m.val n.val)

/-- The PMP RDATA at the front of a memory port is taken (14, R380, R385, R397, R398). -/
def execRdata (q : Fin 8) (s : State) : Host.Outcome State Fault Refusal :=
  s.go fun c => c.takeRdata q.val

/-- The PMP WACK at the front of a memory port is taken (14, R380, R382). -/
def execWack (q : Fin 8) (s : State) : Host.Outcome State Fault Refusal :=
  s.go fun c => c.takeWack q.val

/-- The PMP INFO at the front of a memory port is taken (14, R381). -/
def execInfo (q : Fin 8) (s : State) : Host.Outcome State Fault Refusal :=
  s.go fun c => c.takeInfo q.val

/-- A PMP request is not answered in time (14, R382). -/
def execPmpTimeout (q : Fin 8) (tag : Fin 1024) (s : State) : Host.Outcome State Fault Refusal :=
  s.go fun c => c.pmpTimeout q.val tag.val

/-- A copy of the root of a port disagrees at a vote (14, R397, R398). -/
def execRootCopyVote (q : Fin 8) (failed : Bool) (s : State) : Host.Outcome State Fault Refusal :=
  s.go fun c => c.rootVote q.val failed

end Sys2Proof.Machine
end

