-- ==== Sys2Proof/Machine/CmdEngineIo.lean ====
section
/-! DEFINITION. Batches, admission and trace (07, 17). -/
namespace Sys2Proof.Machine

/-- A write of EG_LPCTL with EN = 1 (07, R196). -/
def execBatchEnable (w : Who) (g : Fin 64) (v : BitVec 32) (s : State) : Host.Outcome State Fault Refusal :=
  s.through w (pgEG g.val) EG_LPCTL_EN.off fun c => c.writeGroup w g.val EG_LPCTL_EN.off (setBit v.toNat 0 true)

/-- A write of EG_LPCTL with EN = 0 (07, R200). -/
def execBatchDisable (w : Who) (g : Fin 64) (v : BitVec 32) (s : State) : Host.Outcome State Fault Refusal :=
  s.through w (pgEG g.val) EG_LPCTL_EN.off fun c => c.writeGroup w g.val EG_LPCTL_EN.off (setBit v.toNat 0 false)

/-- A step edge of the admission controller (17, R479, R481; 07, R197). -/
def execLooseLapAdmit (g : Fin 64) (s : State) : Host.Outcome State Fault Refusal :=
  s.go fun c => c.looseAdmit g.val

/-- A group receives the budget word (17, R477, R478). -/
def execBudgetWord (g : Fin 64) (s : State) : Host.Outcome State Fault Refusal :=
  s.go fun c => c.budgetWord g.val

/-- A write of EG_TRCCTL with EN = 1 (07, R211). -/
def execTraceEnable (w : Who) (g : Fin 64) (v : BitVec 32) (s : State) : Host.Outcome State Fault Refusal :=
  s.through w (pgEG g.val) EG_TRCCTL_EN.off fun c => c.writeGroup w g.val EG_TRCCTL_EN.off (setBit (setBit v.toNat 0 true) 4 false)

/-- A write of EG_TRCCTL with EN = 0 (07, R212). -/
def execTraceDisable (w : Who) (g : Fin 64) (v : BitVec 32) (s : State) : Host.Outcome State Fault Refusal :=
  s.through w (pgEG g.val) EG_TRCCTL_EN.off fun c => c.writeGroup w g.val EG_TRCCTL_EN.off (setBit (setBit v.toNat 0 false) 4 false)

/-- A write of EG_TRCCTL with FLUSH = 1 (07, R212). -/
def execTraceFlush (w : Who) (g : Fin 64) (v : BitVec 32) (s : State) : Host.Outcome State Fault Refusal :=
  s.through w (pgEG g.val) EG_TRCCTL_EN.off fun c => c.writeGroup w g.val EG_TRCCTL_EN.off (setBit v.toNat 4 true)

/-- A partly filled flit has been held for 4,096 step periods (07, R212). -/
def execTraceFlitTimeout (g : Fin 64) (s : State) : Host.Outcome State Fault Refusal :=
  s.go fun c => c.traceOld g.val

end Sys2Proof.Machine
end

