-- ==== Sys2Proof/Machine/CmdEventLog.lean ====
section
/-! DEFINITION. The event recorder (21). -/
namespace Sys2Proof.Machine

/-- A write of EV_SWCODE (21, R563). -/
def execSoftwareRecord (w : Who) (code : BitVec 16) (s : State) : Host.Outcome State Fault Refusal :=
  s.through w pgEV EV_SWCODE_CODE.off fun c => c.writeRecorder w EV_SWCODE_CODE.off code.toNat

/-- A write of EV_CLRCMD with OP = CHALLENGE (21, R564). -/
def execClearChallenge (w : Who) (s : State) : Host.Outcome State Fault Refusal :=
  s.through w pgEV EV_CLRCMD_OP.off fun c => c.writeRecorder w EV_CLRCMD_OP.off 1

/-- A write of EV_CLRCMD with OP = VERIFY (21, R564). -/
def execClearVerify (w : Who) (s : State) : Host.Outcome State Fault Refusal :=
  s.through w pgEV EV_CLRCMD_OP.off fun c => c.writeRecorder w EV_CLRCMD_OP.off 2

/-- A write of EV_CLRCMD with OP = CLEAR (21, R564, R565). -/
def execRecorderClear (w : Who) (s : State) : Host.Outcome State Fault Refusal :=
  s.through w pgEV EV_CLRCMD_OP.off fun c => c.writeRecorder w EV_CLRCMD_OP.off 3

/-- The UART sends a record while UART_RX is high (21, R566). -/
def execUartRecord (rx : Bool) (s : State) : Host.Outcome State Fault Refusal :=
  s.go fun c => c.uartRecord rx

/-- A write of EV_UARTCTL with EN = 1 (21, R566). -/
def execUartEnable (w : Who) (v : BitVec 32) (s : State) : Host.Outcome State Fault Refusal :=
  s.through w pgEV EV_UARTCTL_EN.off fun c => c.writeRecorder w EV_UARTCTL_EN.off (setBit v.toNat 0 true)

/-- A buffered record is programmed (21, R558, R559). -/
def execRecordProgram (s : State) : Host.Outcome State Fault Refusal :=
  s.go fun c => c.recordProgram

/-- A rate window ends (21, R560). -/
def execRateWindowEnd (s : State) : Host.Outcome State Fault Refusal :=
  s.go fun c => c.rateWindow

/-- The ring search of a cold start completes (21, R561, R565). -/
def execRecordSearchDone (s : State) : Host.Outcome State Fault Refusal :=
  s.go fun c => c.searchDone

/-- TIME wraps (21, R561). -/
def execTimewrap (s : State) : Host.Outcome State Fault Refusal :=
  s.go fun c => c.timeWrap

/-- The erasure of the old ring ends (21, R565). -/
def execClearEraseDone (s : State) : Host.Outcome State Fault Refusal :=
  s.go fun c => c.clearErased

/-- A verified clear authorisation lapses (21, R564). -/
def execClearAuthLapse (s : State) : Host.Outcome State Fault Refusal :=
  s.go fun c => c.clrLapse

end Sys2Proof.Machine
end

