-- ==== Sys2Proof/Machine/CmdExchange.lean ====
section
/-! DEFINITION. Lockstep (05). -/
namespace Sys2Proof.Machine

/-- A write of GL_LSCTL with EN = 1 (05, R163). -/
def execLockstepArm (w : Who) (v : BitVec 32) (s : State) : Host.Outcome State Fault Refusal :=
  s.through w pgGL GL_LSCTL_EN.off fun c => (0, c.lsControl (setBit (setBit (setBit v.toNat 0 true) 2 false) 3 false))

/-- A write of GL_LSCTL with SYNC = 1 (05, R163). -/
def execLockstepSync (w : Who) (v : BitVec 32) (s : State) : Host.Outcome State Fault Refusal :=
  s.through w pgGL GL_LSCTL_EN.off fun c => (0, c.lsControl (setBit (setBit v.toNat 2 true) 3 false))

/-- A write of GL_LSCTL with STOP = 1 (05, R165). -/
def execLockstepStop (w : Who) (v : BitVec 32) (s : State) : Host.Outcome State Fault Refusal :=
  s.through w pgGL GL_LSCTL_EN.off fun c => (0, c.lsControl (setBit (setBit v.toNat 2 false) 3 true))

/-- A write of GL_LSCTL with EN = 0 (05, R167). -/
def execLockstepDisarm (w : Who) (v : BitVec 32) (s : State) : Host.Outcome State Fault Refusal :=
  s.through w pgGL GL_LSCTL_EN.off fun c => (0, c.lsControl (setBit (setBit (setBit v.toNat 0 false) 2 false) 3 false))

/-- The oldest message of a lockstep port, of this type, takes effect (05, R158, R163). -/
def execLssync (p : Fin 16) (s : State) : Host.Outcome State Fault Refusal :=
  s.go fun c => c.lsMessage p.val 1

/-- The oldest message of a lockstep port, of this type, takes effect (05, R158, R161, R165). -/
def execLsdata (p : Fin 16) (s : State) : Host.Outcome State Fault Refusal :=
  s.go fun c => c.lsMessage p.val 2

/-- The oldest message of a lockstep port, of this type, takes effect (05, R158, R166). -/
def execLsstop (p : Fin 16) (s : State) : Host.Outcome State Fault Refusal :=
  s.go fun c => c.lsMessage p.val 3

end Sys2Proof.Machine
end

