-- ==== Sys2Proof/Machine/CmdFabricEdges.lean ====
section
/-! DEFINITION. Edges of the product-term fabric and its master ports (08). -/
namespace Sys2Proof.Machine

/-- An edge of a fabric clock, with the levels on the user I/O; `same` holds for a further edge of the moment before (08, R224 to R227). -/
def execMacrocellClock (k : ClkSrc) (rising : Bool) (same : Bool) (pins : List (Nat × Bool)) (s : State) : Host.Outcome State Fault Refusal :=
  s.go fun c => c.clockEdge k rising same pins

/-- A master port accepts a request at an edge of its clock (08, R245, R247). -/
def execFmpRequest (n : Fin 8) (p : Fin 4) (same : Bool) (s : State) : Host.Outcome State Fault Refusal :=
  s.go fun c => c.fmpRequest n.val p.val same

/-- A master port takes a write beat (08, R246, R247). -/
def execFmpWriteBeat (n : Fin 8) (p : Fin 4) (same : Bool) (s : State) : Host.Outcome State Fault Refusal :=
  s.go fun c => c.fmpWriteBeat n.val p.val same

/-- A master port delivers a response beat (08, R248). -/
def execFmpResponseBeat (n : Fin 8) (p : Fin 4) (same : Bool) (s : State) : Host.Outcome State Fault Refusal :=
  s.go fun c => c.fmpBeat n.val p.val false same

/-- A master port delivers a late beat (08, R249). -/
def execFmpLateBeat (n : Fin 8) (p : Fin 4) (same : Bool) (s : State) : Host.Outcome State Fault Refusal :=
  s.go fun c => c.fmpBeat n.val p.val true same

end Sys2Proof.Machine
end

