-- ==== Sys2Proof/Machine/CmdFaults.lean ====
section
/-! DEFINITION. The fault collector (19). -/
namespace Sys2Proof.Machine

/-- The rails of a pair stay equal for 4 AON cycles (19, R509). -/
def execBrokenPair (pg : Nat) (b : Fin 32) (s : State) : Host.Outcome State Fault Refusal :=
  s.go fun c => c.brokenPair pg b.val

/-- A write of FC_ACK.ACK = 1 (19, R513). -/
def execFaultAck (w : Who) (s : State) : Host.Outcome State Fault Refusal :=
  s.through w pgFC FC_ACK_ACK.off fun c => (0, c.faultAck)

/-- A broken pair is valid again (19, R509). -/
def execPairRailsValid (pg : Nat) (b : Fin 32) (s : State) : Host.Outcome State Fault Refusal :=
  s.go fun c => c.pairValid pg b.val

/-- The collector processes the next report (19, R512, R516, R518, R519; 21, R558). -/
def execFaultReport (s : State) : Host.Outcome State Fault Refusal :=
  s.go fun c => c.faultReport

/-- The minimum width of FLTP_N ends (19, R513). -/
def execFltpWidthExpire (s : State) : Host.Outcome State Fault Refusal :=
  s.go fun c => c.fltpWidth

/-- The deasserted time of FLTP_N ends (19, R513). -/
def execFltpHoldoffExpire (s : State) : Host.Outcome State Fault Refusal :=
  s.go fun c => c.fltpHoldoff

end Sys2Proof.Machine
end

