-- ==== Sys2Proof/Machine/CmdFlashStore.lean ====
section
/-! DEFINITION. On-chip flash (21). -/
namespace Sys2Proof.Machine

/-- A write of EV_FLCMD with OP = READ and GO = 1 (21, R551, R553). -/
def execFlashRead (w : Who) (s : State) : Host.Outcome State Fault Refusal :=
  s.through w pgEV EV_FLCMD_OP.off fun c => c.writeRecorder w EV_FLCMD_OP.off 0x11

/-- A write of EV_FLCMD with OP = PROGRAM and GO = 1 (21, R551, R553). -/
def execFlashProgram (w : Who) (s : State) : Host.Outcome State Fault Refusal :=
  s.through w pgEV EV_FLCMD_OP.off fun c => c.writeRecorder w EV_FLCMD_OP.off 0x12

/-- A write of EV_FLCMD with OP = ERASE and GO = 1 (21, R551, R553). -/
def execFlashErase (w : Who) (s : State) : Host.Outcome State Fault Refusal :=
  s.through w pgEV EV_FLCMD_OP.off fun c => c.writeRecorder w EV_FLCMD_OP.off 0x13

/-- The read-through of a sector (21, R555). -/
def execFlashRefresh (sector : Fin 4096) (s : State) : Host.Outcome State Fault Refusal :=
  s.go fun c => c.flashRefresh sector.val

/-- The flash command in progress completes (21, R553). -/
def execFlashCommandDone (s : State) : Host.Outcome State Fault Refusal :=
  s.go fun c => c.flashDone

end Sys2Proof.Machine
end

