-- ==== Sys2Proof/Machine/CmdFreezing.lean ====
section
/-! DEFINITION. Freeze and thaw (20). -/
namespace Sys2Proof.Machine

/-- FREEZE_N has been low for 1 us, or is high again (20, R544). -/
def execFreezePin (low : Bool) (s : State) : Host.Outcome State Fault Refusal :=
  s.go fun c => c.freezePin low

/-- A write of GL_FRZ (20, R544). -/
def execFreezeRequest (w : Who) (v : BitVec 32) (s : State) : Host.Outcome State Fault Refusal :=
  s.through w pgGL GL_FRZ_REQ.off fun c => c.writeGlobal w GL_FRZ_REQ.off v.toNat

/-- The alignment edge A_F (20, R545). -/
def execFreezeBegin (s : State) : Host.Outcome State Fault Refusal :=
  s.go fun c => c.freezeBegin

/-- Every clock outside the island has stopped (20, R545, R546). -/
def execFreezeComplete (s : State) : Host.Outcome State Fault Refusal :=
  s.go fun c => c.freezeComplete

/-- The alignment edge A_T (20, R549). -/
def execThaw (s : State) : Host.Outcome State Fault Refusal :=
  s.go fun c => c.thaw

end Sys2Proof.Machine
end

