-- ==== Sys2Proof/Machine/CmdGovernor.lean ====
section
/-! DEFINITION. The governor and the sensors (17). -/
namespace Sys2Proof.Machine

/-- An epoch ends, with the energies of its counters and of the loose laps in nJ (17, R475 to R477, R482). -/
def execEpoch (energy : List Nat) (loose : List Nat) (s : State) : Host.Outcome State Fault Refusal :=
  s.go fun c => c.epoch energy loose

/-- A sensor reading in quarters of a degree (17, R483, R485, R486). -/
def execSensorReading (n : Fin 72) (temp : BitVec 10) (s : State) : Host.Outcome State Fault Refusal :=
  s.go fun c => Chip.wdUnhold c.wdHeld (c.sensorRead n.val temp.toNat)

/-- The check of a sensor passes or fails (17, R487). -/
def execSensorCalibration (n : Fin 72) (pass : Bool) (s : State) : Host.Outcome State Fault Refusal :=
  s.go fun c => c.sensorCheck n.val pass

/-- The ageing margin of a group is read (17, R488). -/
def execAgeingReading (g : Fin 64) (marg : BitVec 8) (s : State) : Host.Outcome State Fault Refusal :=
  s.go fun c => c.ageRead g.val marg.toNat

/-- A body bias code comes into force (17, R488). -/
def execBiasApply (g : Fin 64) (s : State) : Host.Outcome State Fault Refusal :=
  s.go fun c => c.biasApply g.val

end Sys2Proof.Machine
end

