-- ==== Sys2Proof/Machine/CmdHost.lean ====
section
/-! DEFINITION. The host port (15). -/
namespace Sys2Proof.Machine

/-- A request to BAR0: offset, DWs, byte enables, write data (15, R437, R439, R440). -/
def execBar0Request (form : HostForm) (write : Bool) (off : BitVec 28) (dw : Nat) (be : BitVec 8) (data : BitVec 64) (s : State) : Host.Outcome State Fault Refusal :=
  s.go fun c => c.bar0 form write off.toNat dw be.toNat data

/-- A request to BAR2: offset, length, write bytes with their enables (15, R438 to R440, R444). -/
def execBar2Request (form : HostForm) (write : Bool) (off : Nat) (len : Nat) (bytes : List (BitVec 8 × Bool)) (s : State) : Host.Outcome State Fault Refusal :=
  s.go fun c => c.bar2 form write off len bytes

/-- A write to HP_MSIFRCL or HP_MSIFRCH (15, R441). -/
def execMsixForce (w : Who) (high : Bool) (v : BitVec 32) (s : State) : Host.Outcome State Fault Refusal :=
  s.through w pgHP (if high then HP_MSIFRCH_FRC.off else HP_MSIFRCL_FRC.off) fun c => (0, c.writeHost (if high then HP_MSIFRCH_FRC.off else HP_MSIFRCL_FRC.off) v.toNat)

/-- The link reaches DL_Active (15, R442; 18, R496). -/
def execHostLinkUp (width : BitVec 4) (speed : BitVec 4) (s : State) : Host.Outcome State Fault Refusal :=
  s.go fun c => c.hostLinkUp width.toNat speed.toNat

/-- A configuration request: Type 1, write, register number, byte enables, data (15, R436, R440). -/
def execHostConfigRequest (type1 : Bool) (write : Bool) (n : BitVec 10) (be : BitVec 4) (data : BitVec 32) (s : State) : Host.Outcome State Fault Refusal :=
  s.go fun c => c.hostConfig type1 write n.toNat be.toNat data.toNat

/-- PERST_N is asserted (15, R442, R443). -/
def execPerst (s : State) : Host.Outcome State Fault Refusal :=
  s.go fun c => c.perst

/-- A hot reset (15, R442). -/
def execHotReset (s : State) : Host.Outcome State Fault Refusal :=
  s.go fun c => c.hotReset

/-- A Function Level Reset (15, R442). -/
def execFunctionLevelReset (s : State) : Host.Outcome State Fault Refusal :=
  s.go fun c => c.functionReset

/-- The link leaves DL_Active (15, R442). -/
def execHostLinkDown (s : State) : Host.Outcome State Fault Refusal :=
  s.go fun c => c.hostLinkDown

/-- PERST_N is deasserted (15, R442). -/
def execPerstNRelease (s : State) : Host.Outcome State Fault Refusal :=
  s.go fun c => c.perstRelease

end Sys2Proof.Machine
end

