-- ==== Sys2Proof/Machine/CmdImages.lean ====
section
/-! DEFINITION. The lap image loader (03). -/
namespace Sys2Proof.Machine

/-- A write of CF_JLCTL with GO = 1 (03, R106; 10, R307). -/
def execLoaderGo (w : Who) (v : BitVec 32) (s : State) : Host.Outcome State Fault Refusal :=
  s.through w pgCF CF_JLCTL_GO.off fun c => (0, c.writeConfig CF_JLCTL_GO.off (setBit v.toNat 0 true))

/-- A write of CF_JLCTL with ABORT = 1 (03, R109). -/
def execLoaderAbort (w : Who) (v : BitVec 32) (s : State) : Host.Outcome State Fault Refusal :=
  s.through w pgCF CF_JLCTL_GO.off fun c => (0, c.writeConfig CF_JLCTL_GO.off (setBit (setBit v.toNat 0 false) 2 true))

/-- The check pass is done; `img` is what was read outside the scratchpad (03, R105, R107, R108). -/
def execLoaderCheckPassDone (img : List (BitVec 8)) (err : Bool) (s : State) : Host.Outcome State Fault Refusal :=
  s.go fun c => c.loaderChecked img err

/-- The write pass is done (03, R108, R109). -/
def execLoaderWritePassDone (img : List (BitVec 8)) (err : Bool) (s : State) : Host.Outcome State Fault Refusal :=
  s.go fun c => c.loaderWritten img err

end Sys2Proof.Machine
end

