-- ==== Sys2Proof/Machine/CmdLanes.lean ====
section
/-! DEFINITION. Serial lanes and link ports (15). -/
namespace Sys2Proof.Machine

/-- A quad loop locks (15, R412). -/
def execQuadLoopLock (q : Fin 16) (s : State) : Host.Outcome State Fault Refusal :=
  s.go fun c => c.quadLocks q.val

/-- A lane gains PCS lock (15, R417). -/
def execLaneLock (l : Fin 64) (s : State) : Host.Outcome State Fault Refusal :=
  s.go fun c => c.laneLocks l.val

/-- A lane loses PCS lock (15, R418, R430, R433). -/
def execLaneLockLoss (l : Fin 64) (s : State) : Host.Outcome State Fault Refusal :=
  s.go fun c => c.laneLoses l.val

/-- A write of LN_LPWRk.REQ (15, R424). -/
def execLanePowerRequest (w : Who) (l : Fin 64) (r : BitVec 2) (s : State) : Host.Outcome State Fault Refusal :=
  s.through w (pgLN (l.val / 4)) (LN_LPWR_REQ.off + LN_LPWR_REQ.stride * (l.val % 4)) fun c => (0, c.writeLane (l.val / 4) (LN_LPWR_REQ.off + 0x20 * (l.val % 4)) r.toNat)

/-- A lane reaches the requested power state (15, R424). -/
def execLanePowerDone (l : Fin 64) (s : State) : Host.Outcome State Fault Refusal :=
  s.go fun c => c.lanePowerDone l.val

/-- A write of RXEN = 1, or TXEN = 1 (15, R419). -/
def execRingEnable (w : Who) (l : Fin 64) (tx : Bool) (s : State) : Host.Outcome State Fault Refusal :=
  s.through w (pgLN (l.val / 4)) (LN_RINGCTL_TXEN.off + LN_RINGCTL_TXEN.stride * (l.val % 4)) fun c => (0, c.ringWrite l.val tx true)

/-- A stream lane receives a line (15, R421 to R423). -/
def execRxLine (l : Fin 64) (x : BitVec 512) (s : State) : Host.Outcome State Fault Refusal :=
  s.go fun c => c.rxLineIn l.val x

/-- A write of LN_PCTL with EN = 1 (15, R426). -/
def execPortEnable (w : Who) (p : Fin 16) (s : State) : Host.Outcome State Fault Refusal :=
  s.through w (pgLN p.val) LN_PCTL_EN.off fun c => (0, c.writeLane p.val LN_PCTL_EN.off 1)

/-- A flit is received (15, R428, R431, R434, R435). -/
def execLinkFlit (p : Fin 16) (f : BitVec 576) (s : State) : Host.Outcome State Fault Refusal :=
  s.go fun c => c.linkFlit p.val f

/-- A control block ACK is received (15, R429 to R433). -/
def execAck (p : Fin 16) (b : BitVec 64) (s : State) : Host.Outcome State Fault Refusal :=
  s.go fun c => c.linkAck p.val b

/-- A control block NAK is received (15, R429 to R433). -/
def execNak (p : Fin 16) (b : BitVec 64) (s : State) : Host.Outcome State Fault Refusal :=
  s.go fun c => c.linkNak p.val b

/-- A control block ANNOUNCE is received (15, R429 to R433). -/
def execAnnounce (p : Fin 16) (b : BitVec 64) (s : State) : Host.Outcome State Fault Refusal :=
  s.go fun c => c.linkAnnounce p.val b

/-- A control block GLIDE is received (15, R429 to R433). -/
def execGlide (p : Fin 16) (b : BitVec 64) (s : State) : Host.Outcome State Fault Refusal :=
  s.go fun c => c.linkGlide p.val b

/-- A control block SHED is received (15, R429 to R433). -/
def execShed (p : Fin 16) (b : BitVec 64) (s : State) : Host.Outcome State Fault Refusal :=
  s.go fun c => c.linkShed p.val b

/-- A control block SHEDACK is received (15, R429 to R433). -/
def execShedack (p : Fin 16) (b : BitVec 64) (s : State) : Host.Outcome State Fault Refusal :=
  s.go fun c => c.linkShedack p.val b

/-- ACKSEQ has not advanced for 2 us (15, R431). -/
def execLinkReplayTimeout (p : Fin 16) (s : State) : Host.Outcome State Fault Refusal :=
  s.go fun c => c.replayTimeout p.val

/-- An idle port puts its lanes into Glide (15, R432). -/
def execGlideIdleTimeout (p : Fin 16) (s : State) : Host.Outcome State Fault Refusal :=
  s.go fun c => c.glideIdle p.val

/-- A write of LN_PCTL with REWIDEN = 1 (15, R433). -/
def execRewiden (w : Who) (p : Fin 16) (v : BitVec 32) (s : State) : Host.Outcome State Fault Refusal :=
  s.through w (pgLN p.val) LN_PCTL_EN.off fun c => (0, c.writeLane p.val LN_PCTL_EN.off (setBit v.toNat 1 true))

end Sys2Proof.Machine
end

