-- ==== Sys2Proof/Machine/CmdLaps.lean ====
section
/-! DEFINITION. Laps, pacing and replay (02, 04, 06). -/
namespace Sys2Proof.Machine

/-- The alignment edge of a waiting group (02, R77; 01, R54; 04, R141; 06, R170). -/
def execGroupStart (g : Fin 64) (s : State) : Host.Outcome State Fault Refusal :=
  s.go fun c => c.groupStarts g.val

/-- A transition of a pace input, with the levels on the user I/O (04, R123; 22, R602). -/
def execPaceEdge (p : Fin 16) (rising : Bool) (held : Bool) (pins : List (Nat × Bool)) (s : State) : Host.Outcome State Fault Refusal :=
  s.go fun c => c.paceEdge p.val rising held pins

/-- A step edge at which groups recognise pace edges (04, R120, R121, R129, R135). -/
def execPaceEvent (ks : List PaceKey) (s : State) : Host.Outcome State Fault Refusal :=
  s.go fun c => c.paceEvent ks

/-- The third step edge after an overrun under RESYNC (04, R133). -/
def execResyncCapture (g : Fin 64) (s : State) : Host.Outcome State Fault Refusal :=
  s.go fun c => c.resyncTake g.val

/-- No pace event came in time (04, R135, R136). -/
def execPaceLate (g : Fin 64) (s : State) : Host.Outcome State Fault Refusal :=
  s.go fun c => c.paceLate g.val

/-- The input phase of a lap (04, R113; 05, R161, R165; 07, R206). -/
def execLapInputPhase (g : Fin 64) (loose : Bool) (s : State) : Host.Outcome State Fault Refusal :=
  s.go fun c => c.lapTakes g.val loose

/-- A compute step of a lap (02, R56 to R73; 05, R145 to R151). -/
def execComputeStep (g : Fin 64) (loose : Bool) (s : State) : Host.Outcome State Fault Refusal :=
  s.go fun c => c.lapStep g.val loose

/-- The commit phase of a lap up to K2 (04, R114; 06, R174). -/
def execLapCommit (g : Fin 64) (loose : Bool) (s : State) : Host.Outcome State Fault Refusal :=
  s.go fun c => c.lapCommit g.val loose

/-- The end of K3 (06, R177 to R182). -/
def execReplayDecision (g : Fin 64) (loose : Bool) (s : State) : Host.Outcome State Fault Refusal :=
  s.go fun c => c.replayDecision g.val loose

/-- The output phase of a lap (04, R115; 05, R159; 06, R187; 07, R202, R205, R209; 10, R303). -/
def execLapOutputPhase (g : Fin 64) (loose : Bool) (s : State) : Host.Outcome State Fault Refusal :=
  s.go fun c => c.lapOutputs g.val loose

/-- The end of O3; `energy` is that of a loose lap in nJ (04, R112, R133; 06, R185; 17, R480; 20, R539). -/
def execLapComplete (g : Fin 64) (loose : Bool) (energy : Nat) (s : State) : Host.Outcome State Fault Refusal :=
  s.go fun c => Chip.wdUnhold c.wdHeld (c.lapComplete g.val loose energy)

end Sys2Proof.Machine
end

