-- ==== Sys2Proof/Machine/CmdNetwork.lean ====
section
/-! DEFINITION. The packet network (12). -/
namespace Sys2Proof.Machine

/-- The waiting request at place i is presented (12, R348, R349). -/
def execUnitRequestIssue (i : Nat) (s : State) : Host.Outcome State Fault Refusal :=
  s.go fun c => c.requestIssue i

/-- The part at place i is sent (12, R345, R346, R350). -/
def execRequestInject (i : Nat) (s : State) : Host.Outcome State Fault Refusal :=
  s.go fun c => (c.requestInject i).ownersLook

/-- A router takes the head flit of the packet at place i, with upsets of its flits (12, R337, R355, R357). -/
def execRouterHeadFlit (i : Nat) (fixed : Nat) (bad : List Nat) (header : Bool) (s : State) : Host.Outcome State Fault Refusal :=
  s.go fun c => (c.routerHead i { fixed := fixed, bad := bad, header := header }).ownersLook

/-- The READ that has arrived at place i reaches its target (12, R335, R347; 01, R30, R34). -/
def execRead (i : Nat) (s : State) : Host.Outcome State Fault Refusal :=
  s.go fun c => c.perform .read i

/-- The WRITE that has arrived at place i reaches its target (12, R335, R347; 01, R30, R34). -/
def execWrite (i : Nat) (s : State) : Host.Outcome State Fault Refusal :=
  s.go fun c => c.perform .write i

/-- The REGRD that has arrived at place i reaches its target (12, R335, R347; 01, R30, R34). -/
def execRegrd (i : Nat) (s : State) : Host.Outcome State Fault Refusal :=
  s.go fun c => c.perform .regrd i

/-- The REGWR that has arrived at place i reaches its target (12, R335, R347; 01, R30, R34). -/
def execRegwr (i : Nat) (s : State) : Host.Outcome State Fault Refusal :=
  s.go fun c => c.perform .regwr i

/-- The response at place i is delivered to its unit (12, R336, R349). -/
def execRsp (i : Nat) (s : State) : Host.Outcome State Fault Refusal :=
  s.go fun c => c.rspIn i

/-- The LATE at place i reports a verification (12, R352). -/
def execLate (i : Nat) (s : State) : Host.Outcome State Fault Refusal :=
  s.go fun c => c.lateIn i

/-- The reservation request at place i is taken (12, R346). -/
def execRsvreq (i : Nat) (s : State) : Host.Outcome State Fault Refusal :=
  s.go fun c => c.rsvreqIn i

/-- The reservation grant at place i arrives (12, R346). -/
def execRsvgnt (i : Nat) (s : State) : Host.Outcome State Fault Refusal :=
  s.go fun c => (c.rsvgntIn i).ownersLook

/-- A write of NC_RTECMD with WR = 1 at NI 32 + n (12, R339, R340). -/
def execRouteWrite (w : Who) (n : Fin 32) (index : BitVec 8) (order : Bool) (s : State) : Host.Outcome State Fault Refusal :=
  s.through w (pgNI (32 + n.val)) NC_RTECMD_INDEX.off fun c => (0, c.writeNi (32 + n.val) NC_RTECMD_INDEX.off (index.toNat + 0x100 + 0x400 * b2n order))

/-- A write of NC_RTECMD with RD = 1 at NI 32 + n (12, R340). -/
def execRouteRead (w : Who) (n : Fin 32) (index : BitVec 8) (order : Bool) (s : State) : Host.Outcome State Fault Refusal :=
  s.through w (pgNI (32 + n.val)) NC_RTECMD_INDEX.off fun c => (0, c.writeNi (32 + n.val) NC_RTECMD_INDEX.off (index.toNat + 0x200 + 0x400 * b2n order))

/-- A write of NC_MODE with FREELOST = 1 at NI 32 + n (12, R353). -/
def execFreelost (w : Who) (n : Fin 32) (v : BitVec 32) (s : State) : Host.Outcome State Fault Refusal :=
  s.through w (pgNI (32 + n.val)) NC_MODE_RSV.off fun c => (0, (c.writeNi (32 + n.val) NC_MODE_RSV.off (setBit v.toNat 8 true)).ownersLook)

/-- A tag of NI 32 + n times out (12, R353). -/
def execNiTimeout (n : Fin 32) (tag : Fin 256) (s : State) : Host.Outcome State Fault Refusal :=
  s.go fun c => (c.niTimeout (32 + n.val) tag.val).ownersLook

end Sys2Proof.Machine
end

