-- ==== Sys2Proof/Machine/CmdPairing.lean ====
section
/-! DEFINITION. Detach and rejoin of pair members (06). -/
namespace Sys2Proof.Machine

/-- A write of EE_PAIR.DETACH = 1 (06, R185). -/
def execPairDetach (w : Who) (e : Fin 512) (s : State) : Host.Outcome State Fault Refusal :=
  s.through w (pgEE e.val) EE_PAIR_ROLE.off fun c => (0, c.pairDetach e.val)

/-- A write of EE_PAIR.REJOIN = 1 (06, R187; 11, R322). -/
def execPairRejoin (w : Who) (e : Fin 512) (s : State) : Host.Outcome State Fault Refusal :=
  s.through w (pgEE e.val) EE_PAIR_ROLE.off fun c => (0, c.pairRejoin e.val)

end Sys2Proof.Machine
end

