-- ==== Sys2Proof/Machine/CmdPower.lean ====
section
/-! DEFINITION. Switched domains, rails and I/O supplies (01; 17; 20). -/
namespace Sys2Proof.Machine

/-- A write of PG_PWR.REQ = 0b01 (01, R41, R42; 17, R466, R469). -/
def execPowerOnRequest (w : Who) (pg : Nat) (s : State) : Host.Outcome State Fault Refusal :=
  s.through w pg PG_PWR_REQ.off fun c => (0, c.reqWrite pg 1)

/-- A write of PG_PWR.REQ = 0b00 (01, R41 to R43; 12, R356; 17, R471). -/
def execPowerOffRequest (w : Who) (pg : Nat) (s : State) : Host.Outcome State Fault Refusal :=
  s.through w pg PG_PWR_REQ.off fun c => (0, c.reqWrite pg 0)

/-- A write of PG_PWR.REQ = 0b10 at a page of domain 78 (13, R373). -/
def execRetentionRequest (w : Who) (p : Fin 4) (s : State) : Host.Outcome State Fault Refusal :=
  s.through w (pgSP p.val) PG_PWR_REQ.off fun c => (0, c.reqWrite (pgSP p.val) 2)

/-- A waiting domain takes an on slot (17, R469, R470, R473). -/
def execPowerOnSlotTaken (d : Fin 80) (s : State) : Host.Outcome State Fault Refusal :=
  s.go fun c => c.slotTake d.val

/-- A rising domain reaches the on state (17, R469; 14, R409; 15, R415). -/
def execPowerOnComplete (d : Fin 80) (s : State) : Host.Outcome State Fault Refusal :=
  s.go fun c => c.powerOn d.val

/-- A falling domain reaches off, or retention (17, R471). -/
def execPowerOffComplete (d : Fin 80) (s : State) : Host.Outcome State Fault Refusal :=
  s.go fun c => Chip.wdUnhold c.wdHeld (c.powerOff d.val)

/-- A fence has not completed within 100 us (17, R471). -/
def execFenceTimeout (d : Fin 80) (s : State) : Host.Outcome State Fault Refusal :=
  s.go fun c => Chip.wdUnhold c.wdHeld (c.fenceTimeout d.val)

/-- A monitor is judged good at a level in mV (17, R464, R466; 18, R492). -/
def execRailGood (n : Fin 24) (mv : BitVec 12) (s : State) : Host.Outcome State Fault Refusal :=
  s.go fun c => c.railUp n.val mv.toNat

/-- A monitor becomes bad at a level in mV (17, R464, R467; 18, R491, R504). -/
def execRailBad (n : Fin 24) (mv : BitVec 12) (s : State) : Host.Outcome State Fault Refusal :=
  .next (s.railBad n.val mv.toNat)

/-- The VCCO of a bank is lost (17, R468). -/
def execVccoLoss (b : Fin 20) (s : State) : Host.Outcome State Fault Refusal :=
  s.go fun c => c.vccoLoss b.val

/-- An emulated power-off is completed for real (20, R543). -/
def execEmulationEnd (d : Fin 80) (s : State) : Host.Outcome State Fault Refusal :=
  s.go fun c => Chip.wdUnhold c.wdHeld (c.emulOver d.val)

/-- The VCCO of a bank is back (17, R468). -/
def execVccoReturn (b : Fin 20) (s : State) : Host.Outcome State Fault Refusal :=
  s.go fun c => c.vccoReturn b.val

end Sys2Proof.Machine
end

