-- ==== Sys2Proof/Machine/CmdRegisters.lean ====
section
/-! DEFINITION. Register accesses and the common header: PG_CTL, forced and sticky faults (00; 01; 19). -/
namespace Sys2Proof.Machine

/-- A register write (00, R15 to R20; 01, R40 to R53). -/
def execRegisterWrite (w : Who) (pg : Nat) (off : Nat) (v : BitVec 32) (s : State) : Host.Outcome State Fault Refusal :=
  .next (s.writes w pg off v.toNat)

/-- A read of a register with RC fields (00, R18; 20, R534). -/
def execRcRead (w : Who) (pg : Nat) (off : Nat) (peek : Bool) (s : State) : Host.Outcome State Fault Refusal :=
  .next (s.reads w pg off peek)

/-- A read of the low half of a split register (04, R143; 06; 07, R203; 17; 20, R534). -/
def execSplitCounterRead (w : Who) (pg : Nat) (off : Nat) (peek : Bool) (s : State) : Host.Outcome State Fault Refusal :=
  .next (s.reads w pg off peek)

/-- A write of PG_CTL.RUN = 1 (01, R31, R45; 02, R77; 19, R516). -/
def execRunSet (w : Who) (pg : Nat) (s : State) : Host.Outcome State Fault Refusal :=
  s.through w pg PG_CTL_RUN.off fun c => (0, c.runSet pg)

/-- A write of PG_CTL.RUN = 0 (01, R44). -/
def execRunClear (w : Who) (pg : Nat) (s : State) : Host.Outcome State Fault Refusal :=
  s.through w pg PG_CTL_RUN.off fun c => (0, c.runClear pg)

/-- A write of PG_CTL.STOP_REQ = 1 (01, R46). -/
def execStopReq (w : Who) (pg : Nat) (s : State) : Host.Outcome State Fault Refusal :=
  s.through w pg PG_CTL_RUN.off fun c => (0, c.stopReq pg)

/-- A write of PG_CTL.SRST = 1 (01, R47). -/
def execSrst (w : Who) (pg : Nat) (s : State) : Host.Outcome State Fault Refusal :=
  s.through w pg PG_CTL_RUN.off fun c => (0, c.srst pg)

/-- A write of PG_CTL.CLKEN = 0 (01, R49; 16, R460). -/
def execClkenClear (w : Who) (pg : Nat) (s : State) : Host.Outcome State Fault Refusal :=
  s.through w pg PG_CTL_RUN.off fun c => (0, c.clkenClear pg)

/-- A write of PG_CTL.CLKEN = 1 (01, R49; 16, R461, R600). -/
def execClkenSet (w : Who) (pg : Nat) (s : State) : Host.Outcome State Fault Refusal :=
  s.through w pg PG_CTL_RUN.off fun c => (0, c.clkenSet pg)

/-- The unit of work in progress completes after RUN = 0 (01, R44). -/
def execOrderlyStopComplete (pg : Nat) (s : State) : Host.Outcome State Fault Refusal :=
  s.go fun c => c.stopComplete pg

/-- A function with RUN = 1 starts when it is idle (01, R45). -/
def execFunctionStart (pg : Nat) (s : State) : Host.Outcome State Fault Refusal :=
  s.go fun c => c.functionStart pg

/-- A write to PG_FFRC (19, R510). -/
def execFaultForce (w : Who) (pg : Nat) (v : BitVec 32) (s : State) : Host.Outcome State Fault Refusal :=
  s.through w pg PG_FFRC_FFRC.off fun c => (0, c.faultForce w pg v.toNat)

/-- A write to PG_FSTK (19, R511). -/
def execFaultStickyClear (w : Who) (pg : Nat) (v : BitVec 32) (s : State) : Host.Outcome State Fault Refusal :=
  s.through w pg PG_FSTK_FSTK.off fun c => (0, c.stickyClear pg v.toNat)

end Sys2Proof.Machine
end

