-- ==== Sys2Proof/Machine/CmdScratchpad.lean ====
section
/-! DEFINITION. The scratchpad and its DMA (13). -/
namespace Sys2Proof.Machine

/-- A write of SP_OWNb (13, R362). -/
def execBankHandover (w : Who) (b : Fin 128) (v : BitVec 32) (s : State) : Host.Outcome State Fault Refusal :=
  s.through w (pgSP 1) (SP_OWN_OWNER.off + SP_OWN_OWNER.stride * b.val) fun c => (0, c.bankHandover b.val v.toNat)

/-- The clear of a bank ends (13, R362). -/
def execBankClearDone (b : Fin 128) (s : State) : Host.Outcome State Fault Refusal :=
  s.go fun c => c.bankClearDone b.val

/-- A bank enters retention (13, R372). -/
def execBankRetention (b : Fin 128) (s : State) : Host.Outcome State Fault Refusal :=
  s.go fun c => c.bankRetain b.val

/-- A bank leaves retention (13, R372, R373). -/
def execBankWake (b : Fin 128) (s : State) : Host.Outcome State Fault Refusal :=
  s.go fun c => c.bankWake b.val

/-- A corrected word is written back (13, R365). -/
def execSpCeWriteback (word : Fin 4194304) (s : State) : Host.Outcome State Fault Refusal :=
  s.go fun c => c.spWriteback word.val

/-- A write of SP_DMACTLn with GO = 1 (13, R368). -/
def execDmaGo (w : Who) (ch : Fin 4) (v : BitVec 32) (s : State) : Host.Outcome State Fault Refusal :=
  s.through w (pgSP 2) (SP_DMACTL_GO.off + SP_DMACTL_GO.stride * ch.val) fun c => (0, c.writeScratch 2 (SP_DMACTL_GO.off + 0x20 * ch.val) (setBit v.toNat 0 true))

end Sys2Proof.Machine
end

