-- ==== Sys2Proof/Machine/CmdScrubbing.lean ====
section
/-! DEFINITION. The pouncer (11). -/
namespace Sys2Proof.Machine

/-- The pouncer scans a frame (11, R312 to R314). -/
def execScrubFrame (s : State) : Host.Outcome State Fault Refusal :=
  s.go fun c => c.scrubFrame

/-- The scan of the next engine begins (11, R318). -/
def execEngineScanStart (s : State) : Host.Outcome State Fault Refusal :=
  s.go fun c => c.engineScan

/-- An engine scan ends (11, R320, R322, R323). -/
def execEngineScanComplete (s : State) : Host.Outcome State Fault Refusal :=
  s.go fun c => c.scanComplete

/-- The scan of a member detached in case C begins (11, R322). -/
def execPriorityScanStart (s : State) : Host.Outcome State Fault Refusal :=
  s.go fun c => c.priorityScan

/-- A reload verifies its regions (11, R321, R322, R324). -/
def execReloadComplete (s : State) : Host.Outcome State Fault Refusal :=
  s.go fun c => c.reloadComplete

/-- A heartbeat is missing (11, R327). -/
def execHeartbeatMiss (s : State) : Host.Outcome State Fault Refusal :=
  s.go fun c => c.heartbeatMiss

/-- A triplicated copy is corrected (11, R326). -/
def execTmrCorrection (s : State) : Host.Outcome State Fault Refusal :=
  s.go fun c => c.scrubTmr

end Sys2Proof.Machine
end

