-- ==== Sys2Proof/Machine/CmdSerial.lean ====
section
/-! DEFINITION. The I2C and SPI targets (21). -/
namespace Sys2Proof.Machine

/-- An I2C write of 4 bytes (21, R567). -/
def execI2cSetPointer (off : BitVec 32) (s : State) : Host.Outcome State Fault Refusal :=
  s.go fun c => c.i2cPointer off.toNat

/-- An I2C write of 8 bytes (21, R567, R569). -/
def execI2cRegisterWrite (off : BitVec 32) (v : BitVec 32) (s : State) : Host.Outcome State Fault Refusal :=
  s.go fun c => c.serialAsk false true off.toNat v.toNat

/-- An I2C read takes the register at the pointer; `fresh` begins a transaction (21, R567, R569). -/
def execI2cRegisterRead (fresh : Bool) (s : State) : Host.Outcome State Fault Refusal :=
  s.go fun c => c.i2cRead fresh

/-- An SPI write frame (21, R568, R569). -/
def execSpiWrite (off : BitVec 32) (v : BitVec 32) (s : State) : Host.Outcome State Fault Refusal :=
  s.go fun c => c.serialAsk true true off.toNat v.toNat

/-- An SPI read frame (21, R568, R569). -/
def execSpiRead (off : BitVec 32) (s : State) : Host.Outcome State Fault Refusal :=
  s.go fun c => c.serialAsk true false off.toNat 0

/-- An I2C register access has been outstanding for 1 ms (21, R567). -/
def execI2cStretchTimeout (s : State) : Host.Outcome State Fault Refusal :=
  s.go fun c => c.serialTimeout false

/-- SCL has been low for 25 ms (21, R567). -/
def execI2cBusTimeout (s : State) : Host.Outcome State Fault Refusal :=
  s.go fun c => c.i2cReset

/-- An SPI register access has been outstanding for 1 ms (21, R568). -/
def execSpiTimeout (s : State) : Host.Outcome State Fault Refusal :=
  s.go fun c => c.serialTimeout true

end Sys2Proof.Machine
end

