-- ==== Sys2Proof/Machine/CmdStartup.lean ====
section
/-! DEFINITION. Start-up, reset and the host watchdog (18, 19). -/
namespace Sys2Proof.Machine

/-- Monitors 0 and 23 read good: AON begins the cold start with these straps (18, R492 to R494; 21, R561). -/
def execColdStart (dev : BitVec 6) (mode : BitVec 2) (pudc : Bool) (s : State) : Host.Outcome State Fault Refusal :=
  .next (s.coldStart dev mode pudc)

/-- RESET_N has been low for 1 us, or is high again (18, R498). -/
def execResetN (low : Bool) (s : State) : Host.Outcome State Fault Refusal :=
  s.go fun c => c.resetPin low

/-- A write of GL_RSTCTL with WARM = 1 (18, R501). -/
def execWarmResetRequest (w : Who) (v : BitVec 32) (s : State) : Host.Outcome State Fault Refusal :=
  s.through w pgGL GL_RSTCTL_WARM.off fun c => c.writeGlobal w GL_RSTCTL_WARM.off (setBit v.toNat 0 true)

/-- The warm reset is released (18, R498, R499). -/
def execWarmResetRelease (dev : BitVec 6) (mode : BitVec 2) (pudc : Bool) (s : State) : Host.Outcome State Fault Refusal :=
  s.go fun c => c.warmRelease dev mode pudc

/-- A write to GL_WDCTL (19, R521). -/
def execWatchdogControl (w : Who) (v : BitVec 32) (s : State) : Host.Outcome State Fault Refusal :=
  s.through w pgGL GL_WDCTL_EN.off fun c => c.writeGlobal w GL_WDCTL_EN.off v.toNat

/-- A write to GL_WDKICK (19, R520). -/
def execWatchdogKick (w : Who) (v : BitVec 32) (s : State) : Host.Outcome State Fault Refusal :=
  s.through w pgGL GL_WDKICK_KICK.off fun c => c.writeGlobal w GL_WDKICK_KICK.off v.toNat

/-- The route record load completes (18, R495). -/
def execRouteRecordLoad (s : State) : Host.Outcome State Fault Refusal :=
  s.go fun c => c.routeLoad

/-- The device reaches READY (18, R492, R503). -/
def execDeviceReady (s : State) : Host.Outcome State Fault Refusal :=
  s.go fun c => c.deviceReady

/-- The count reaches the warning point (19, R520). -/
def execWatchdogWarn (s : State) : Host.Outcome State Fault Refusal :=
  s.go fun c => c.wdWarn

/-- The count reaches 0 (19, R520). -/
def execWatchdogExpire (s : State) : Host.Outcome State Fault Refusal :=
  s.go fun c => c.wdZero

end Sys2Proof.Machine
end

