-- ==== Sys2Proof/Machine/CmdStream.lean ====
section
/-! DEFINITION. The configuration stream (10). -/
namespace Sys2Proof.Machine

/-- The configuration port takes a word (10, R293; 18, R497; 20, R546). -/
def execCfgPortWord (x : BitVec 16) (s : State) : Host.Outcome State Fault Refusal :=
  s.go fun c => c.portWordIn x

/-- The AUTH frame at the front of the buffer is taken; `gmask` is the group mask of an image that a released LOADJLI names outside the scratchpad (10, R290, R291). -/
def execAuth (gmask : Nat) (s : State) : Host.Outcome State Fault Refusal :=
  s.go fun c => c.takeFrame (isType 8) gmask

/-- LOADJLI; `gmask` is the group mask of an image outside the scratchpad (10, R300, R307). -/
def execCmdLoadjli (gmask : Nat) (s : State) : Host.Outcome State Fault Refusal :=
  s.go fun c => c.cmdLoadjli gmask

/-- START takes effect in a sector; `high`: CFG_DONE has been high for 100 ns (10, R298, R302). -/
def execStartSector (n : Fin 8) (high : Bool) (s : State) : Host.Outcome State Fault Refusal :=
  s.go fun c => c.startEdge n.val high

/-- A write of CF_SRCCTL with GO = 1 (10, R296). -/
def execStreamSourceGo (w : Who) (v : BitVec 32) (s : State) : Host.Outcome State Fault Refusal :=
  s.through w pgCF CF_SRCCTL_GO.off fun c => (0, c.writeConfig CF_SRCCTL_GO.off (setBit v.toNat 0 true))

/-- A write of CF_CTL with ABORT = 1 (10, R306). -/
def execStreamAbort (w : Who) (v : BitVec 32) (s : State) : Host.Outcome State Fault Refusal :=
  s.through w pgCF CF_CTL_ABORT.off fun c => (0, c.writeConfig CF_CTL_ABORT.off (setBit v.toNat 8 true))

/-- A sync marker starts a new stream (10, R282, R294). -/
def execSyncMarker (s : State) : Host.Outcome State Fault Refusal :=
  s.go fun c => c.syncStart

/-- The TILE frame at the front of the buffer is taken (10, R283 to R286). -/
def execTile (s : State) : Host.Outcome State Fault Refusal :=
  s.go fun c => c.takeFrame (isType 1)

/-- The SITE frame at the front of the buffer is taken (10, R283 to R286). -/
def execSite (s : State) : Host.Outcome State Fault Refusal :=
  s.go fun c => c.takeFrame (isType 2)

/-- The BRDATA frame at the front of the buffer is taken (10, R283 to R286). -/
def execBrdata (s : State) : Host.Outcome State Fault Refusal :=
  s.go fun c => c.takeFrame (isType 3)

/-- The IOBANK frame at the front of the buffer is taken (10, R283 to R286). -/
def execIobank (s : State) : Host.Outcome State Fault Refusal :=
  s.go fun c => c.takeFrame (isType 4)

/-- The DATA frame at the front of the buffer is taken (10, R283 to R287). -/
def execData (s : State) : Host.Outcome State Fault Refusal :=
  s.go fun c => c.takeFrame (isType 5)

/-- The REGW frame at the front of the buffer is taken (10, R283 to R288). -/
def execRegw (s : State) : Host.Outcome State Fault Refusal :=
  s.go fun c => c.takeFrame (isType 6)

/-- The NOP frame at the front of the buffer is taken (10, R283). -/
def execNop (s : State) : Host.Outcome State Fault Refusal :=
  s.go fun c => c.takeFrame isNop

/-- END (10, R298, R302). -/
def execCmdEnd (s : State) : Host.Outcome State Fault Refusal :=
  s.go fun c => c.takeFrame isEnd

/-- PARTIAL (10, R299 to R301). -/
def execCmdPartial (s : State) : Host.Outcome State Fault Refusal :=
  s.go fun c => c.cmdPartial

/-- CLEAR (10, R304, R308). -/
def execCmdClear (s : State) : Host.Outcome State Fault Refusal :=
  s.go fun c => c.takeFrame (isCmd 4)

/-- WAITON (10, R289). -/
def execCmdWaiton (s : State) : Host.Outcome State Fault Refusal :=
  s.go fun c => c.cmdWaiton

/-- DELAY (10, R289). -/
def execCmdDelay (s : State) : Host.Outcome State Fault Refusal :=
  s.go fun c => c.takeFrame (isCmd 6)

/-- The DELAY time has passed (10, R289). -/
def execDelayExpire (s : State) : Host.Outcome State Fault Refusal :=
  s.go fun c => c.delayDone

/-- A WAITON has lasted 10 ms (10, R289). -/
def execWaitonTimeout (s : State) : Host.Outcome State Fault Refusal :=
  s.go fun c => c.waitonTimeout

/-- A named group is not idle within 1 ms (10, R299). -/
def execPartialTimeout (s : State) : Host.Outcome State Fault Refusal :=
  s.go fun c => c.partialTimeout

/-- CFG_ERR_N is sampled low on two edges (10, R295). -/
def execRemoteError (s : State) : Host.Outcome State Fault Refusal :=
  s.go fun c => c.remoteError

end Sys2Proof.Machine
end

