-- ==== Sys2Proof/Machine/Dispatch.lean ====
section
/-! DEFINITION. Which meaning each command has. -/
namespace Sys2Proof.Machine

/-- The effect of a command on everything but the queue. -/
def exec (i : Instr) (s : State) : Host.Outcome State Fault Refusal :=
  match i with
  | .registerWrite w pg off v => Sys2Proof.Machine.execRegisterWrite w pg off v s
  | .rcRead w pg off peek => Sys2Proof.Machine.execRcRead w pg off peek s
  | .splitCounterRead w pg off peek => Sys2Proof.Machine.execSplitCounterRead w pg off peek s
  | .runSet w pg => Sys2Proof.Machine.execRunSet w pg s
  | .runClear w pg => Sys2Proof.Machine.execRunClear w pg s
  | .stopReq w pg => Sys2Proof.Machine.execStopReq w pg s
  | .srst w pg => Sys2Proof.Machine.execSrst w pg s
  | .clkenClear w pg => Sys2Proof.Machine.execClkenClear w pg s
  | .clkenSet w pg => Sys2Proof.Machine.execClkenSet w pg s
  | .orderlyStopComplete pg => Sys2Proof.Machine.execOrderlyStopComplete pg s
  | .functionStart pg => Sys2Proof.Machine.execFunctionStart pg s
  | .faultForce w pg v => Sys2Proof.Machine.execFaultForce w pg v s
  | .faultStickyClear w pg v => Sys2Proof.Machine.execFaultStickyClear w pg v s
  | .powerOnRequest w pg => Sys2Proof.Machine.execPowerOnRequest w pg s
  | .powerOffRequest w pg => Sys2Proof.Machine.execPowerOffRequest w pg s
  | .retentionRequest w p => Sys2Proof.Machine.execRetentionRequest w p s
  | .powerOnSlotTaken d => Sys2Proof.Machine.execPowerOnSlotTaken d s
  | .powerOnComplete d => Sys2Proof.Machine.execPowerOnComplete d s
  | .powerOffComplete d => Sys2Proof.Machine.execPowerOffComplete d s
  | .fenceTimeout d => Sys2Proof.Machine.execFenceTimeout d s
  | .railGood n mv => Sys2Proof.Machine.execRailGood n mv s
  | .railBad n mv => Sys2Proof.Machine.execRailBad n mv s
  | .vccoLoss b => Sys2Proof.Machine.execVccoLoss b s
  | .emulationEnd d => Sys2Proof.Machine.execEmulationEnd d s
  | .groupStart g => Sys2Proof.Machine.execGroupStart g s
  | .paceEdge p rising held pins => Sys2Proof.Machine.execPaceEdge p rising held pins s
  | .paceEvent ks => Sys2Proof.Machine.execPaceEvent ks s
  | .resyncCapture g => Sys2Proof.Machine.execResyncCapture g s
  | .paceLate g => Sys2Proof.Machine.execPaceLate g s
  | .lapInputPhase g loose => Sys2Proof.Machine.execLapInputPhase g loose s
  | .computeStep g loose => Sys2Proof.Machine.execComputeStep g loose s
  | .lapCommit g loose => Sys2Proof.Machine.execLapCommit g loose s
  | .replayDecision g loose => Sys2Proof.Machine.execReplayDecision g loose s
  | .lapOutputPhase g loose => Sys2Proof.Machine.execLapOutputPhase g loose s
  | .lapComplete g loose energy => Sys2Proof.Machine.execLapComplete g loose energy s
  | .loaderGo w v => Sys2Proof.Machine.execLoaderGo w v s
  | .loaderAbort w v => Sys2Proof.Machine.execLoaderAbort w v s
  | .loaderCheckPassDone img err => Sys2Proof.Machine.execLoaderCheckPassDone img err s
  | .loaderWritePassDone img err => Sys2Proof.Machine.execLoaderWritePassDone img err s
  | .lockstepArm w v => Sys2Proof.Machine.execLockstepArm w v s
  | .lockstepSync w v => Sys2Proof.Machine.execLockstepSync w v s
  | .lockstepStop w v => Sys2Proof.Machine.execLockstepStop w v s
  | .lockstepDisarm w v => Sys2Proof.Machine.execLockstepDisarm w v s
  | .lssync p => Sys2Proof.Machine.execLssync p s
  | .lsdata p => Sys2Proof.Machine.execLsdata p s
  | .lsstop p => Sys2Proof.Machine.execLsstop p s
  | .pairDetach w e => Sys2Proof.Machine.execPairDetach w e s
  | .pairRejoin w e => Sys2Proof.Machine.execPairRejoin w e s
  | .batchEnable w g v => Sys2Proof.Machine.execBatchEnable w g v s
  | .batchDisable w g v => Sys2Proof.Machine.execBatchDisable w g v s
  | .looseLapAdmit g => Sys2Proof.Machine.execLooseLapAdmit g s
  | .budgetWord g => Sys2Proof.Machine.execBudgetWord g s
  | .traceEnable w g v => Sys2Proof.Machine.execTraceEnable w g v s
  | .traceDisable w g v => Sys2Proof.Machine.execTraceDisable w g v s
  | .traceFlush w g v => Sys2Proof.Machine.execTraceFlush w g v s
  | .traceFlitTimeout g => Sys2Proof.Machine.execTraceFlitTimeout g s
  | .macrocellClock k rising same pins => Sys2Proof.Machine.execMacrocellClock k rising same pins s
  | .fmpRequest n p same => Sys2Proof.Machine.execFmpRequest n p same s
  | .fmpWriteBeat n p same => Sys2Proof.Machine.execFmpWriteBeat n p same s
  | .fmpResponseBeat n p same => Sys2Proof.Machine.execFmpResponseBeat n p same s
  | .fmpLateBeat n p same => Sys2Proof.Machine.execFmpLateBeat n p same s
  | .bramPortAccess n b same => Sys2Proof.Machine.execBramPortAccess n b same s
  | .bramWindowAccess place same => Sys2Proof.Machine.execBramWindowAccess place same s
  | .bramWindowTimeout place => Sys2Proof.Machine.execBramWindowTimeout place s
  | .sliceHold n same => Sys2Proof.Machine.execSliceHold n same s
  | .sliceLoad n same => Sys2Proof.Machine.execSliceLoad n same s
  | .sliceAccum n same => Sys2Proof.Machine.execSliceAccum n same s
  | .sliceCasc n same => Sys2Proof.Machine.execSliceCasc n same s
  | .sliceClear n same => Sys2Proof.Machine.execSliceClear n same s
  | .sliceLoady n same => Sys2Proof.Machine.execSliceLoady n same s
  | .sliceAddy n same => Sys2Proof.Machine.execSliceAddy n same s
  | .seqEnable q => Sys2Proof.Machine.execSeqEnable q s
  | .seqNop q same => Sys2Proof.Machine.execSeqNop q same s
  | .seqSlice q same => Sys2Proof.Machine.execSeqSlice q same s
  | .seqLoop q same => Sys2Proof.Machine.execSeqLoop q same s
  | .seqJump q same => Sys2Proof.Machine.execSeqJump q same s
  | .seqSetar q same => Sys2Proof.Machine.execSeqSetar q same s
  | .seqWait q same => Sys2Proof.Machine.execSeqWait q same s
  | .seqBscale q same => Sys2Proof.Machine.execSeqBscale q same s
  | .seqHalt q same => Sys2Proof.Machine.execSeqHalt q same s
  | .seqSetk q same => Sys2Proof.Machine.execSeqSetk q same s
  | .seqIllegal q same => Sys2Proof.Machine.execSeqIllegal q same s
  | .cfgPortWord x => Sys2Proof.Machine.execCfgPortWord x s
  | .auth gmask => Sys2Proof.Machine.execAuth gmask s
  | .cmdLoadjli gmask => Sys2Proof.Machine.execCmdLoadjli gmask s
  | .startSector n high => Sys2Proof.Machine.execStartSector n high s
  | .streamSourceGo w v => Sys2Proof.Machine.execStreamSourceGo w v s
  | .streamAbort w v => Sys2Proof.Machine.execStreamAbort w v s
  | .unitRequestIssue place => Sys2Proof.Machine.execUnitRequestIssue place s
  | .requestInject place => Sys2Proof.Machine.execRequestInject place s
  | .routerHeadFlit place fixed bad header => Sys2Proof.Machine.execRouterHeadFlit place fixed bad header s
  | .read place => Sys2Proof.Machine.execRead place s
  | .write place => Sys2Proof.Machine.execWrite place s
  | .regrd place => Sys2Proof.Machine.execRegrd place s
  | .regwr place => Sys2Proof.Machine.execRegwr place s
  | .rsp place => Sys2Proof.Machine.execRsp place s
  | .late place => Sys2Proof.Machine.execLate place s
  | .rsvreq place => Sys2Proof.Machine.execRsvreq place s
  | .rsvgnt place => Sys2Proof.Machine.execRsvgnt place s
  | .routeWrite w n index order => Sys2Proof.Machine.execRouteWrite w n index order s
  | .routeRead w n index order => Sys2Proof.Machine.execRouteRead w n index order s
  | .freelost w n v => Sys2Proof.Machine.execFreelost w n v s
  | .niTimeout n tag => Sys2Proof.Machine.execNiTimeout n tag s
  | .bankHandover w b v => Sys2Proof.Machine.execBankHandover w b v s
  | .bankClearDone b => Sys2Proof.Machine.execBankClearDone b s
  | .bankRetention b => Sys2Proof.Machine.execBankRetention b s
  | .bankWake b => Sys2Proof.Machine.execBankWake b s
  | .spCeWriteback word => Sys2Proof.Machine.execSpCeWriteback word s
  | .dmaGo w ch v => Sys2Proof.Machine.execDmaGo w ch v s
  | .keyLoad w m slot => Sys2Proof.Machine.execKeyLoad w m slot s
  | .keyNewkey w m slot => Sys2Proof.Machine.execKeyNewkey w m slot s
  | .keyClear w m slot => Sys2Proof.Machine.execKeyClear w m slot s
  | .keyTreekey w m => Sys2Proof.Machine.execKeyTreekey w m s
  | .keyGrpfree w m => Sys2Proof.Machine.execKeyGrpfree w m s
  | .keyGrpinit w m => Sys2Proof.Machine.execKeyGrpinit w m s
  | .keyRightsWrite w m slot rights => Sys2Proof.Machine.execKeyRightsWrite w m slot rights s
  | .stateSave w m v => Sys2Proof.Machine.execStateSave w m v s
  | .treeInit w m p => Sys2Proof.Machine.execTreeInit w m p s
  | .rekeyGo w m v => Sys2Proof.Machine.execRekeyGo w m v s
  | .rekeyLine m => Sys2Proof.Machine.execRekeyLine m s
  | .bgReencryptLine m => Sys2Proof.Machine.execBgReencryptLine m s
  | .poisonClear w m n => Sys2Proof.Machine.execPoisonClear w m n s
  | .rdata q => Sys2Proof.Machine.execRdata q s
  | .wack q => Sys2Proof.Machine.execWack q s
  | .info q => Sys2Proof.Machine.execInfo q s
  | .pmpTimeout q tag => Sys2Proof.Machine.execPmpTimeout q tag s
  | .quadLoopLock q => Sys2Proof.Machine.execQuadLoopLock q s
  | .laneLock l => Sys2Proof.Machine.execLaneLock l s
  | .laneLockLoss l => Sys2Proof.Machine.execLaneLockLoss l s
  | .lanePowerRequest w l r => Sys2Proof.Machine.execLanePowerRequest w l r s
  | .lanePowerDone l => Sys2Proof.Machine.execLanePowerDone l s
  | .ringEnable w l tx => Sys2Proof.Machine.execRingEnable w l tx s
  | .rxLine l x => Sys2Proof.Machine.execRxLine l x s
  | .portEnable w p => Sys2Proof.Machine.execPortEnable w p s
  | .linkFlit p f => Sys2Proof.Machine.execLinkFlit p f s
  | .ack p b => Sys2Proof.Machine.execAck p b s
  | .nak p b => Sys2Proof.Machine.execNak p b s
  | .announce p b => Sys2Proof.Machine.execAnnounce p b s
  | .glide p b => Sys2Proof.Machine.execGlide p b s
  | .shed p b => Sys2Proof.Machine.execShed p b s
  | .shedack p b => Sys2Proof.Machine.execShedack p b s
  | .linkReplayTimeout p => Sys2Proof.Machine.execLinkReplayTimeout p s
  | .glideIdleTimeout p => Sys2Proof.Machine.execGlideIdleTimeout p s
  | .rewiden w p v => Sys2Proof.Machine.execRewiden w p v s
  | .bar0Request form write off dw be data => Sys2Proof.Machine.execBar0Request form write off dw be data s
  | .bar2Request form write off len bytes => Sys2Proof.Machine.execBar2Request form write off len bytes s
  | .msixForce w high v => Sys2Proof.Machine.execMsixForce w high v s
  | .refclkQualifyCount edges => Sys2Proof.Machine.execRefclkQualifyCount edges s
  | .refclkWindow count => Sys2Proof.Machine.execRefclkWindow count s
  | .loopLock l => Sys2Proof.Machine.execLoopLock l s
  | .fpllEnable w m v => Sys2Proof.Machine.execFpllEnable w m v s
  | .fpllLockLoss m => Sys2Proof.Machine.execFpllLockLoss m s
  | .fclkSwitch w n v => Sys2Proof.Machine.execFclkSwitch w n v s
  | .clockSwitchTimeout n => Sys2Proof.Machine.execClockSwitchTimeout n s
  | .gateHandshake pg => Sys2Proof.Machine.execGateHandshake pg s
  | .gateHandshakeTimeout pg => Sys2Proof.Machine.execGateHandshakeTimeout pg s
  | .epoch energy loose => Sys2Proof.Machine.execEpoch energy loose s
  | .sensorReading n temp => Sys2Proof.Machine.execSensorReading n temp s
  | .sensorCalibration n pass => Sys2Proof.Machine.execSensorCalibration n pass s
  | .ageingReading g marg => Sys2Proof.Machine.execAgeingReading g marg s
  | .biasApply g => Sys2Proof.Machine.execBiasApply g s
  | .coldStart dev mode pudc => Sys2Proof.Machine.execColdStart dev mode pudc s
  | .resetN low => Sys2Proof.Machine.execResetN low s
  | .warmResetRequest w v => Sys2Proof.Machine.execWarmResetRequest w v s
  | .warmResetRelease dev mode pudc => Sys2Proof.Machine.execWarmResetRelease dev mode pudc s
  | .watchdogControl w v => Sys2Proof.Machine.execWatchdogControl w v s
  | .watchdogKick w v => Sys2Proof.Machine.execWatchdogKick w v s
  | .brokenPair pg b => Sys2Proof.Machine.execBrokenPair pg b s
  | .faultAck w => Sys2Proof.Machine.execFaultAck w s
  | .extest pins => Sys2Proof.Machine.execExtest pins s
  | .samplePreload cells pins => Sys2Proof.Machine.execSamplePreload cells pins s
  | .dbaccUpdate x => Sys2Proof.Machine.execDbaccUpdate x s
  | .challenge w level => Sys2Proof.Machine.execChallenge w level s
  | .verify w => Sys2Proof.Machine.execVerify w s
  | .drop w => Sys2Proof.Machine.execDrop w s
  | .debugRequest w v => Sys2Proof.Machine.execDebugRequest w v s
  | .halt w high v => Sys2Proof.Machine.execHalt w high v s
  | .haltEffect g => Sys2Proof.Machine.execHaltEffect g s
  | .release w high v => Sys2Proof.Machine.execRelease w high v s
  | .step w high v => Sys2Proof.Machine.execStep w high v s
  | .seqDebugHalt w v => Sys2Proof.Machine.execSeqDebugHalt w v s
  | .seqDebugStep w v => Sys2Proof.Machine.execSeqDebugStep w v s
  | .seqDebugRelease w v => Sys2Proof.Machine.execSeqDebugRelease w v s
  | .ffReadback w peek => Sys2Proof.Machine.execFfReadback w peek s
  | .freezePin low => Sys2Proof.Machine.execFreezePin low s
  | .freezeRequest w v => Sys2Proof.Machine.execFreezeRequest w v s
  | .flashRead w => Sys2Proof.Machine.execFlashRead w s
  | .flashProgram w => Sys2Proof.Machine.execFlashProgram w s
  | .flashErase w => Sys2Proof.Machine.execFlashErase w s
  | .flashRefresh sector => Sys2Proof.Machine.execFlashRefresh sector s
  | .softwareRecord w code => Sys2Proof.Machine.execSoftwareRecord w code s
  | .clearChallenge w => Sys2Proof.Machine.execClearChallenge w s
  | .clearVerify w => Sys2Proof.Machine.execClearVerify w s
  | .recorderClear w => Sys2Proof.Machine.execRecorderClear w s
  | .uartRecord rx => Sys2Proof.Machine.execUartRecord rx s
  | .uartEnable w v => Sys2Proof.Machine.execUartEnable w v s
  | .i2cSetPointer off => Sys2Proof.Machine.execI2cSetPointer off s
  | .i2cRegisterWrite off v => Sys2Proof.Machine.execI2cRegisterWrite off v s
  | .i2cRegisterRead fresh => Sys2Proof.Machine.execI2cRegisterRead fresh s
  | .spiWrite off v => Sys2Proof.Machine.execSpiWrite off v s
  | .spiRead off => Sys2Proof.Machine.execSpiRead off s
  | .hostLinkUp width speed => Sys2Proof.Machine.execHostLinkUp width speed s
  | .hostConfigRequest type1 write n be data => Sys2Proof.Machine.execHostConfigRequest type1 write n be data s
  | .vccoReturn b => Sys2Proof.Machine.execVccoReturn b s
  | .clockSwitchDone n => Sys2Proof.Machine.execClockSwitchDone n s
  | .pairRailsValid pg b => Sys2Proof.Machine.execPairRailsValid pg b s
  | .rootCopyVote q failed => Sys2Proof.Machine.execRootCopyVote q failed s
  | .syncMarker => Sys2Proof.Machine.execSyncMarker s
  | .tile => Sys2Proof.Machine.execTile s
  | .site => Sys2Proof.Machine.execSite s
  | .brdata => Sys2Proof.Machine.execBrdata s
  | .iobank => Sys2Proof.Machine.execIobank s
  | .data => Sys2Proof.Machine.execData s
  | .regw => Sys2Proof.Machine.execRegw s
  | .nop => Sys2Proof.Machine.execNop s
  | .cmdEnd => Sys2Proof.Machine.execCmdEnd s
  | .cmdPartial => Sys2Proof.Machine.execCmdPartial s
  | .cmdClear => Sys2Proof.Machine.execCmdClear s
  | .cmdWaiton => Sys2Proof.Machine.execCmdWaiton s
  | .cmdDelay => Sys2Proof.Machine.execCmdDelay s
  | .delayExpire => Sys2Proof.Machine.execDelayExpire s
  | .waitonTimeout => Sys2Proof.Machine.execWaitonTimeout s
  | .partialTimeout => Sys2Proof.Machine.execPartialTimeout s
  | .remoteError => Sys2Proof.Machine.execRemoteError s
  | .scrubFrame => Sys2Proof.Machine.execScrubFrame s
  | .engineScanStart => Sys2Proof.Machine.execEngineScanStart s
  | .engineScanComplete => Sys2Proof.Machine.execEngineScanComplete s
  | .priorityScanStart => Sys2Proof.Machine.execPriorityScanStart s
  | .reloadComplete => Sys2Proof.Machine.execReloadComplete s
  | .heartbeatMiss => Sys2Proof.Machine.execHeartbeatMiss s
  | .tmrCorrection => Sys2Proof.Machine.execTmrCorrection s
  | .perst => Sys2Proof.Machine.execPerst s
  | .hotReset => Sys2Proof.Machine.execHotReset s
  | .functionLevelReset => Sys2Proof.Machine.execFunctionLevelReset s
  | .hostLinkDown => Sys2Proof.Machine.execHostLinkDown s
  | .refclkWaitTimeout => Sys2Proof.Machine.execRefclkWaitTimeout s
  | .refclkLoss => Sys2Proof.Machine.execRefclkLoss s
  | .routeRecordLoad => Sys2Proof.Machine.execRouteRecordLoad s
  | .deviceReady => Sys2Proof.Machine.execDeviceReady s
  | .watchdogWarn => Sys2Proof.Machine.execWatchdogWarn s
  | .watchdogExpire => Sys2Proof.Machine.execWatchdogExpire s
  | .faultReport => Sys2Proof.Machine.execFaultReport s
  | .fltpWidthExpire => Sys2Proof.Machine.execFltpWidthExpire s
  | .tapReset => Sys2Proof.Machine.execTapReset s
  | .idcode => Sys2Proof.Machine.execIdcode s
  | .clamp => Sys2Proof.Machine.execClamp s
  | .highz => Sys2Proof.Machine.execHighz s
  | .dbacc => Sys2Proof.Machine.execDbacc s
  | .bypass => Sys2Proof.Machine.execBypass s
  | .freezeBegin => Sys2Proof.Machine.execFreezeBegin s
  | .freezeComplete => Sys2Proof.Machine.execFreezeComplete s
  | .thaw => Sys2Proof.Machine.execThaw s
  | .flashCommandDone => Sys2Proof.Machine.execFlashCommandDone s
  | .recordProgram => Sys2Proof.Machine.execRecordProgram s
  | .rateWindowEnd => Sys2Proof.Machine.execRateWindowEnd s
  | .recordSearchDone => Sys2Proof.Machine.execRecordSearchDone s
  | .timewrap => Sys2Proof.Machine.execTimewrap s
  | .clearEraseDone => Sys2Proof.Machine.execClearEraseDone s
  | .clearAuthLapse => Sys2Proof.Machine.execClearAuthLapse s
  | .i2cStretchTimeout => Sys2Proof.Machine.execI2cStretchTimeout s
  | .i2cBusTimeout => Sys2Proof.Machine.execI2cBusTimeout s
  | .spiTimeout => Sys2Proof.Machine.execSpiTimeout s
  | .perstNRelease => Sys2Proof.Machine.execPerstNRelease s
  | .fltpHoldoffExpire => Sys2Proof.Machine.execFltpHoldoffExpire s

end Sys2Proof.Machine
end

