-- ==== Sys2Proof/Safety.lean ====
section
/-! DEFINITION. The terms in which claims speak: a command that completes, what it leaves alone, what a register write
reaches, and the values that are legal. -/
namespace Sys2Proof.Machine

/-- A command answers a next state of which something holds. -/
def Completes (i : Instr) (s : State) (P : State → Prop) : Prop := ∃ t, exec i s = .next t ∧ P t

/-- Only the device has changed: the test access port, the last answer and the queue are as before. -/
def State.device (s t : State) : Prop := t = { s with chip := t.chip }

/-- The device and the test access port alone have changed. -/
def State.ported (s t : State) : Prop := t = { s with chip := t.chip, tap := t.tap }

/-- Only the device has changed, and the register access was performed. -/
def State.performed (s t : State) : Prop := t = { s with chip := t.chip, code := 0 }

/-- A write by a master reaches a register: no check of R34 refuses it (01, R33, R34). -/
def State.reaches (s : State) (w : Who) (pg off : Nat) : Prop := s.chip.regReach w pg off true = 0

/-- Of a device, only register fields have changed. -/
def Chip.onlyRegs (c d : Chip) : Prop := d = { c with regs := d.regs }

/-- Of a device, only register fields and the fault collector have changed. -/
def Chip.onlyRegsFaults (c d : Chip) : Prop := d = { c with regs := d.regs, flt := d.flt }

/-- Every register field but those of these keys is as before. -/
def Chip.fieldsKept (c d : Chip) (ks : List Nat) : Prop :=
  ∀ k, k ∉ ks → ∀ e, Store.get e d.regs k = Store.get e c.regs k

/-- Every register field is as before. -/
def Chip.sameRegs (c d : Chip) : Prop := d.regs = c.regs

/-- A report of a source waits for the collector (19, R508). -/
def Chip.reported (c : Chip) (pg b : Nat) : Prop := ∃ r ∈ c.flt.waiting, r.page = pg ∧ r.bit = b

/-- A report of a source can be made: its pair is valid, and its domain is on (19, R508, R509). -/
def Chip.mayReport (c : Chip) (pg b : Nat) : Prop := (pg, b) ∉ c.flt.brokenPairs ∧ c.domOn (domOf pg) = true

/-- A block whose start may refuse, and clear RUN: a lane quad and a memory port (14, R381; 15, R417). -/
def startRefuses (pg : Nat) : Bool :=
  match pageKind pg with
  | some (.ln, _) => true
  | some (.ml, _) => true
  | _ => false

/-- A block whose start does nothing but set RUNNING (01, R45). -/
def startsAlone (pg : Nat) : Bool :=
  match pageKind pg with
  | some (.ln, _) => false
  | some (.ml, _) => false
  | some (.as, _) => false
  | some (.eg, _) => false
  | some (.ee, _) => false
  | _ => true

/-- A block whose orderly stop, begun by RUN = 0, moves nothing but RUN and RUNNING (01, R44). -/
def stopsAlone (pg : Nat) : Bool :=
  match pageKind pg with
  | some (.ln, _) => false
  | some (.ml, _) => false
  | some (.as, _) => false
  | some (.eg, _) => false
  | some (.ee, _) => false
  | some (.cf, _) => false
  | some (.hp, _) => false
  | _ => true

/-- A block whose function ends with RUNNING alone (01, R44). -/
def stopsPlain (pg : Nat) : Bool :=
  match pageKind pg with
  | some (.ln, _) => false
  | some (.eg, _) => false
  | _ => true

/-- A block whose soft reset returns every register field at offset 0x040 and above, and no field elsewhere (01, R47). -/
def clearsAlone (pg : Nat) : Bool :=
  match pageKind pg with
  | some (.cf, _) => true
  | some (.sc, _) => true
  | some (.mc, _) => true
  | some (.ml, _) => true
  | some (.sp, _) => true
  | some (.fb, _) => true
  | some (.br, _) => true
  | some (.as, _) => true
  | _ => false

/-- The function of a page is not running, and could start: its domain is on, it has its clock, it is idle (01, R45). -/
def Chip.startable (c : Chip) (pg : Nat) : Bool :=
  c.domOn (domOf pg) && c.gate pg == .opened && c.pageMoves pg && c.pageQuiet pg && !c.running pg && !c.stopping.contains pg

/-- A page whose block registers are plain: a write does nothing but what the access types of its fields say. -/
def plainPage (pg : Nat) : Bool :=
  match pageKind pg with
  | some (.pw, _) => true
  | some (.sc, _) => true
  | some (.ncr, _) => true
  | some (.br, _) => true
  | some (.ml, _) => true
  | _ => false

/-- What a field holds after a write of its register (00, R17, R18): a read-write field takes its bits unless they are a
reserved encoding, a locked one only while RUN is 0; a write-only field takes its bits; a write of 1 clears a bit of a
write-one-to-clear field; any other field stays. -/
def Chip.fieldAfter (c : Chip) (pg v : Nat) (Fi : Fld × Nat) : Nat :=
  let F := Fi.1
  let old := c.get F pg Fi.2
  let x := bitsOf v F.hi F.lo
  let takes := if c.reserved F pg Fi.2 x then old else x
  match F.acc with
  | .rw => takes
  | .rwl => if c.run pg then old else takes
  | .wo => x
  | .w1c => (old &&& (x ^^^ (2 ^ F.width - 1))) % 2 ^ F.width
  | _ => old

/-- A record has been entered in the front buffer: it takes the SEQ after EV_HEAD, which moves to it, and EV_TAIL with it
where there was no record; of the register fields no other has changed but those of `more` (21, R558). -/
def Chip.entered (c d : Chip) (r : Rec) (more : List Nat) : Prop :=
  d.ev.buf = c.ev.buf ++ [{ r with seq := BitVec.ofNat 32 ((c.get EV_HEAD_SEQ pgEV + 1) % 2 ^ 32) }] ∧
    d.get EV_HEAD_SEQ pgEV = (c.get EV_HEAD_SEQ pgEV + 1) % 2 ^ 32 ∧ d.get EV_STS_BUF pgEV = c.ev.buf.length + 1 ∧
    d.get EV_STS_EMPTY pgEV ≠ 1 ∧
    d.get EV_TAIL_SEQ pgEV = (if c.get EV_STS_EMPTY pgEV = 1 then (c.get EV_HEAD_SEQ pgEV + 1) % 2 ^ 32 else c.get EV_TAIL_SEQ pgEV) ∧
    c.fieldsKept d ([EV_HEAD_SEQ.key pgEV 0, EV_STS_BUF.key pgEV 0, EV_STS_EMPTY.key pgEV 0, EV_TAIL_SEQ.key pgEV 0] ++ more)

/-- The recorder's front buffer takes a record: it has room, and the ring search of a cold start is over (21, R559,
R561). -/
def Chip.bufferOpen (c : Chip) : Prop := c.ev.searching = false ∧ c.ev.buf.length + c.ev.early.length < 1024

/-- The 32 bytes of a unit stand in the flash at an address. -/
def Chip.unitHolds (c : Chip) (a : Nat) (b : List (BitVec 8)) : Prop :=
  ∀ i < 4, c.flashWord (a / 8 + i) = secded (BitVec.ofNat 64 (leAt b (8 * i) 8))

/-- No flash word has changed outside the 32 bytes of a unit. -/
def Chip.flashKept (c d : Chip) (a : Nat) : Prop := ∀ w, (∀ i < 4, w ≠ a / 8 + i) → d.flashWord w = c.flashWord w

/-- The register that a command writes for a master: the master, the page and the offset. -/
def writeTarget : Instr → Option (Who × Nat × Nat)
  | .registerWrite w pg off _ => some (w, pg, off)
  | .runSet w pg => some (w, pg, PG_CTL_RUN.off)
  | .runClear w pg => some (w, pg, PG_CTL_RUN.off)
  | .stopReq w pg => some (w, pg, PG_CTL_RUN.off)
  | .srst w pg => some (w, pg, PG_CTL_RUN.off)
  | .clkenClear w pg => some (w, pg, PG_CTL_RUN.off)
  | .clkenSet w pg => some (w, pg, PG_CTL_RUN.off)
  | .faultForce w pg _ => some (w, pg, PG_FFRC_FFRC.off)
  | .faultStickyClear w pg _ => some (w, pg, PG_FSTK_FSTK.off)
  | .powerOnRequest w pg => some (w, pg, PG_PWR_REQ.off)
  | .powerOffRequest w pg => some (w, pg, PG_PWR_REQ.off)
  | .retentionRequest w p => some (w, (pgSP p.val), PG_PWR_REQ.off)
  | .loaderGo w _ => some (w, pgCF, CF_JLCTL_GO.off)
  | .loaderAbort w _ => some (w, pgCF, CF_JLCTL_GO.off)
  | .lockstepArm w _ => some (w, pgGL, GL_LSCTL_EN.off)
  | .lockstepSync w _ => some (w, pgGL, GL_LSCTL_EN.off)
  | .lockstepStop w _ => some (w, pgGL, GL_LSCTL_EN.off)
  | .lockstepDisarm w _ => some (w, pgGL, GL_LSCTL_EN.off)
  | .pairDetach w e => some (w, (pgEE e.val), EE_PAIR_ROLE.off)
  | .pairRejoin w e => some (w, (pgEE e.val), EE_PAIR_ROLE.off)
  | .batchEnable w g _ => some (w, (pgEG g.val), EG_LPCTL_EN.off)
  | .batchDisable w g _ => some (w, (pgEG g.val), EG_LPCTL_EN.off)
  | .traceEnable w g _ => some (w, (pgEG g.val), EG_TRCCTL_EN.off)
  | .traceDisable w g _ => some (w, (pgEG g.val), EG_TRCCTL_EN.off)
  | .traceFlush w g _ => some (w, (pgEG g.val), EG_TRCCTL_EN.off)
  | .streamSourceGo w _ => some (w, pgCF, CF_SRCCTL_GO.off)
  | .streamAbort w _ => some (w, pgCF, CF_CTL_ABORT.off)
  | .routeWrite w n _ _ => some (w, (pgNI (32 + n.val)), NC_RTECMD_INDEX.off)
  | .routeRead w n _ _ => some (w, (pgNI (32 + n.val)), NC_RTECMD_INDEX.off)
  | .freelost w n _ => some (w, (pgNI (32 + n.val)), NC_MODE_RSV.off)
  | .bankHandover w b _ => some (w, (pgSP 1), (SP_OWN_OWNER.off + SP_OWN_OWNER.stride * b.val))
  | .dmaGo w ch _ => some (w, (pgSP 2), (SP_DMACTL_GO.off + SP_DMACTL_GO.stride * ch.val))
  | .keyLoad w m _ => some (w, (pgMC m.val 0), MC_KCMD_OP.off)
  | .keyNewkey w m _ => some (w, (pgMC m.val 0), MC_KCMD_OP.off)
  | .keyClear w m _ => some (w, (pgMC m.val 0), MC_KCMD_OP.off)
  | .keyTreekey w m => some (w, (pgMC m.val 0), MC_KCMD_OP.off)
  | .keyGrpfree w m => some (w, (pgMC m.val 0), MC_KCMD_OP.off)
  | .keyGrpinit w m => some (w, (pgMC m.val 0), MC_KCMD_OP.off)
  | .keyRightsWrite w m slot _ => some (w, (pgMC m.val 1), (MC_KSLOT_RIGHTS.off + MC_KSLOT_RIGHTS.stride * slot.toNat))
  | .stateSave w m _ => some (w, (pgMC m.val 0), MC_CTL_SAVE.off)
  | .treeInit w m _ => some (w, (pgMC m.val 0), MC_TREECTL_INIT.off)
  | .rekeyGo w m _ => some (w, (pgMC m.val 0), MC_RKCTL_GO.off)
  | .poisonClear w m n => some (w, (pgMC m.val 0), (MC_PSNA_VALID.off + MC_PSNA_VALID.stride * n.val))
  | .lanePowerRequest w l _ => some (w, (pgLN (l.val / 4)), (LN_LPWR_REQ.off + LN_LPWR_REQ.stride * (l.val % 4)))
  | .ringEnable w l _ => some (w, (pgLN (l.val / 4)), (LN_RINGCTL_TXEN.off + LN_RINGCTL_TXEN.stride * (l.val % 4)))
  | .portEnable w p => some (w, (pgLN p.val), LN_PCTL_EN.off)
  | .rewiden w p _ => some (w, (pgLN p.val), LN_PCTL_EN.off)
  | .msixForce w high _ => some (w, pgHP, (if high then HP_MSIFRCH_FRC.off else HP_MSIFRCL_FRC.off))
  | .fpllEnable w m _ => some (w, pgCK, (CK_FPLL_EN.off + CK_FPLL_EN.stride * m.val))
  | .fclkSwitch w n _ => some (w, pgCK, (CK_FCLK_DIV.off + CK_FCLK_DIV.stride * n.val))
  | .warmResetRequest w _ => some (w, pgGL, GL_RSTCTL_WARM.off)
  | .watchdogControl w _ => some (w, pgGL, GL_WDCTL_EN.off)
  | .watchdogKick w _ => some (w, pgGL, GL_WDKICK_KICK.off)
  | .faultAck w => some (w, pgFC, FC_ACK_ACK.off)
  | .challenge w _ => some (w, pgDB, DB_AUTHCMD_OP.off)
  | .verify w => some (w, pgDB, DB_AUTHCMD_OP.off)
  | .drop w => some (w, pgDB, DB_AUTHCMD_OP.off)
  | .debugRequest w _ => some (w, pgDB, DB_CMD_OP.off)
  | .halt w high _ => some (w, pgDB, (if high then DB_HALTH_HALT.off else DB_HALTL_HALT.off))
  | .release w high _ => some (w, pgDB, (if high then DB_RELH_REL.off else DB_RELL_REL.off))
  | .step w high _ => some (w, pgDB, (if high then DB_STEPH_STEP.off else DB_STEPL_STEP.off))
  | .seqDebugHalt w _ => some (w, pgDB, DB_CTL_SEQ.off)
  | .seqDebugStep w _ => some (w, pgDB, DB_CTL_SEQ.off)
  | .seqDebugRelease w _ => some (w, pgDB, DB_CTL_SEQ.off)
  | .freezeRequest w _ => some (w, pgGL, GL_FRZ_REQ.off)
  | .flashRead w => some (w, pgEV, EV_FLCMD_OP.off)
  | .flashProgram w => some (w, pgEV, EV_FLCMD_OP.off)
  | .flashErase w => some (w, pgEV, EV_FLCMD_OP.off)
  | .softwareRecord w _ => some (w, pgEV, EV_SWCODE_CODE.off)
  | .clearChallenge w => some (w, pgEV, EV_CLRCMD_OP.off)
  | .clearVerify w => some (w, pgEV, EV_CLRCMD_OP.off)
  | .recorderClear w => some (w, pgEV, EV_CLRCMD_OP.off)
  | .uartEnable w _ => some (w, pgEV, EV_UARTCTL_EN.off)
  | _ => none

/-- The commands that read a register for a master: the master, the page and the offset. -/
def readTarget : Instr → Option (Who × Nat × Nat)
  | .rcRead w pg off _ => some (w, pg, off)
  | .splitCounterRead w pg off _ => some (w, pg, off)
  | .ffReadback w _ => some (w, pgDB, DB_FFVAL_Q.off)
  | _ => none

/-- The commands of the test access port, and those with which it gains or loses its power. -/
def movesTap : Instr → Bool
  | .tapReset => true
  | .extest _ => true
  | .idcode => true
  | .samplePreload _ _ => true
  | .clamp => true
  | .highz => true
  | .dbacc => true
  | .bypass => true
  | .dbaccUpdate _ => true
  | .railBad _ _ => true
  | .coldStart _ _ _ => true
  | _ => false

/-- The instruction codes of the test access port (20, R526). -/
def tapCodes : List (BitVec 6) := [0x00, 0x01, 0x02, 0x04, 0x05, 0x10, 0x3F]

/-- The instruction register holds a code, and an instruction that selects bypass has captured 0 (20, R526). -/
def TapSt.Legal (t : TapSt) : Prop := t.ir ∈ tapCodes ∧ (t.ir = 0x04 ∨ t.ir = 0x05 ∨ t.ir = 0x3F → t.dr = 0)

/-- What a signal of a master port presents at an edge (08, Table 8-10). -/
def Chip.portSees (c : Chip) (s p e : Nat) : Option Bool := c.endpoint c.fab.pre (fmpSlot s p e).1 (fmpSlot s p e).2

/-- Inputs `lo` to `lo + w - 1` of a site present the bits of a number (09, R254). -/
def Chip.presents (c : Chip) (n lo w x : Nat) : Prop := ∀ i < w, c.siteIn c.fab.pre n (lo + i) = some (x.testBit i)

/-- The next address of a sequencer after an instruction that does not jump: in a loop the next of the body, its first
again, or what follows it (09, R275). -/
def Chip.wentOn (c d : Chip) (cl : Nat) : Prop :=
  match (c.seqOf cl).loop with
  | none => d.seqPc cl = c.seqPc cl + 1 ∧ (d.seqOf cl).loop = none
  | some l => l.start + l.len ≤ 512 →
      (l.idx + 1 < l.len → d.seqPc cl = l.start + l.idx + 1 ∧ ∃ k, (d.seqOf cl).loop = some { l with idx := l.idx + 1, cache := k }) ∧
      (l.len ≤ l.idx + 1 → 0 < l.left → d.seqPc cl = l.start ∧
        ∃ k, (d.seqOf cl).loop = some { l with idx := 0, left := l.left - 1, cached := true, cache := k }) ∧
      (l.len ≤ l.idx + 1 → l.left = 0 → d.seqPc cl = l.start + l.len ∧ (d.seqOf cl).loop = none)

/-- The stream has failed with a code: CFG_DONE is not released, nothing waits, the error is shown and reported (10, R305,
R309). `own` is false for an error that another device has signalled. -/
def Chip.streamFailed (c d : Chip) (code neterr seq : Nat) (own : Bool := true) : Prop :=
  d.cfState = 4 ∧ d.get CF_SERR_CODE pgCF = code ∧ d.get CF_SERR_NETERR pgCF = neterr % 256 ∧
    d.get CF_SERR_SEQ pgCF = seq % 65536 ∧ d.get CF_STS_DONEREL pgCF = 0 ∧ d.get CF_STS_PEND pgCF = 0 ∧
    d.stream.errDrive = (own || c.stream.errDrive) ∧ d.stream.wait = .none ∧ d.stream.pend = none ∧ d.stream.toStart = [] ∧
    d.stream.srcLeft = 0 ∧
    (c.mayReport pgCF (if code = 8 ∨ code = 9 then 3 else 2) → d.reported pgCF (if code = 8 ∨ code = 9 then 3 else 2))

/-- The register fields that the end of a stream moves. -/
def streamFields : List Nat :=
  [CF_STS_STATE.key pgCF 0, CF_SERR_CODE.key pgCF 0, CF_SERR_NETERR.key pgCF 0, CF_SERR_SEQ.key pgCF 0, CF_STS_DONEREL.key pgCF 0,
    CF_STS_PEND.key pgCF 0]

/-- A frame has been taken from the buffer and counted (10, R285). -/
def Chip.frameTaken (c d : Chip) : Prop :=
  d.get CF_FRCNT_COUNT pgCF = satInc (2 ^ 32 - 1) (c.get CF_FRCNT_COUNT pgCF) % 2 ^ 32 ∧
    d.get CF_SEQ_NEXT pgCF = (c.get CF_SEQ_NEXT pgCF + 1) % 65536

/-- The register fields that taking a frame moves. -/
def frameFields : List Nat := [CF_FRCNT_COUNT.key pgCF 0, CF_SEQ_NEXT.key pgCF 0, CF_STS_STATE.key pgCF 0]

/-- A frame is whole and in order (10, Table 10-4, checks 1 and 2). -/
def Chip.inOrder (c : Chip) (f : List (BitVec 8)) : Prop :=
  (crc32 (f.take 520)).toNat = leAt f 520 4 ∧ frameSeq f = c.get CF_SEQ_NEXT pgCF

/-- A frame for this device passes checks 1 to 5 and takes effect without waiting for authentication (10, R284, R290). -/
def Chip.framePasses (c : Chip) (f : List (BitVec 8)) : Prop :=
  c.inOrder f ∧ c.frameMine f = true ∧ c.frameFormat f = true ∧ c.stream.pend = none ∧
    (c.get CF_AUTHCTL_REQ pgCF = 1 → frameType f ≠ 6 ∧ frameType f ≠ 7) ∧ c.frameRange f = true

/-- The commands that take a frame, each with the frames that it takes; `g` is the group mask of an image. -/
def frameCommands (g : Nat) : List (Instr × (List (BitVec 8) → Bool)) :=
  [(.tile, isType 1), (.site, isType 2), (.brdata, isType 3), (.iobank, isType 4), (.data, isType 5), (.regw, isType 6),
    (.nop, isNop), (.auth g, isType 8), (.cmdEnd, isEnd), (.cmdPartial, isCmd 2), (.cmdLoadjli g, isCmd 3), (.cmdClear, isCmd 4),
    (.cmdWaiton, isCmd 5), (.cmdDelay, isCmd 6)]

/-- No ownership write of a scratchpad bank waits for the old owner's requests (13, R362). -/
def Chip.noOwnerWaits (c : Chip) : Prop := ∀ a ∈ c.net.arrived, a.done = true → a.req.op ≠ .regwr

/-- A part stands in its NI, and no other part bears its number. -/
def Chip.partAt (c : Chip) (i : Nat) (f : Flight) : Prop :=
  c.net.flights[i]? = some f ∧ c.net.flights.find? (fun x => x.id == f.id) = some f

/-- The route entry that a packet from one NI to another takes is valid; an NI reaches itself without one (12, R338). -/
def Chip.routed (c : Chip) (src dst rvar : Nat) : Prop :=
  src = dst ∨ (c.routeEntry src (8 * (dst - 32) + rvar)).getLsbD 48 = true

/-- A request has left the buffers of its NI. -/
def Arrived.goneFrom (a : Arrived) (c d : Chip) : Prop :=
  d.net.arrived = c.net.arrived.filter fun x => !(x.ni == a.ni && x.tag == a.tag && x.dstNi == a.dstNi)

/-- A response with these codes is on its way to the requester of a request. -/
def Arrived.answeredIn (a : Arrived) (d : Chip) (codes : List Nat) (more : Packet → Prop) : Prop :=
  ∃ p ∈ d.net.packets, p.pt = .rsp ∧ p.ni = a.ni ∧ p.tag = a.tag ∧ p.dst = a.ni ∧ p.codes = codes ∧ more p

/-- Neither crypto engine has an operation in progress or a state record to save. -/
def Chip.quietMemory (c : Chip) : Prop :=
  c.mem.ops = [] ∧ (c.crypto 0).saving = false ∧ (c.crypto 1).saving = false

/-- A key command has ended: SLOT, OP and ERR hold what it leaves, the staging registers hold 0, and of the register
fields no other has changed but those of `more` (14, R387). -/
def Chip.keyEnded (c d : Chip) (m op n err : Nat) (more : List Nat) : Prop :=
  d.get MC_KCMD_OP (pgMC m 0) = op ∧ d.get MC_KCMD_SLOT (pgMC m 0) = n ∧ d.get MC_KCMD_ERR (pgMC m 0) = err ∧
    (∀ i < 8, d.get MC_KDATA_KEY (pgMC m 0) i = 0) ∧
    c.fieldsKept d ([MC_KCMD_OP.key (pgMC m 0) 0, MC_KCMD_SLOT.key (pgMC m 0) 0, MC_KCMD_ERR.key (pgMC m 0) 0] ++
      ((List.range 8).map fun i => MC_KDATA_KEY.key (pgMC m 0) i) ++ more)

/-- Of a device, only register fields and a crypto engine have changed. -/
def Chip.onlyEngine (c d : Chip) (m : Nat) : Prop :=
  d = { c with regs := d.regs, mem := { c.mem with crypto := d.mem.crypto } } ∧ ∀ x, x ≠ m → d.crypto x = c.crypto x

/-- A slot of a crypto engine has taken keys; of the engine nothing else has changed. -/
def Chip.slotTook (c d : Chip) (m n : Nat) (k : KeySlot) : Prop :=
  c.onlyEngine d m ∧ d.crypto m = { c.crypto m with slots := (d.crypto m).slots } ∧
    ∀ x, (d.crypto m).slot x = if x = n then k else (c.crypto m).slot x

/-- A state record of an engine has been written: it takes the place of one of the two copies, bears a number above that
of every record before, and holds the keys, the root, the tree states and a rekey (14, R408). -/
def Chip.recordSaved (c d : Chip) (m : Nat) (rk : Option Rekey) : Prop :=
  ∃ r : CryptoRec, (∀ k, d.mem.recs.lookup k = if k = 2 * m + r.seq % 2 then some r else c.mem.recs.lookup k) ∧
    (∀ x ∈ c.mem.recs, x.1 / 2 = m → x.2.seq < r.seq) ∧ r.valid = true ∧ r.treeKey = (c.crypto m).treeKey ∧
    r.slots = (c.crypto m).slots ∧ r.root = (c.crypto m).root ∧ r.tree = c.get MC_TREESTS_STATE (pgMC m 0) ∧ r.rekey = rk ∧
    ∀ n < 256, r.regs.lookup n = some (c.get MC_KSLOT_STATE (pgMC m 1) n * 2 ^ 30 + c.get MC_KSLOT_GEN (pgMC m 1) n * 2 ^ 16 +
      c.get MC_KSLOT_RIGHTS (pgMC m 1) n)

/-- A save of an engine finds nothing to wait for: no group is under re-encryption, and no line is to be written back
(14, R408). -/
def Chip.savesAtOnce (c : Chip) (m : Nat) : Prop :=
  c.mem.ops = [] ∧ (∀ x < 2, x ≠ m → (c.crypto x).saving = false) ∧ (c.crypto m).bg = [] ∧ (c.crypto m).begins = none ∧
    c.dirtyLines m = [] ∧ ∀ r ∈ c.mem.pmp, r.dead = false → ∀ l i, r.use ≠ .back l i

/-- A read of one line or node has been sent for the only operation in progress of the memory ports (14, R380). -/
def Chip.pmpAsked (c d : Chip) (q laddr : Nat) (use : PmpUse) (o : LineOp) : Prop :=
  d.mem.ops = [{ o with id := c.mem.nextOp, asked := true }] ∧
    ∃ tag, c.freePtag q = some tag ∧ d.mem.pmp = c.mem.pmp ++ [{ port := q, tag := tag, type := 1, use := use }] ∧
      d.mem.out = c.mem.out ++ [(c.get ML_CTL_LPORT (pgML q), pmpFlit 1 tag 1 laddr)]

/-- The oldest packet that has come for a memory port is a PMP answer of a type, and can be taken (14, R379; 15, R435):
its command flit and its data flits. -/
def Chip.answerAt (c : Chip) (q type : Nat) (h : BitVec 512) (ds : List (BitVec 512)) : Prop :=
  c.stepsRun = true ∧ c.portUse (c.get ML_CTL_LPORT (pgML q)) = 2 ∧
    (c.portSt (c.get ML_CTL_LPORT (pgML q))).inbox.head? = some (h :: ds) ∧ pmpType h = type

/-- The oldest packet that has come for a memory port has been taken; of the link ports nothing else has changed. -/
def Chip.answerTaken (c d : Chip) (q : Nat) : Prop :=
  d.link = { c.link with port := d.link.port } ∧
    ∀ p, d.portSt p = if p = c.get ML_CTL_LPORT (pgML q) then { c.portSt p with inbox := (c.portSt p).inbox.tail } else c.portSt p

/-- The only operation in progress is the line of a request of one line, which waits for its answer. -/
def Chip.lineOf (c : Chip) (a : Arrived) (o : LineOp) : Prop :=
  c.mem.ops = [o] ∧ (c.crypto 0).saving = false ∧ (c.crypto 1).saving = false ∧
    (c.net.arrived.find? fun x => x.dstNi == o.dst && x.ni == o.ni && x.tag == o.tag) = some a ∧
    a.req.len = 1 ∧ a.codes = [] ∧ a.data = [] ∧ o.line = 0 ∧ a.req.spec = false

/-- Nothing waits outside or inside a link port to be sent, and a message port reads no TX ring. -/
def Chip.portStill (c : Chip) (p : Nat) : Prop :=
  (∀ x ∈ c.mem.out, x.1 ≠ p) ∧ (∀ x ∈ c.eng.lsOut, x.1 ≠ p) ∧ (c.portSt p).queue = [] ∧
    (c.portUse p = 3 → c.laneGet LN_RINGCTL_TXEN (c.get LN_PCFG_BASE (pgLN p)) ≠ 1)

/-- One link port has a state; beside register fields and fault reports nothing else has changed. -/
def Chip.portIs (c d : Chip) (p : Nat) (x : PortSt) : Prop :=
  (∀ y, d.portSt y = if y = p then x else c.portSt y) ∧
    d = { c with regs := d.regs, flt := d.flt, link := { c.link with port := d.link.port } }

/-- One link port has a state; nothing else has changed. -/
def Chip.portOnly (c d : Chip) (p : Nat) (x : PortSt) : Prop := c.portIs d p x ∧ c.sameRegs d ∧ d.flt = c.flt

/-- What ACKSEQ and LIMIT of a control block leave in a port that is UP: the flits up to ACKSEQ are acknowledged (15,
R429, R431). -/
def PortSt.credited (x : PortSt) (b : BitVec 64) : PortSt :=
  let y := { x with limit := bitsOf b.toNat 31 24, ann := 0, farGlide := false }
  match x.sent.findIdx? (fun s => s.1 == bitsOf b.toNat 23 16) with
  | some i => { y with sent := x.sent.drop (i + 1), acked := bitsOf b.toNat 23 16, replays := 0 }
  | none => y

/-- What a replay leaves in a port that has not made seven without progress: it counts one where a flit is not
acknowledged (15, R431). -/
def PortSt.resent (x : PortSt) : PortSt := { x with replays := if x.sent = [] then x.replays else x.replays + 1 }

/-- A replay is counted where a flit is not acknowledged; of the register fields no other has changed but those of
`more` (15, R431). -/
def Chip.replayed (c d : Chip) (p : Nat) (x : PortSt) (more : List Nat) : Prop :=
  d.get LN_PERRCNT_REPLAY (pgLN p) = (if x.sent = [] then c.get LN_PERRCNT_REPLAY (pgLN p)
    else satInc 65535 (c.get LN_PERRCNT_REPLAY (pgLN p)) % 65536) ∧ c.fieldsKept d (LN_PERRCNT_REPLAY.key (pgLN p) 0 :: more)

/-- The control blocks, each with its CTYPE (15, Table 15-8). -/
def controlBlocks (p : Fin 16) (b : BitVec 64) : List (Instr × Nat) :=
  [(.ack p b, 0), (.nak p b, 1), (.announce p b, 2), (.glide p b, 3), (.shed p b, 4), (.shedack p b, 5)]

/-- An aligned group of 2^e lanes among 2^w lanes from a base holds lock in every lane (15, R433). -/
def Chip.lockedGroup (c : Chip) (base w e i : Nat) : Prop :=
  e < w ∧ i < 2 ^ (w - e) ∧ ∀ j < 2 ^ e, c.laneLock (base + i * 2 ^ e + j) = true

/-- The host has its answer to the request that takes the next number (15, R440). -/
def Chip.hostTold (c d : Chip) (a : Cpl) : Prop :=
  d.link.host.cpls = (c.link.host.next, a) :: c.link.host.cpls ∧ d.link.host.next = c.link.host.next + 1 ∧
    d.link.host.reqs = c.link.host.reqs

/-- AER shows an error, and of the configuration space nothing else has changed (15, R440). -/
def Chip.aerShown (c d : Chip) (bit : Nat) : Prop :=
  ∀ n, d.cfgHeld n = if n = cfgAerUnc then c.cfgHeld n ||| 2 ^ bit else c.cfgHeld n

/-- A host request has failed with a code at an address: it is logged, counted, reported and answered as Table 15-11
says (15, R440). -/
def Chip.hostFailed (c d : Chip) (bar2 write : Bool) (addr code bytes : Nat) : Prop :=
  c.hostTold d (if write then .posted else if c.get HP_CTL_ERRCPL pgHP = 1 then .success (List.replicate bytes 0)
    else if code = errDecode then .unsupported else .completerAbort) ∧
  (write = true ∨ c.get HP_CTL_ERRCPL pgHP = 1 → d.link.host.cfg = c.link.host.cfg) ∧
  (write = false → c.get HP_CTL_ERRCPL pgHP ≠ 1 → c.aerShown d (if code = errDecode then 20 else 15)) ∧
  d.get HP_ERRSTS_VALID pgHP = 1 ∧
  (c.get HP_ERRSTS_VALID pgHP ≠ 1 → d.get HP_ERRSTS_KIND pgHP = 2 * b2n bar2 + b2n write ∧ d.get HP_ERRSTS_CODE pgHP = code % 256 ∧
    d.get HP_ERRADDRL_ADDR pgHP = addr % 2 ^ 32 ∧ d.get HP_ERRADDRH_ADDR pgHP = addr / 2 ^ 32 % 2 ^ 12) ∧
  (c.get HP_ERRSTS_VALID pgHP = 1 → c.fieldsKept d [HP_ERRCNT_WR.key pgHP 0, HP_ERRCNT_RD.key pgHP 0]) ∧
  d.get HP_ERRCNT_WR pgHP = (if write then satInc 65535 (c.get HP_ERRCNT_WR pgHP) % 65536 else c.get HP_ERRCNT_WR pgHP) ∧
  d.get HP_ERRCNT_RD pgHP = (if write then c.get HP_ERRCNT_RD pgHP else satInc 65535 (c.get HP_ERRCNT_RD pgHP) % 65536) ∧
  c.fieldsKept d [HP_ERRSTS_VALID.key pgHP 0, HP_ERRSTS_KIND.key pgHP 0, HP_ERRSTS_CODE.key pgHP 0, HP_ERRADDRL_ADDR.key pgHP 0,
    HP_ERRADDRH_ADDR.key pgHP 0, HP_ERRCNT_WR.key pgHP 0, HP_ERRCNT_RD.key pgHP 0] ∧
  (c.mayReport pgHP (if write then 2 else 1) → d.reported pgHP (if write then 2 else 1)) ∧
  d = { c with regs := d.regs, flt := d.flt, link := { c.link with host := d.link.host } }

/-- A host request has been received: its network requests `new` are asked for, and it alone waits for its answers (15,
R437 to R439). -/
def Chip.hostAsked (c d : Chip) (bar2 write : Bool) (new todo : List Req) : Prop :=
  d.net.want = c.net.want ++ new ∧ d.link.host.next = c.link.host.next + 1 ∧ d.link.host.cpls = c.link.host.cpls ∧
    (∃ x, d.link.host.reqs = [x] ∧ x.id = c.link.host.next ∧ x.bar2 = bar2 ∧ x.write = write ∧ x.todo = todo ∧ x.err = none ∧
      x.out = (new.map (·.units)).sum) ∧
    d = { c with net := { c.net with want := d.net.want }, link := { c.link with host := d.link.host } }

/-- The host port has been reset: its configuration space and the HP registers hold their reset values but for what the
link is, and no request is held (15, R442). -/
def Chip.hostCleared (c d : Chip) : Prop :=
  (∀ (F : Fld) (i : Nat), 0x40 ≤ F.off → F.off < 0x1000 → F.lo < 32 →
    F.key pgHP i ∉ [HP_LINK_DLUP.key pgHP 0, HP_LINK_WIDTH.key pgHP 0, HP_LINK_SPEED.key pgHP 0] → d.get F pgHP i = F.resetAt pgHP i) ∧
  (∀ k e, keyPage k ≠ pgHP ∨ keyOff k < 0x40 → Store.get e d.regs k = Store.get e c.regs k) ∧
  d.link = { c.link with host := { c.link.host with reqs := [], cfg := [], flr := d.link.host.flr } }

end Sys2Proof.Machine
end

