-- ==== Sys2Proof/Certificates/Slice0/Obligations.lean ====
section
/-! DEFINITION. The statements about the device: each docstring says which rules of the spec it formalises. -/
open Sys2Proof Sys2Proof.Machine

/-- For every command and every state, exec answers a next state (no fault, no refusal), and that state has the queue
that the command was run with. (00_scope.md, 95_what_each_step_holds.md) -/
def Obligations.EveryCommandAnswers : Prop :=
  ∀ (i : Instr) (s : State), Completes i s fun t => t.pending = s.pending

/-- With command c at the front of the queue, step is exec of c on the state with the rest of the queue. The queue is
the model's own (log entry 13). (95_what_each_step_holds.md) -/
def Obligations.StepRunsTheFrontCommand : Prop :=
  ∀ (c : Instr) (rest : List Instr) (s : State), step { s with pending := c :: rest } = exec c { s with pending := rest }

/-- On an empty queue a step answers a next state in which TIME has counted by one, or has wrapped to 0, the device
beside registers, recorder, reports, reset state and what an expiry stops is as before where the watchdog does not
count, and the queue, the test access port and the last answer are as before. (21_event_recorder_and_flash.md,
19_fault_collection.md) -/
def Obligations.EmptyQueueIsAMicrosecond : Prop :=
  ∀ s : State, s.pending = [] → ∃ t, step s = .next t ∧ s.device t ∧
    (s.chip.wdCounts = false →
      t.chip.ev.time = s.chip.ev.time + 1 ∧
      t.chip = { s.chip with regs := t.chip.regs, ev := t.chip.ev })

/-- State.reset has a legal test access port: IDCODE is selected. (The value at power-on is the model's choice of log
entry 1; a power-up resets the port.) (20_debug_and_freeze.md) -/
def Obligations.ResetLeavesTheTestAccessPortLegal : Prop :=
  TapSt.Legal State.reset.tap

/-- From every state in which the instruction register holds one of the codes of the TAP instructions, and bypass has
captured 0 where CLAMP, HIGHZ or BYPASS is selected, every step that answers a next state leads to such a state.
(20_debug_and_freeze.md) -/
def Obligations.TestAccessPortStaysLegal : Prop :=
  ∀ s t : State, TapSt.Legal s.tap → step s = .next t → TapSt.Legal t.tap

/-- A command that is no TAP command, no RAIL_BAD and no COLD_START leaves the test access port as it is. A RAIL_BAD of
another monitor than 0 and 23 leaves it too. (20_debug_and_freeze.md, 18_startup_and_reset.md) -/
def Obligations.OnlyTapCommandsMoveTheTap : Prop :=
  (∀ (i : Instr) (s : State), movesTap i = false → Completes i s fun t => t.tap = s.tap) ∧
  (∀ (n : Fin 24) (mv : BitVec 12) (s : State), n ≠ 0 → n ≠ 23 → Completes (.railBad n mv) s fun t => t.tap = s.tap)

/-- Every command but RC_READ, SPLIT_COUNTER_READ and FF_READBACK leaves the data of the last read as it is; every
command that neither reads nor writes a register for a master leaves the code of the last access as it is. Both are
the model's own fields (log entry 13). (01_device_organisation.md) -/
def Obligations.OnlyReadsChangeTheReadData : Prop :=
  (∀ (i : Instr) (s : State), readTarget i = none → Completes i s fun t => t.rdata = s.rdata) ∧
  (∀ (i : Instr) (s : State), readTarget i = none → writeTarget i = none → Completes i s fun t => t.code = s.code)

/-- A command that writes a register for a master, where a check refuses the access, leaves everything as it is but the
code of the answer, which is the code of that check; a command that reads one leaves everything but the code and the
data, which reads 0. (01_device_organisation.md) -/
def Obligations.RefusedAccessChangesNothing : Prop :=
  (∀ (i : Instr) (s : State) (w : Who) (pg off : Nat), writeTarget i = some (w, pg, off) →
      s.chip.regReach w pg off true ≠ 0 → exec i s = .next { s with code := s.chip.regReach w pg off true }) ∧
  (∀ (i : Instr) (s : State) (w : Who) (pg off : Nat), readTarget i = some (w, pg, off) →
      s.chip.regReach w pg off false ≠ 0 →
      exec i s = .next { s with code := s.chip.regReach w pg off false, rdata := 0 })

/-- While MAIN is up, every command that writes or reads a register of a mapped page for a master that R33 does not
admit (a fabric master while GL_REGACC.FAB = 0, or another unit) is answered with ERR_DENIED and is not performed; a
fabric master while FAB = 1, the host, the debug master, the configuration controller and the I2C and SPI targets
are not denied. (R33) -/
def Obligations.RegisterSpaceMasters : Prop :=
  (∀ (i : Instr) (s : State) (w : Who) (pg off : Nat), s.chip.rst.mainRel = true → (pageKind pg).isSome = true →
      (w = .other ∨ (w = .fabric ∧ s.chip.get GL_REGACC_FAB pgGL ≠ 1)) →
      (writeTarget i = some (w, pg, off) → exec i s = .next { s with code := errDenied }) ∧
      (readTarget i = some (w, pg, off) → exec i s = .next { s with code := errDenied, rdata := 0 })) ∧
  (∀ (s : State) (w : Who) (pg off : Nat) (write : Bool), s.chip.rst.mainRel = true → (pageKind pg).isSome = true →
      (w ≠ .other ∧ (w = .fabric → s.chip.get GL_REGACC_FAB pgGL = 1)) →
      s.chip.regReach w pg off write ≠ errDenied)

/-- A register access gets: no answer while MAIN is held (ERR_TIMEOUT, log entry 19), ERR_DECODE at an unmapped page,
ERR_DENIED for a master that may not, ERR_ALIGN at an offset that is no multiple of 4, ERR_PWROFF at a block
register of a domain that is not on, ERR_GATED at a block register of a page with CLKEN = 0, and it is performed
otherwise (outside a freeze and an emulated power-off). (01_device_organisation.md) -/
def Obligations.AccessChecksInOrder : Prop :=
  ∀ (s : State) (w : Who) (pg off : Nat) (write : Bool), s.chip.get GL_FRZSTS_STATE pgGL = 0 → s.chip.emulated (domOf pg) = false →
    s.chip.regReach w pg off write =
      if s.chip.rst.mainRel = false then errTimeout
      else if pageKind pg = none then errDecode
      else if w = .other ∨ (w = .fabric ∧ s.chip.get GL_REGACC_FAB pgGL ≠ 1) then errDenied
      else if off % 4 ≠ 0 then errAlign
      else if off < 0x40 then 0
      else if s.chip.domOn (domOf pg) = false then errPwroff
      else if s.chip.get PG_CTL_CLKEN pg ≠ 1 then errGated
      else 0

/-- A write of RUN = 1 that reaches a mapped page and is barred (domain not on, device failed, image not loaded, group
stopped by lockstep) is dropped: it sets PG_STS.WIGN and changes nothing else. Where RUN is 1 already it changes
nothing. Elsewhere RUN reads 1 (in every block but LN and ML, whose start may refuse and clear it); where the
function is idle, not running, and has its clock, RUNNING becomes 1 as well in a block whose start does nothing
else, and no other field, and no other part of the device but the note of an orderly stop, changes; in an EG page
the group waits for its alignment edge; in an EE page RUN alone changes. (01_device_organisation.md,
02_boolean_processors_and_engines.md, 19_fault_collection.md) -/
def Obligations.RunSetSetsRun : Prop :=
  ∀ (w : Who) (pg : Nat) (s : State), s.reaches w pg PG_CTL_RUN.off → (pageKind pg).isSome = true →
    (s.chip.runBarred pg = true → Completes (.runSet w pg) s fun t => s.performed t ∧ s.chip.onlyRegs t.chip ∧
      t.chip.get PG_STS_WIGN pg = 1 ∧ s.chip.fieldsKept t.chip [PG_STS_WIGN.key pg 0]) ∧
    (s.chip.runBarred pg = false → s.chip.run pg = true → exec (.runSet w pg) s = .next { s with code := 0 }) ∧
    (s.chip.runBarred pg = false → s.chip.run pg = false → startRefuses pg = false →
      Completes (.runSet w pg) s fun t => s.performed t ∧ t.chip.get PG_CTL_RUN pg = 1 ∧
        (startsAlone pg = true → t.chip = { s.chip with regs := t.chip.regs, stopping := t.chip.stopping } ∧
          s.chip.fieldsKept t.chip [PG_CTL_RUN.key pg 0, PG_STS_RUNNING.key pg 0] ∧
          (s.chip.startable pg = true → t.chip.get PG_STS_RUNNING pg = 1)) ∧
        (∀ g, pageKind pg = some (.eg, g) → s.chip.startable pg = true →
          (t.chip.grp g).waiting = true ∧ s.chip.fieldsKept t.chip [PG_CTL_RUN.key pg 0]) ∧
        (∀ e, pageKind pg = some (.ee, e) → s.chip.startable pg = true →
          s.chip.onlyRegs t.chip ∧ s.chip.fieldsKept t.chip [PG_CTL_RUN.key pg 0]))

/-- A write of RUN = 0 that reaches a mapped page changes nothing where RUN is 0 already. Elsewhere RUN reads 0 in every
block. In a block whose stop does nothing else, RUNNING falls at once where the function is idle and has its clock,
and otherwise stays 1 while the stop is in progress; no other field and no other part of the device changes. In an
EG page with a lap in progress RUNNING stays and the group no longer waits for an alignment edge.
(01_device_organisation.md) -/
def Obligations.RunClearStopsTheFunction : Prop :=
  ∀ (w : Who) (pg : Nat) (s : State), s.reaches w pg PG_CTL_RUN.off → (pageKind pg).isSome = true →
    (s.chip.run pg = false → exec (.runClear w pg) s = .next { s with code := 0 }) ∧
    (s.chip.run pg = true → Completes (.runClear w pg) s fun t => s.performed t ∧ t.chip.get PG_CTL_RUN pg = 0 ∧
      (stopsAlone pg = true → s.chip.running pg = true →
        t.chip = { s.chip with regs := t.chip.regs, stopping := t.chip.stopping } ∧
        s.chip.fieldsKept t.chip [PG_CTL_RUN.key pg 0, PG_STS_RUNNING.key pg 0] ∧
        (s.chip.pageQuiet pg = true → s.chip.pageMoves pg = true → s.chip.gated pg = false →
          t.chip.get PG_STS_RUNNING pg = 0 ∧ pg ∉ t.chip.stopping) ∧
        (s.chip.pageQuiet pg = false → t.chip.get PG_STS_RUNNING pg = 1 ∧ pg ∈ t.chip.stopping)) ∧
      (∀ g, pageKind pg = some (.eg, g) → ((s.chip.grp g).bound.on || (s.chip.grp g).loose.on) = true →
        (t.chip.grp g).waiting = false ∧ t.chip.get PG_STS_RUNNING pg = s.chip.get PG_STS_RUNNING pg))

/-- A write of STOP_REQ = 1 that reaches a mapped page has no effect on a function that is stopped and idle. Elsewhere,
in every block but a router, RUN and RUNNING read 0, and no orderly stop of the page is in progress (an EE page has
none); in a router RUN reads 0. (01_device_organisation.md) -/
def Obligations.StopReqEndsTheFunction : Prop :=
  ∀ (w : Who) (pg : Nat) (s : State), s.reaches w pg PG_CTL_RUN.off → (pageKind pg).isSome = true →
    (s.chip.stoppedIdle pg = true → s.chip.running pg = false → exec (.stopReq w pg) s = .next { s with code := 0 }) ∧
    (¬ (s.chip.stoppedIdle pg = true ∧ s.chip.running pg = false) → Completes (.stopReq w pg) s fun t =>
      s.performed t ∧ t.chip.run pg = false ∧
      ((∀ n, pageKind pg ≠ some (.ncr, n)) → t.chip.get PG_STS_RUNNING pg = 0 ∧
        ((∀ e, pageKind pg ≠ some (.ee, e)) → pg ∉ t.chip.stopping)))

/-- A write of SRST = 1 that reaches a mapped page whose function is not stopped and idle sets WIGN and changes nothing
else. In a stopped and idle function of the blocks CF, SC, MC, ML, SP, FB, BR and AS every register field at offset
0x040 and above reads its reset value, and every field of the common header and of every other page is as before.
(01_device_organisation.md) -/
def Obligations.SoftResetReturnsTheBlock : Prop :=
  ∀ (w : Who) (pg : Nat) (s : State), s.reaches w pg PG_CTL_RUN.off → (pageKind pg).isSome = true →
    (s.chip.stoppedIdle pg = false → Completes (.srst w pg) s fun t => s.performed t ∧ s.chip.onlyRegs t.chip ∧
      t.chip.get PG_STS_WIGN pg = 1 ∧ s.chip.fieldsKept t.chip [PG_STS_WIGN.key pg 0]) ∧
    (s.chip.stoppedIdle pg = true → clearsAlone pg = true → Completes (.srst w pg) s fun t => s.performed t ∧
      (∀ (F : Fld) (i : Nat), 0x40 ≤ F.off → F.off < 0x1000 → F.lo < 32 → t.chip.get F pg i = F.resetAt pg i) ∧
      (∀ k e, (keyPage k ≠ pg ∨ keyOff k < 0x40) → Store.get e t.chip.regs k = Store.get e s.chip.regs k))

/-- A write of CLKEN = 0 that reaches a mapped page clears CLKEN, and asks the block for the idle handshake where its
gate is open and its domain on; a gate that is not open stays as it is. A write of CLKEN = 1 sets CLKEN and opens
the gate; where the gate was not forced (nor closed, in an EG page) nothing else changes, and where it was forced
RUN reads 0 (the action of STOP_REQ). (01_device_organisation.md, 16_clocks.md) -/
def Obligations.ClkenMovesTheGate : Prop :=
  ∀ (w : Who) (pg : Nat) (s : State), s.reaches w pg PG_CTL_RUN.off → (pageKind pg).isSome = true →
    (Completes (.clkenClear w pg) s fun t => s.performed t ∧
      t.chip = { s.chip with regs := t.chip.regs, clk := { s.chip.clk with gate := t.chip.clk.gate } } ∧
      t.chip.get PG_CTL_CLKEN pg = 0 ∧ s.chip.fieldsKept t.chip [PG_CTL_CLKEN.key pg 0] ∧
      (t.chip.gate pg = if s.chip.gate pg = .opened ∧ s.chip.domOn (domOf pg) = true then .asked else s.chip.gate pg) ∧
      (∀ q, q ≠ pg → t.chip.gate q = s.chip.gate q)) ∧
    (Completes (.clkenSet w pg) s fun t => s.performed t ∧
      ((∀ g, ¬ (s.chip.gate pg = .closed ∧ pageKind pg = some (.eg, g))) → s.chip.gate pg ≠ .forced →
        t.chip = { s.chip with regs := t.chip.regs, clk := { s.chip.clk with gate := t.chip.clk.gate } } ∧
        t.chip.get PG_CTL_CLKEN pg = 1 ∧ s.chip.fieldsKept t.chip [PG_CTL_CLKEN.key pg 0] ∧ t.chip.gate pg = .opened ∧
        (∀ q, q ≠ pg → t.chip.gate q = s.chip.gate q)) ∧
      (s.chip.gate pg = .forced → t.chip.get PG_CTL_RUN pg = 0))

/-- ORDERLY_STOP_COMPLETE of a page with RUNNING = 1, RUN = 0, its clock and no work in progress clears RUNNING in every
block but LN and EG, and changes nothing else but the note that the stop is in progress. FUNCTION_START of a page
with RUN = 1 whose function is not running and could start sets RUNNING in every block whose start does nothing
else, and changes nothing else. Where their conditions do not hold both leave the device as it is.
(01_device_organisation.md) -/
def Obligations.OrderlyStopAndStartComplete : Prop :=
  ∀ (pg : Nat) (s : State), (pageKind pg).isSome = true →
    (s.chip.running pg = true → s.chip.run pg = false → s.chip.gated pg = false → s.chip.pageMoves pg = true →
      s.chip.pageQuiet pg = true → stopsPlain pg = true → Completes (.orderlyStopComplete pg) s fun t => s.device t ∧
        t.chip = { s.chip with regs := t.chip.regs, stopping := t.chip.stopping } ∧ t.chip.get PG_STS_RUNNING pg = 0 ∧
        pg ∉ t.chip.stopping ∧ (∀ q, q ≠ pg → (q ∈ t.chip.stopping ↔ q ∈ s.chip.stopping)) ∧
        s.chip.fieldsKept t.chip [PG_STS_RUNNING.key pg 0]) ∧
    (s.chip.run pg = true ∨ s.chip.pageQuiet pg = false → exec (.orderlyStopComplete pg) s = .next s) ∧
    (s.chip.run pg = true → s.chip.startable pg = true → startsAlone pg = true →
      Completes (.functionStart pg) s fun t => s.device t ∧ s.chip.onlyRegs t.chip ∧ t.chip.get PG_STS_RUNNING pg = 1 ∧
        s.chip.fieldsKept t.chip [PG_STS_RUNNING.key pg 0]) ∧
    (s.chip.run pg = false ∨ s.chip.pageQuiet pg = false → exec (.functionStart pg) s = .next s)

/-- A write that reaches a register at offset 0x040 or above of the power, scrubber, router, block RAM or memory port
page changes the fields of that register alone, each by its access type: RW takes the value unless it is a reserved
encoding; RWL does so while RUN is 0, and while RUN is 1 stays and sets WIGN; W1C clears the bits written as 1;
every other field stays. Nothing else in the device changes. (00_scope.md, 01_device_organisation.md) -/
def Obligations.RegisterWriteByAccess : Prop :=
  ∀ (w : Who) (pg off : Nat) (v : BitVec 32) (s : State), s.reaches w pg off → 0x40 ≤ off → plainPage pg = true →
    Completes (.registerWrite w pg off v) s fun t => s.performed t ∧ s.chip.onlyRegs t.chip ∧
      (∀ Fi ∈ fieldsAt pg off, t.chip.get Fi.1 pg Fi.2 = s.chip.fieldAfter pg v.toNat Fi) ∧
      ((∃ Fi ∈ fieldsAt pg off, Fi.1.acc = .rwl) → s.chip.run pg = true → t.chip.get PG_STS_WIGN pg = 1) ∧
      ((∀ Fi ∈ fieldsAt pg off, Fi.1.acc ≠ .rwl) ∨ s.chip.run pg = false →
        t.chip.get PG_STS_WIGN pg = s.chip.get PG_STS_WIGN pg) ∧
      s.chip.fieldsKept t.chip (PG_STS_WIGN.key pg 0 :: (fieldsAt pg off).map fun Fi => Fi.1.key pg Fi.2)

/-- A read that reaches a register of a page other than a lane page, outside the read window of the recorder and outside
a freeze, answers the register's value and leaves every read-to-clear field of it at its reset value; where the
register is no low half of a split counter nothing else changes. With the peek attribute such a read changes nothing
in the device, and answers the same value where nothing has filled a holding value. (00_scope.md,
20_debug_and_freeze.md) -/
def Obligations.ReadClears : Prop :=
  ∀ (w : Who) (pg off : Nat) (s : State), s.chip.regReach w pg off false = 0 → ¬ (pg = pgEV ∧ 0x800 ≤ off) →
    s.chip.peeks_ pg false = false →
    ((∀ q, pageKind pg ≠ some (.ln, q)) → s.chip.splitHigh pg off = [] → Completes (.rcRead w pg off false) s fun t =>
      t = { s with chip := t.chip, code := 0, rdata := t.rdata } ∧ s.chip.onlyRegs t.chip ∧
      t.rdata = BitVec.ofNat 32 (s.chip.regValue w pg off) ∧
      (∀ Fi ∈ fieldsAt pg off, Fi.1.acc = .rc → t.chip.get Fi.1 pg Fi.2 = Fi.1.resetAt pg Fi.2) ∧
      s.chip.fieldsKept t.chip (((fieldsAt pg off).filter fun Fi => Fi.1.acc == .rc).map fun Fi => Fi.1.key pg Fi.2)) ∧
    (s.chip.splitHigh pg off = [] → s.chip.peekOf pg off = none →
      exec (.rcRead w pg off true) s = .next { s with code := 0, rdata := BitVec.ofNat 32 (s.chip.regValue w pg off) })

/-- A read of EG_LAPCNTL, EG_OBSVALL, EE_SIGL and PW_ENGL that reaches the register copies the upper 32 bits of the
bound lap count, of the snapshot (with its lap number), of the commit signature and of the energy count into the
high register, and changes nothing else in the device; with the peek attribute no register field changes, and the
upper half is held for a peek of the high register. (04_laps_and_pacing.md, 06_pairing_and_replay.md,
07_engine_io_and_trace.md, 17_power_and_governor.md, 20_debug_and_freeze.md) -/
def Obligations.SplitCounterReads : Prop :=
  ∀ (w : Who) (s : State),
    (∀ g < 64, s.chip.regReach w (pgEG g) EG_LAPCNTL_COUNT.off false = 0 → s.chip.peeks_ (pgEG g) false = false →
      Completes (.splitCounterRead w (pgEG g) EG_LAPCNTL_COUNT.off false) s fun t => s.chip.onlyRegs t.chip ∧ t.code = 0 ∧
        t.chip.get EG_LAPCNTH_COUNT (pgEG g) = (s.chip.grp g).lapCnt.toNat / 2 ^ 32 ∧
        s.chip.fieldsKept t.chip [EG_LAPCNTH_COUNT.key (pgEG g) 0]) ∧
    (∀ g < 64, s.chip.regReach w (pgEG g) EG_OBSVALL_VAL.off false = 0 → s.chip.peeks_ (pgEG g) false = false →
      Completes (.splitCounterRead w (pgEG g) EG_OBSVALL_VAL.off false) s fun t => s.chip.onlyRegs t.chip ∧ t.code = 0 ∧
        t.chip.get EG_OBSVALH_VAL (pgEG g) = (s.chip.grp g).snap.toNat / 2 ^ 32 ∧
        t.chip.get EG_OBSLAP_LAP (pgEG g) = (s.chip.grp g).snapLap.toNat ∧
        s.chip.fieldsKept t.chip [EG_OBSVALH_VAL.key (pgEG g) 0, EG_OBSLAP_LAP.key (pgEG g) 0]) ∧
    (∀ e < 512, s.chip.regReach w (pgEE e) EE_SIGL_SIG.off false = 0 → s.chip.peeks_ (pgEE e) false = false →
      Completes (.splitCounterRead w (pgEE e) EE_SIGL_SIG.off false) s fun t => s.chip.onlyRegs t.chip ∧ t.code = 0 ∧
        t.chip.get EE_SIGH_SIG (pgEE e) = (Store.get 0 s.chip.eng.sig e).toNat / 2 ^ 32 ∧
        s.chip.fieldsKept t.chip [EE_SIGH_SIG.key (pgEE e) 0]) ∧
    (∀ n < 82, s.chip.regReach w pgPW (PW_ENGL_COUNT.off + 8 * n) false = 0 → s.chip.peeks_ pgPW false = false →
      Completes (.splitCounterRead w pgPW (PW_ENGL_COUNT.off + 8 * n) false) s fun t => s.chip.onlyRegs t.chip ∧ t.code = 0 ∧
        t.chip.get PW_ENGH_COUNT pgPW n = (Store.get 0 s.chip.pow.energy n).toNat / 2 ^ 32 ∧
        s.chip.fieldsKept t.chip [PW_ENGH_COUNT.key pgPW n]) ∧
    (∀ pg off, s.chip.regReach w pg off false = 0 → ¬ (pg = pgEV ∧ 0x800 ≤ off) →
      Completes (.splitCounterRead w pg off true) s fun t => t.chip = { s.chip with peeks := t.chip.peeks } ∧ t.code = 0 ∧
        ∀ h ∈ s.chip.splitHigh pg off, t.chip.peekOf pg (h.1.off + h.2.1 * h.1.stride) = some h.2.2)

/-- A write of one bit to PG_FFRC that reaches a mapped page makes a report of that source wait for the collector where
it is of class C0, C1 or (its domain on) C2, unless its pair is broken; a C3 source is reported for a debug master
at level FULL and sets WIGN for every other master; a reserved bit does nothing. A write to PG_FSTK clears exactly
the bits written as 1 that are no C3 source, and changes nothing else. (19_fault_collection.md) -/
def Obligations.ForcedAndStickyFaults : Prop :=
  ∀ (w : Who) (pg b : Nat) (v : BitVec 32) (s : State), s.reaches w pg PG_FFRC_FFRC.off → s.reaches w pg PG_FSTK_FSTK.off →
    (v.toNat = 2 ^ b → b < 32 →
      (∀ k, faultClass pg b = some k → k = 0 ∨ k = 1 ∨ (k = 3 ∧ w = .debug ∧ s.chip.fullDebug = true) → s.chip.mayReport pg b →
        Completes (.faultForce w pg v) s fun t => s.performed t ∧ t.chip.reported pg b ∧ s.chip.sameRegs t.chip ∧
          t.chip = { s.chip with flt := { s.chip.flt with waiting := t.chip.flt.waiting } }) ∧
      (faultClass pg b = some 2 → s.chip.domOn (domOf pg) = true → Completes (.faultForce w pg v) s fun t => s.performed t ∧
        ((pg, b) ∉ t.chip.flt.brokenPairs → t.chip.reported pg b)) ∧
      (faultClass pg b = some 3 → ¬ (w = .debug ∧ s.chip.fullDebug = true) →
        Completes (.faultForce w pg v) s fun t => s.performed t ∧ s.chip.onlyRegs t.chip ∧
          t.chip.get PG_STS_WIGN pg = 1 ∧ s.chip.fieldsKept t.chip [PG_STS_WIGN.key pg 0]) ∧
      (faultClass pg b = none → exec (.faultForce w pg v) s = .next { s with code := 0 })) ∧
    Completes (.faultStickyClear w pg v) s fun t => s.performed t ∧ s.chip.onlyRegs t.chip ∧
      (∀ n < 32, (t.chip.get PG_FSTK_FSTK pg).testBit n =
        ((s.chip.get PG_FSTK_FSTK pg).testBit n && (!v.getLsbD n || faultClass pg n == some 3))) ∧
      s.chip.fieldsKept t.chip [PG_FSTK_FSTK.key pg 0]

/-- While MAIN is up, FAULT_REPORT of a waiting report of a source of class k sets its sticky bit; where the source is
enabled and of class C0 or C1 and the FC function is stopped, it also counts FC_CLSCNT of the class (which stops at
its largest value), writes class, page and bit to FC_LAST, and for class C1 sets FC_STS.PEND and asserts FLTP_N (or
notes it while the deasserted time runs); where it is not enabled only the sticky bit changes. With no report
waiting, or MAIN not up, nothing changes. (19_fault_collection.md) -/
def Obligations.FaultReportIsCounted : Prop :=
  ∀ (s : State),
    (s.chip.rst.mainRel = false ∨ s.chip.flt.waiting = [] → exec .faultReport s = .next s) ∧
    (∀ r k, s.chip.rst.mainRel = true → nextReport s.chip.flt.waiting = some r → faultClass r.page r.bit = some k →
      Completes .faultReport s fun t => s.device t ∧
        ((s.chip.get PG_FEN_FEN r.page).testBit r.bit = false →
          t.chip.get PG_FSTK_FSTK r.page = (s.chip.get PG_FSTK_FSTK r.page ||| 2 ^ r.bit) % 2 ^ 32 ∧
          t.chip = { s.chip with regs := t.chip.regs, flt := { s.chip.flt with waiting := s.chip.flt.waiting.erase r } } ∧
          s.chip.fieldsKept t.chip [PG_FSTK_FSTK.key r.page 0]) ∧
        ((s.chip.get PG_FEN_FEN r.page).testBit r.bit = true → k ≤ 1 → s.chip.run pgFC = false →
          t.chip.get PG_FSTK_FSTK r.page = (s.chip.get PG_FSTK_FSTK r.page ||| 2 ^ r.bit) % 2 ^ 32 ∧
          t.chip.get FC_CLSCNT_COUNT pgFC k = satInc (2 ^ 32 - 1) (s.chip.get FC_CLSCNT_COUNT pgFC k) ∧
          t.chip.get FC_LAST_CLASS pgFC = k ∧ t.chip.get FC_LAST_PAGE pgFC = r.page ∧ t.chip.get FC_LAST_BIT pgFC = r.bit ∧
          t.chip = { s.chip with regs := t.chip.regs, flt := t.chip.flt, ev := t.chip.ev } ∧
          (k = 0 → t.chip.flt = { s.chip.flt with waiting := s.chip.flt.waiting.erase r }) ∧
          (k = 1 → t.chip.get FC_STS_PEND pgFC = 1 ∧ t.chip.flt.acked = false ∧
            (s.chip.flt.holdoff = false → t.chip.flt.fltp = true ∧ t.chip.flt.width = true) ∧
            (s.chip.flt.holdoff = true → t.chip.flt.heldReport = true ∧ t.chip.flt.fltp = s.chip.flt.fltp))))

/-- A write of FC_ACK that reaches the FC page clears FC_STS.PEND and acknowledges the report; FLTP_WIDTH_EXPIRE ends
the width. Either releases FLTP_N, and begins its deasserted time, exactly where FLTP_N is asserted, its width has
run and the report is acknowledged. FLTP_HOLDOFF_EXPIRE ends the deasserted time, and asserts FLTP_N again where a
report has come in it. Nothing else in the device changes. BROKEN_PAIR of an assigned source of a domain that is on,
whose pair is not broken yet, while MAIN is up, marks the pair broken, writes the source to FC_PAIRSRC, and makes a
report of the source itself and of FC_PAIR wait (the latter where its own pair is valid); elsewhere it changes
nothing. PAIR_RAILS_VALID takes the mark away, and changes nothing else. While the mark stands a fault of the source
makes no report. (19_fault_collection.md) -/
def Obligations.FaultPinAndBrokenPairs : Prop :=
  ((∀ (s : State),
    (∀ w, s.reaches w pgFC FC_ACK_ACK.off → Completes (.faultAck w) s fun t => s.performed t ∧ t.chip.get FC_STS_PEND pgFC = 0 ∧
      s.chip.fieldsKept t.chip [FC_STS_PEND.key pgFC 0] ∧
      t.chip = { s.chip with regs := t.chip.regs, flt := if s.chip.flt.fltp = true ∧ s.chip.flt.width = false then
        { s.chip.flt with acked := true, fltp := false, holdoff := true } else { s.chip.flt with acked := true } }) ∧
    exec .fltpWidthExpire s = .next { s with chip := { s.chip with flt := if s.chip.flt.fltp = true ∧ s.chip.flt.acked = true then
        { s.chip.flt with width := false, fltp := false, holdoff := true } else { s.chip.flt with width := false } } } ∧
    exec .fltpHoldoffExpire s = .next { s with chip := { s.chip with flt :=
        if s.chip.flt.holdoff = false then s.chip.flt
        else if s.chip.flt.heldReport = true then { s.chip.flt with holdoff := false, heldReport := false, fltp := true, width := true }
        else { s.chip.flt with holdoff := false } } })) ∧
   ((∀ (pg : Nat) (b : Fin 32) (s : State),
        ((faultClass pg b.val).isSome = true → s.chip.domOn (domOf pg) = true → (pg, b.val) ∉ s.chip.flt.brokenPairs →
          s.chip.rst.mainRel = true → Completes (.brokenPair pg b) s fun t => s.device t ∧
            t.chip = { s.chip with regs := t.chip.regs, flt := t.chip.flt } ∧
            t.chip.get FC_PAIRSRC_VALID pgFC = 1 ∧ t.chip.get FC_PAIRSRC_PAGE pgFC = pg ∧ t.chip.get FC_PAIRSRC_BIT pgFC = b.val ∧
            s.chip.fieldsKept t.chip [FC_PAIRSRC_VALID.key pgFC 0, FC_PAIRSRC_PAGE.key pgFC 0, FC_PAIRSRC_BIT.key pgFC 0] ∧
            t.chip.flt.brokenPairs = s.chip.flt.brokenPairs ++ [(pg, b.val)] ∧ t.chip.reported pg b.val ∧
            (s.chip.mayReport pgFC 0 → t.chip.reported pgFC 0)) ∧
        ((pg, b.val) ∈ s.chip.flt.brokenPairs ∨ s.chip.rst.mainRel = false → exec (.brokenPair pg b) s = .next s) ∧
        Completes (.pairRailsValid pg b) s fun t => s.device t ∧
          t.chip = { s.chip with flt := { s.chip.flt with brokenPairs := t.chip.flt.brokenPairs } } ∧
          (∀ q, q ∈ t.chip.flt.brokenPairs ↔ q ∈ s.chip.flt.brokenPairs ∧ q ≠ (pg, b.val))) ∧
      (∀ (c : Chip) (pg b : Nat) (f : Bool), (pg, b) ∈ c.flt.brokenPairs → c.report pg b f = c))

/-- A write of REQ = 0b01 at a page of a switched domain that reaches it: after a thermal trip it sets WIGN and changes
nothing else; during a freeze it is kept for later; at a domain that is off the domain waits for its slot at the end
of the queue; at a domain that is on it sets REQ and nothing else. A write of REQ = 0b00 is dropped with WIGN at a
group that runs with a bound engine; at a domain that is on the domain begins to fall towards off; at a domain that
waits after being off the request is cancelled. REQ = 0b10 at domain 78 makes a domain that is on fall towards
retention. (01_device_organisation.md, 13_scratchpad.md, 17_power_and_governor.md) -/
def Obligations.PowerRequests : Prop :=
  ∀ (w : Who) (pg d : Nat) (s : State), s.reaches w pg PG_PWR_REQ.off → (pageKind pg).isSome = true → domOf pg = d → d < 80 →
    (s.chip.reqBarred d 1 = true → Completes (.powerOnRequest w pg) s fun t => s.performed t ∧ s.chip.onlyRegs t.chip ∧
      t.chip.get PG_STS_WIGN pg = 1 ∧ s.chip.fieldsKept t.chip [PG_STS_WIGN.key pg 0]) ∧
    (s.chip.reqBarred d 1 = false → s.chip.stepsRun = false → Completes (.powerOnRequest w pg) s fun t => s.performed t ∧
      t.chip = { s.chip with pow := t.chip.pow } ∧ (t.chip.dom d).req = 1 ∧ (t.chip.dom d).phase = (s.chip.dom d).phase ∧
      t.chip.pow.later = s.chip.pow.later.filter (· != d) ++ [d]) ∧
    (s.chip.reqBarred d 1 = false → s.chip.stepsRun = true → (s.chip.dom d).phase = .off →
      Completes (.powerOnRequest w pg) s fun t => s.performed t ∧ t.chip = { s.chip with pow := t.chip.pow, flt := t.chip.flt } ∧
        (t.chip.dom d).phase = .waiting ∧ (t.chip.dom d).req = 1 ∧ t.chip.pow.queue = s.chip.pow.queue ++ [d] ∧
        (∀ x, x ≠ d → t.chip.dom x = s.chip.dom x) ∧
        (s.chip.railsGood d = true → t.chip.flt = s.chip.flt) ∧
        (s.chip.railsGood d = false → s.chip.mayReport pgPW 0 → t.chip.reported pgPW 0)) ∧
    (s.chip.reqBarred d 1 = false → s.chip.stepsRun = true → (s.chip.dom d).phase = .on →
      exec (.powerOnRequest w pg) s = .next { s with chip := s.chip.setDom d { s.chip.dom d with req := 1 }, code := 0 }) ∧
    (s.chip.reqBarred d 0 = true → Completes (.powerOffRequest w pg) s fun t => s.performed t ∧ s.chip.onlyRegs t.chip ∧
      t.chip.get PG_STS_WIGN pg = 1 ∧ s.chip.fieldsKept t.chip [PG_STS_WIGN.key pg 0]) ∧
    (s.chip.reqBarred d 0 = false → s.chip.stepsRun = true → (s.chip.dom d).phase = .on →
      Completes (.powerOffRequest w pg) s fun t => s.performed t ∧ (t.chip.dom d).phase = .falling ∧ (t.chip.dom d).toRet = false) ∧
    (s.chip.reqBarred d 0 = false → s.chip.stepsRun = true → (s.chip.dom d).phase = .waiting → (s.chip.dom d).fromRet = false →
      Completes (.powerOffRequest w pg) s fun t => s.performed t ∧ t.chip = { s.chip with pow := t.chip.pow } ∧
        (t.chip.dom d).phase = .off ∧ (t.chip.dom d).req = 0 ∧ d ∉ t.chip.pow.queue ∧ ∀ x, x ≠ d → t.chip.dom x = s.chip.dom x) ∧
    (∀ p : Fin 4, pg = pgSP p.val → s.chip.reqBarred 78 2 = false → s.chip.stepsRun = true → (s.chip.dom 78).phase = .on →
      Completes (.retentionRequest w p) s fun t => s.performed t ∧ (t.chip.dom 78).phase = .falling ∧ (t.chip.dom 78).toRet = true)

/-- POWER_ON_SLOT_TAKEN of a waiting domain whose monitors are good, for which a slot is free in the order of the queue
(or whose rise began from an emulated off) and whose loop runs, makes it rise and leave the queue. POWER_ON_COMPLETE
of a rising domain whose REQ is 1 makes it on: its fences are dropped and its gates open where CLKEN is 1.
POWER_OFF_COMPLETE of a falling domain whose fences are complete, and FENCE_TIMEOUT of one whose fences are not,
make it off (or retained), with its fences up; the timeout is reported. Every other domain stays as it is. In any
other phase, and during a freeze, all four change nothing. (17_power_and_governor.md, 12_packet_network.md) -/
def Obligations.PowerTransitionsComplete : Prop :=
  ∀ (d : Fin 80) (s : State),
    ((s.chip.dom d.val).phase = .waiting → s.chip.stepsRun = true → s.chip.railsGood d.val = true →
      ((s.chip.dom d.val).fromEmul = true ∨ (s.chip.slotsUsed < 4 ∧ s.chip.firstInQueue d.val = true)) →
      ((64 ≤ d.val ∧ d.val < 79) ∨ (d.val < 64 ∧ s.chip.engineLoop = true ∧ 0 ∉ s.chip.clk.parked)) →
      Completes (.powerOnSlotTaken d) s fun t => s.device t ∧ (t.chip.dom d.val).phase = .rising ∧ d.val ∉ t.chip.pow.queue ∧
        (∀ x, x ≠ d.val → t.chip.dom x = s.chip.dom x)) ∧
    ((s.chip.dom d.val).phase ≠ .waiting ∨ s.chip.stepsRun = false ∨ s.chip.railsGood d.val = false →
      exec (.powerOnSlotTaken d) s = .next s) ∧
    ((s.chip.dom d.val).phase = .rising → s.chip.stepsRun = true → (s.chip.dom d.val).req = 1 →
      Completes (.powerOnComplete d) s fun t => s.device t ∧ (t.chip.dom d.val).phase = .on ∧ (t.chip.dom d.val).req = 1 ∧
        (∀ x, x ≠ d.val → t.chip.dom x = s.chip.dom x) ∧
        (∀ nb ∈ bridgesOf d.val, t.chip.get NC_BRG_FENCED (pgNI nb.1) nb.2 = 0) ∧
        (∀ pg ∈ pagesOf d.val, t.chip.gate pg = if t.chip.bit PG_CTL_CLKEN pg then .opened else .closed)) ∧
    ((s.chip.dom d.val).phase ≠ .rising ∨ s.chip.stepsRun = false → exec (.powerOnComplete d) s = .next s) ∧
    ((s.chip.dom d.val).phase = .falling → s.chip.stepsRun = true →
      (s.chip.fenceDone d.val = true → (s.chip.dom d.val).toRet = false → (s.chip.dom d.val).req = 0 →
        Completes (.powerOffComplete d) s fun t => s.device t ∧ (t.chip.dom d.val).phase = .off ∧
          (∀ x, x ≠ d.val → t.chip.dom x = s.chip.dom x) ∧
          (∀ nb ∈ bridgesOf d.val, t.chip.get NC_BRG_FENCED (pgNI nb.1) nb.2 = 1) ∧ (∀ pg ∈ pagesOf d.val, t.chip.gate pg = .closed)) ∧
      (s.chip.fenceDone d.val = true → (s.chip.dom d.val).toRet = true → (s.chip.dom d.val).req = 2 →
        Completes (.powerOffComplete d) s fun t => s.device t ∧ (t.chip.dom d.val).phase = .retention) ∧
      (s.chip.fenceDone d.val = false → (s.chip.dom d.val).toRet = false → (s.chip.dom d.val).req = 0 →
        exec (.powerOffComplete d) s = .next s ∧
        Completes (.fenceTimeout d) s fun t => s.device t ∧ (t.chip.dom d.val).phase = .off ∧
          (t.chip.mayReport pgPW 3 → t.chip.reported pgPW 3))) ∧
    ((s.chip.dom d.val).phase ≠ .falling ∨ s.chip.stepsRun = false →
      exec (.powerOffComplete d) s = .next s ∧ exec (.fenceTimeout d) s = .next s)

/-- RAIL_GOOD above the good level of a monitor writes the level and sets its GOOD bit (while the start waits for no
monitor nothing else changes); at or below the level it changes nothing then. RAIL_BAD of a monitor that is not good
changes nothing; of monitor 0 or 23 it puts AON back into reset, and the test access port with it; of a monitor that
switched domains need it clears the GOOD bit and switches each of those that is on off at once. VCCO_LOSS and
VCCO_RETURN clear and set the bank's PRESENT bit; a loss under a sector that is on is reported once. EMULATION_END
of a domain whose emulated power-off is to end ends the emulation, and keeps its phase. (17_power_and_governor.md,
18_startup_and_reset.md, 20_debug_and_freeze.md) -/
def Obligations.RailsAndSupplies : Prop :=
  (∀ (n : Fin 24) (mv : BitVec 12) (s : State), s.chip.rst.phase ≠ .records →
    ((railLevel n.val).1 < mv.toNat → Completes (.railGood n mv) s fun t => s.device t ∧ s.chip.onlyRegs t.chip ∧
      t.chip.railGood n.val = true ∧ t.chip.get PW_VMON_MV pgPW n.val = mv.toNat ∧
      (∀ m < 24, m ≠ n.val → t.chip.railGood m = s.chip.railGood m) ∧
      s.chip.fieldsKept t.chip [PW_VMON_MV.key pgPW n.val, PW_RAILSTS_GOOD.key pgPW 0]) ∧
    (mv.toNat ≤ (railLevel n.val).1 → exec (.railGood n mv) s = .next s)) ∧
  (∀ (n : Fin 24) (mv : BitVec 12) (s : State),
    (s.chip.railGood n.val = false → exec (.railBad n mv) s = .next s) ∧
    (s.chip.railGood n.val = true → n = 0 ∨ n = 23 → Completes (.railBad n mv) s fun t =>
      t = { s with chip := t.chip, tap := {} } ∧ t.chip.rst.phase = .held ∧ t.chip.rst.mainRel = false ∧
      t.chip.stepping = s.chip.stepping ∧ t.chip.ev.flash = s.chip.ev.flash ∧ (∀ d, t.chip.dom d = {})) ∧
    (s.chip.railGood n.val = true → 2 ≤ n.val → n ≠ 23 → Completes (.railBad n mv) s fun t => s.device t ∧
      ∀ d < 80, n.val ∈ railsOf d → (s.chip.dom d).phase = .on → (t.chip.dom d).phase = .off ∧ (t.chip.dom d).req = 0)) ∧
  (∀ (b : Fin 20) (s : State),
    (Completes (.vccoLoss b) s fun t => s.device t ∧
      t.chip = { s.chip with regs := t.chip.regs, pow := { s.chip.pow with vccoTold := t.chip.pow.vccoTold }, flt := t.chip.flt } ∧
      (t.chip.get PW_VCCOSTS_PRESENT pgPW).testBit b.val = false ∧
      s.chip.fieldsKept t.chip [PW_VCCOSTS_PRESENT.key pgPW 0] ∧
      (s.chip.domOn (64 + bankSector b.val) = true → b.val ∉ s.chip.pow.vccoTold →
        b.val ∈ t.chip.pow.vccoTold ∧ (s.chip.mayReport pgPW 2 → t.chip.reported pgPW 2)) ∧
      (s.chip.domOn (64 + bankSector b.val) = false ∨ b.val ∈ s.chip.pow.vccoTold → s.chip.onlyRegs t.chip)) ∧
    (Completes (.vccoReturn b) s fun t => s.device t ∧
      t.chip = { s.chip with regs := t.chip.regs, pow := { s.chip.pow with vccoTold := t.chip.pow.vccoTold } } ∧
      (t.chip.get PW_VCCOSTS_PRESENT pgPW).testBit b.val = true ∧ b.val ∉ t.chip.pow.vccoTold ∧
      s.chip.fieldsKept t.chip [PW_VCCOSTS_PRESENT.key pgPW 0])) ∧
  (∀ (d : Fin 80) (s : State),
    ((s.chip.dom d.val).emul = true → (s.chip.dom d.val).ends = true → s.chip.stepsRun = true →
      Completes (.emulationEnd d) s fun t => s.device t ∧
        t.chip.dom d.val = { s.chip.dom d.val with emul := false, ends := false } ∧
        (∀ x, x ≠ d.val → t.chip.dom x = s.chip.dom x)) ∧
    ((s.chip.dom d.val).emul = false ∨ (s.chip.dom d.val).ends = false ∨ s.chip.stepsRun = false →
      exec (.emulationEnd d) s = .next s))

/-- REFCLK_QUALIFY_COUNT on the main path with at least 64 edges qualifies REFCLK (REFST = 2, TICKSRC = 1), and with
fewer restarts the count, the 16th restart reporting CK_REFWAIT once. REFCLK_WINDOW on the fallback path qualifies
it at the eighth window in a row in the band of one code, which CK_REFCFG takes; while it is qualified a window in
its band clears the run of bad windows, a first one outside it is counted, and a second one in a row is a loss of
REFCLK. REFCLK_WAIT_TIMEOUT reports CK_REFWAIT once for a wait. A loss sets REFST = 3, REFLOSS and COAST, clears
TICKSRC, and every loop that is to run coasts without its lock. (16_clocks.md) -/
def Obligations.RefclkIsQualified : Prop :=
  ∀ (edges count : Nat) (s : State),
    (s.chip.get CK_STS_REFST pgCK = 1 → s.chip.get CK_REFCFG_VALID pgCK = 1 →
      (64 ≤ edges → Completes (.refclkQualifyCount edges) s fun t => s.device t ∧ t.chip.get CK_STS_REFST pgCK = 2 ∧
        t.chip.get CK_STS_TICKSRC pgCK = 1 ∧
        t.chip = { s.chip with regs := t.chip.regs, clk := { s.chip.clk with run := 0, badRun := 0, restarts := 0, waitTold := false } }) ∧
      (edges < 64 → Completes (.refclkQualifyCount edges) s fun t => s.device t ∧ s.chip.sameRegs t.chip ∧
        t.chip.clk.restarts = min 16 (s.chip.clk.restarts + 1) ∧
        (15 ≤ s.chip.clk.restarts → s.chip.clk.waitTold = false → t.chip.clk.waitTold = true ∧
          (s.chip.mayReport pgCK 0 → t.chip.reported pgCK 0)) ∧
        (s.chip.clk.restarts < 15 ∨ s.chip.clk.waitTold = true → t.chip = { s.chip with clk := { s.chip.clk with restarts := t.chip.clk.restarts } }))) ∧
    (s.chip.get CK_STS_REFST pgCK ≠ 1 → exec (.refclkQualifyCount edges) s = .next s) ∧
    (s.chip.get CK_STS_REFST pgCK = 1 → s.chip.get CK_REFCFG_VALID pgCK ≠ 1 → ∀ f < 3,
      ((List.range 3).find? fun g => s.chip.inBand g count) = some f →
      (s.chip.clk.run = 7 → s.chip.clk.runCode = f → Completes (.refclkWindow count) s fun t => s.device t ∧
        t.chip.get CK_STS_REFST pgCK = 2 ∧ t.chip.get CK_REFCFG_FREQ pgCK = f) ∧
      (s.chip.clk.run < 7 → s.chip.clk.runCode = f → exec (.refclkWindow count) s =
        .next { s with chip := { s.chip with clk := { s.chip.clk with runCode := f, run := s.chip.clk.run + 1 } } }) ∧
      (s.chip.clk.runCode ≠ f → exec (.refclkWindow count) s =
        .next { s with chip := { s.chip with clk := { s.chip.clk with runCode := f, run := 1 } } })) ∧
    (s.chip.get CK_STS_REFST pgCK = 2 →
      (s.chip.inBand (s.chip.get CK_REFCFG_FREQ pgCK) count = true → exec (.refclkWindow count) s =
        .next { s with chip := { s.chip with clk := { s.chip.clk with badRun := 0 } } }) ∧
      (s.chip.inBand (s.chip.get CK_REFCFG_FREQ pgCK) count = false → s.chip.clk.badRun = 0 → exec (.refclkWindow count) s =
        .next { s with chip := { s.chip with clk := { s.chip.clk with badRun := 1 } } }) ∧
      (s.chip.inBand (s.chip.get CK_REFCFG_FREQ pgCK) count = false → 1 ≤ s.chip.clk.badRun →
        exec (.refclkWindow count) s = exec .refclkLoss s) ∧
      Completes .refclkLoss s fun t => s.device t ∧ t.chip.get CK_STS_REFST pgCK = 3 ∧ t.chip.get CK_STS_REFLOSS pgCK = 1 ∧
        t.chip.get CK_STS_TICKSRC pgCK = 0 ∧ t.chip.get CK_STS_COAST pgCK = 1 ∧
        ∀ l < 5, s.chip.loopWanted l = true → l ∈ t.chip.clk.coasting ∧ t.chip.get (loopBit l) pgCK = 0) ∧
    (s.chip.get CK_STS_REFST pgCK ≠ 2 → exec .refclkLoss s = .next s) ∧
    (s.chip.get CK_STS_REFST pgCK = 3 ∨ (s.chip.get CK_STS_REFST pgCK = 1 ∧ s.chip.get CK_REFCFG_VALID pgCK ≠ 1) →
      (s.chip.clk.waitTold = true → exec .refclkWaitTimeout s = .next s) ∧
      (s.chip.clk.waitTold = false → Completes .refclkWaitTimeout s fun t => s.device t ∧
        t.chip = { s.chip with clk := { s.chip.clk with waitTold := true }, flt := t.chip.flt } ∧
        (s.chip.mayReport pgCK 0 → t.chip.reported pgCK 0)))

/-- LOOP_LOCK of a loop that is to run, has no lock, and has a qualified REFCLK sets its lock bit and ends its coasting;
the network loop's first lock begins the switch of MAIN; otherwise it changes nothing. FPLL_ENABLE of a loop with EN
= 0 writes EN = 1 and FM, and sets RANGE where FM is out of range and REFCLK is qualified; of a loop with EN = 1 it
sets WIGN and changes neither EN nor FM. FPLL_LOCK_LOSS of a locked fabric loop while REFCLK is qualified clears its
lock, makes it coast and reports CK_FPLL; otherwise it changes nothing. (16_clocks.md) -/
def Obligations.LoopsLockAndLoseLock : Prop :=
  ∀ (s : State),
    (∀ l : Fin 5,
      (s.chip.get CK_STS_REFST pgCK = 2 → s.chip.loopWanted l.val = true → s.chip.get (loopBit l.val) pgCK ≠ 1 →
        Completes (.loopLock l) s fun t => s.device t ∧ t.chip = { s.chip with regs := t.chip.regs, clk := t.chip.clk } ∧
          t.chip.get (loopBit l.val) pgCK = 1 ∧ l.val ∉ t.chip.clk.coasting ∧
          s.chip.fieldsKept t.chip [(loopBit l.val).key pgCK 0, CK_STS_COAST.key pgCK 0] ∧
          (l = 1 → s.chip.clk.onNet = false → t.chip.clk.onNet = true ∧ t.chip.clk.mainSwitch = true) ∧
          (l ≠ 1 ∨ s.chip.clk.onNet = true → t.chip.clk = { s.chip.clk with coasting := t.chip.clk.coasting })) ∧
      (s.chip.get CK_STS_REFST pgCK ≠ 2 ∨ s.chip.loopWanted l.val = false ∨ s.chip.get (loopBit l.val) pgCK = 1 →
        exec (.loopLock l) s = .next s)) ∧
    (∀ (w : Who) (m : Fin 2) (v : BitVec 32), s.reaches w pgCK (CK_FPLL_EN.off + CK_FPLL_EN.stride * m.val) →
      (s.chip.get CK_FPLL_EN pgCK m.val ≠ 1 → Completes (.fpllEnable w m v) s fun t => s.performed t ∧ s.chip.onlyRegs t.chip ∧
        t.chip.get CK_FPLL_EN pgCK m.val = 1 ∧ t.chip.get CK_FPLL_FM pgCK m.val = v.toNat % 256 ∧
        (s.chip.get CK_STS_REFST pgCK = 2 → t.chip.loopWanted (2 + m.val) = false → t.chip.get CK_FPLL_RANGE pgCK m.val = 1) ∧
        s.chip.fieldsKept t.chip [CK_FPLL_EN.key pgCK m.val, CK_FPLL_FM.key pgCK m.val, CK_FPLL_RANGE.key pgCK m.val]) ∧
      (s.chip.get CK_FPLL_EN pgCK m.val = 1 → Completes (.fpllEnable w m v) s fun t => s.performed t ∧ s.chip.onlyRegs t.chip ∧
        t.chip.get PG_STS_WIGN pgCK = 1 ∧ s.chip.fieldsKept t.chip [PG_STS_WIGN.key pgCK 0, CK_FPLL_RANGE.key pgCK m.val])) ∧
    (∀ m : Fin 2,
      (s.chip.get CK_STS_REFST pgCK = 2 → s.chip.get (loopBit (2 + m.val)) pgCK = 1 → Completes (.fpllLockLoss m) s fun t =>
        s.device t ∧ t.chip = { s.chip with regs := t.chip.regs, clk := { s.chip.clk with coasting := t.chip.clk.coasting }, flt := t.chip.flt } ∧
        t.chip.get (loopBit (2 + m.val)) pgCK = 0 ∧ 2 + m.val ∈ t.chip.clk.coasting ∧ t.chip.get CK_STS_COAST pgCK = 1 ∧
        (s.chip.mayReport pgCK 2 → t.chip.reported pgCK 2)) ∧
      (s.chip.get CK_STS_REFST pgCK ≠ 2 ∨ s.chip.get (loopBit (2 + m.val)) pgCK ≠ 1 → exec (.fpllLockLoss m) s = .next s))

/-- FCLK_SWITCH of a clock that is not switching takes a source other than 3 and a divisor of at least 7, sets BUSY and
begins the switch where one of them changes, and changes nothing where neither does; of a clock that is switching it
sets WIGN and changes nothing else. CLOCK_SWITCH_DONE ends a switch to off or to a locked loop and clears BUSY; for
MAIN it ends its switch. CLOCK_SWITCH_TIMEOUT of MAIN while it switches, and of a clock that switches from a source,
sets SWTO and SWID and reports CK_SWITCH. (16_clocks.md) -/
def Obligations.FabricClocksSwitch : Prop :=
  ∀ (s : State),
    (∀ (w : Who) (n : Fin 8) (v : BitVec 32), s.reaches w pgCK (CK_FCLK_DIV.off + CK_FCLK_DIV.stride * n.val) →
      (s.chip.get CK_FCLK_BUSY pgCK n.val = 1 → Completes (.fclkSwitch w n v) s fun t => s.performed t ∧ s.chip.onlyRegs t.chip ∧
        t.chip.get PG_STS_WIGN pgCK = 1 ∧ s.chip.fieldsKept t.chip [PG_STS_WIGN.key pgCK 0]) ∧
      (∀ src div, src = (if v.toNat / 256 % 4 = 3 then s.chip.get CK_FCLK_SRC pgCK n.val else v.toNat / 256 % 4) →
        div = (if v.toNat % 256 < 7 then s.chip.get CK_FCLK_DIV pgCK n.val else v.toNat % 256) →
        s.chip.get CK_FCLK_BUSY pgCK n.val ≠ 1 →
        (src = s.chip.get CK_FCLK_SRC pgCK n.val → div = s.chip.get CK_FCLK_DIV pgCK n.val →
          exec (.fclkSwitch w n v) s = .next { s with code := 0 }) ∧
        (¬ (src = s.chip.get CK_FCLK_SRC pgCK n.val ∧ div = s.chip.get CK_FCLK_DIV pgCK n.val) →
          Completes (.fclkSwitch w n v) s fun t => s.performed t ∧
            t.chip = { s.chip with regs := t.chip.regs, clk := { s.chip.clk with switching :=
              s.chip.clk.switching ++ [(n.val, s.chip.get CK_FCLK_SRC pgCK n.val, false)] } } ∧
            t.chip.get CK_FCLK_SRC pgCK n.val = src % 4 ∧ t.chip.get CK_FCLK_DIV pgCK n.val = div % 256 ∧
            t.chip.get CK_FCLK_BUSY pgCK n.val = 1 ∧
            s.chip.fieldsKept t.chip [CK_FCLK_SRC.key pgCK n.val, CK_FCLK_DIV.key pgCK n.val, CK_FCLK_BUSY.key pgCK n.val]))) ∧
    (∀ n : Fin 9, n.val < 8 → (∃ x ∈ s.chip.clk.switching, x.1 = n.val) →
      (s.chip.get CK_FCLK_SRC pgCK n.val = 0 ∨ s.chip.get (loopBit (1 + s.chip.get CK_FCLK_SRC pgCK n.val)) pgCK = 1 →
        Completes (.clockSwitchDone n) s fun t => s.device t ∧ t.chip.get CK_FCLK_BUSY pgCK n.val = 0 ∧
          (∀ x ∈ t.chip.clk.switching, x.1 ≠ n.val) ∧ s.chip.fieldsKept t.chip [CK_FCLK_BUSY.key pgCK n.val] ∧
          t.chip = { s.chip with regs := t.chip.regs, clk := { s.chip.clk with switching := t.chip.clk.switching } })) ∧
    (exec (.clockSwitchDone 8) s = .next { s with chip := { s.chip with clk := { s.chip.clk with mainSwitch := false } } }) ∧
    (s.chip.clk.mainSwitch = false → exec (.clockSwitchTimeout 8) s = .next s) ∧
    (∀ n : Fin 9, (n = 8 ∧ s.chip.clk.mainSwitch = true) ∨
        (n ≠ 8 ∧ ∃ x ∈ s.chip.clk.switching, x.1 = n.val ∧ x.2.1 ≠ 0 ∧ x.2.2 = false) →
      Completes (.clockSwitchTimeout n) s fun t => s.device t ∧ t.chip.get CK_STS_SWTO pgCK = 1 ∧ t.chip.get CK_STS_SWID pgCK = n.val ∧
        (s.chip.mayReport pgCK 3 → t.chip.reported pgCK 3) ∧
        s.chip.fieldsKept t.chip [CK_STS_SWTO.key pgCK 0, CK_STS_SWID.key pgCK 0, CK_FCLK_BUSY.key pgCK n.val])

/-- GATE_HANDSHAKE of a gate whose handshake has been asked, at an idle block that is not frozen, closes it and changes
nothing else (in an EG page a pending pace event is discarded as well); at a busy block, and where no handshake has
been asked, it changes nothing. GATE_HANDSHAKE_TIMEOUT forces a gate whose handshake has been asked, sets GATEFRC
and writes the page to CK_GATEID, and reports CK_GATE; elsewhere it changes nothing. (16_clocks.md,
01_device_organisation.md) -/
def Obligations.GatesCloseByHandshake : Prop :=
  ∀ (pg : Nat) (s : State), pg < 0x8000 →
    (s.chip.gate pg = .asked → s.chip.pageMoves pg = true → s.chip.pageQuiet pg = true →
      Completes (.gateHandshake pg) s fun t => s.device t ∧ t.chip.gate pg = .closed ∧ (∀ q, q ≠ pg → t.chip.gate q = s.chip.gate q) ∧
        ((∀ g, pageKind pg ≠ some (.eg, g)) → t.chip = { s.chip with clk := { s.chip.clk with gate := t.chip.clk.gate } }) ∧
        (∀ g, pageKind pg = some (.eg, g) → (t.chip.grp g).held = false ∧ (t.chip.grp g).resync = false ∧
          t.chip.get EG_LAPSTS_PEND pg = 0)) ∧
    (s.chip.gate pg ≠ .asked ∨ s.chip.pageQuiet pg = false → exec (.gateHandshake pg) s = .next s) ∧
    (s.chip.gate pg = .asked → Completes (.gateHandshakeTimeout pg) s fun t => s.device t ∧ t.chip.gate pg = .forced ∧
      t.chip.get CK_STS_GATEFRC pgCK = 1 ∧ t.chip.get CK_GATEID_VALID pgCK = 1 ∧ t.chip.get CK_GATEID_OFFS pgCK = pg) ∧
    (s.chip.gate pg ≠ .asked → exec (.gateHandshakeTimeout pg) s = .next s)

/-- EPOCH adds the energies of the epoch to the 82 counters (which wrap at 2^64), counts PW_EPOCH, and makes a budget
word due in every group whose domain is on. A reading of a sensor that has not failed, below the trip point, is
written to PW_TEMP; one at or above it, where no trip has happened, switches every domain off. A sensor that fails
its check has its bit set and reads 0x1FF with a report; one that passes again has it cleared. The ageing margin of
a group that is on is written, and its body bias code moves by at most one step: up below the guard band, down above
twice the guard band; BIAS_APPLY brings the code into force in a group with no lap in progress.
(17_power_and_governor.md) -/
def Obligations.GovernorAndSensors : Prop :=
  ∀ (s : State),
    (∀ energy loose : List Nat, Completes (.epoch energy loose) s fun t => s.device t ∧
      (∀ n < 82, Store.get 0 t.chip.pow.energy n = Store.get 0 s.chip.pow.energy n + BitVec.ofNat 64 (energy.getD n 0)) ∧
      t.chip.get PW_EPOCH_COUNT pgPW = (s.chip.get PW_EPOCH_COUNT pgPW + 1) % 2 ^ 32 ∧
      (∀ g < 64, s.chip.domOn g = true → (t.chip.grp g).adm.due = true ∧ (t.chip.grp g).adm.demand = false) ∧
      (∀ g < 64, s.chip.domOn g = false → t.chip.grp g = s.chip.grp g) ∧
      t.chip = { s.chip with regs := t.chip.regs, pow := t.chip.pow, flt := t.chip.flt, eng := { s.chip.eng with group := t.chip.eng.group } } ∧
      s.chip.fieldsKept t.chip [PW_GOVSTS_OVERCAP.key pgPW 0, PW_GOVSTS_CAPEXC.key pgPW 0, PW_EPOCH_COUNT.key pgPW 0,
        PW_BUDGET_WORD.key pgPW 0, PW_GOVSTS_THROT.key pgPW 0]) ∧
    (∀ (n : Fin 72) (temp : BitVec 10), s.chip.sensorFailed n.val = false →
      (sgn 10 temp.toNat < (4 * s.chip.get PW_TTRIP_TRIP pgPW : Nat) ∨ s.chip.pow.tripped = true →
        Completes (.sensorReading n temp) s fun t => s.device t ∧ t.chip.get PW_TEMP_TEMP pgPW n.val = temp.toNat ∧
          n.val ∈ t.chip.pow.seen ∧ t.chip = { s.chip with regs := t.chip.regs, flt := t.chip.flt, pow := t.chip.pow } ∧
          s.chip.fieldsKept t.chip [PW_TEMP_TEMP.key pgPW n.val, PW_HOT_TEMP.key pgPW 0, PW_HOT_INDEX.key pgPW 0]) ∧
      (¬ sgn 10 temp.toNat < (4 * s.chip.get PW_TTRIP_TRIP pgPW : Nat) → s.chip.pow.tripped = false →
        Completes (.sensorReading n temp) s fun t => s.device t ∧ t.chip.pow.tripped = true ∧
          t.chip.get PW_GOVSTS_TRIPPED pgPW = 1 ∧ (∀ d < 80, (t.chip.dom d).phase = .off) ∧
          (t.chip.mayReport pgPW 7 → t.chip.reported pgPW 7))) ∧
    (∀ (n : Fin 72) (temp : BitVec 10), s.chip.sensorFailed n.val = true → exec (.sensorReading n temp) s = .next s) ∧
    (∀ n : Fin 72,
      (s.chip.sensorFailed n.val = false → exec (.sensorCalibration n true) s = .next s ∧
        Completes (.sensorCalibration n false) s fun t => s.device t ∧ t.chip.sensorFailed n.val = true ∧
          t.chip.get PW_TEMP_TEMP pgPW n.val = 0x1FF ∧ n.val ∉ t.chip.pow.seen ∧
          (s.chip.mayReport pgPW 8 → t.chip.reported pgPW 8)) ∧
      (s.chip.sensorFailed n.val = true → exec (.sensorCalibration n false) s = .next s ∧
        Completes (.sensorCalibration n true) s fun t => s.device t ∧ t.chip.sensorFailed n.val = false)) ∧
    (∀ (g : Fin 64) (marg : BitVec 8),
      (s.chip.domOn g.val = false → exec (.ageingReading g marg) s = .next s) ∧
      (s.chip.domOn g.val = true → Completes (.ageingReading g marg) s fun t => s.device t ∧
        t.chip.get PW_AGE_MARG pgPW g.val = marg.toNat ∧
        t.chip = { s.chip with regs := t.chip.regs, flt := t.chip.flt } ∧
        s.chip.fieldsKept t.chip [PW_AGE_MARG.key pgPW g.val, PW_AGE_CODE.key pgPW g.val] ∧
        (marg.toNat < s.chip.get PW_AGEGB_GB pgPW → s.chip.get PW_AGE_CODE pgPW g.val < 15 →
          t.chip.get PW_AGE_CODE pgPW g.val = s.chip.get PW_AGE_CODE pgPW g.val + 1) ∧
        (marg.toNat < s.chip.get PW_AGEGB_GB pgPW → s.chip.get PW_AGE_CODE pgPW g.val = 15 →
          t.chip.get PW_AGE_CODE pgPW g.val = 15 ∧ (s.chip.mayReport pgPW 9 → t.chip.reported pgPW 9)) ∧
        (2 * s.chip.get PW_AGEGB_GB pgPW < marg.toNat → 0 < s.chip.get PW_AGE_CODE pgPW g.val →
          s.chip.get PW_AGE_CODE pgPW g.val < 16 →
          t.chip.get PW_AGE_CODE pgPW g.val = s.chip.get PW_AGE_CODE pgPW g.val - 1) ∧
        (s.chip.get PW_AGEGB_GB pgPW ≤ marg.toNat → marg.toNat ≤ 2 * s.chip.get PW_AGEGB_GB pgPW →
          t.chip.get PW_AGE_CODE pgPW g.val = s.chip.get PW_AGE_CODE pgPW g.val))) ∧
    (∀ g : Fin 64, s.chip.domOn g.val = true → s.chip.stepsRun = true →
      (s.chip.grp g.val).bound.on = false → (s.chip.grp g.val).loose.on = false →
      Completes (.biasApply g) s fun t => s.device t ∧ s.chip.onlyRegs t.chip ∧
        t.chip.get EG_BIAS_CODE (pgEG g.val) = s.chip.get PW_AGE_CODE pgPW g.val % 16 ∧
        s.chip.fieldsKept t.chip [EG_BIAS_CODE.key (pgEG g.val) 0])

/-- COLD_START while AON is held and monitors 0 and 23 read good reads the records and samples the straps: the
identification pins are shown, the recorder begins its search, the test access port is reset, and MAIN is released
exactly where monitor 1 reads good; while AON is not held it changes nothing. ROUTE_RECORD_LOAD, while MAIN is up
and no load has been made, with no valid route record in flash loads the built-in route of every NI and no other
entry, shows the absence and reports it, and shows no absence with a valid one; where a load has been made it
changes nothing. DEVICE_READY in the phase of MAIN-up, after the route load, with domain 79 on (or not requested)
and the network loop locked (or after a warm reset), makes the device ready, and otherwise changes nothing.
(18_startup_and_reset.md) -/
def Obligations.StartAndReady : Prop :=
  (∀ (dev : BitVec 6) (mode : BitVec 2) (pudc : Bool) (s : State),
    (s.chip.rst.phase = .held → s.chip.railGood 0 = true → s.chip.railGood 23 = true → Completes (.coldStart dev mode pudc) s fun t =>
      t = { s with chip := t.chip, tap := {} } ∧ t.chip.rst.recordsRead = true ∧ t.chip.rst.mainRel = (s.chip.rst.mainRel || s.chip.railGood 1) ∧
      t.chip.rst.phase = (if s.chip.railGood 1 = true then .mainup else .records) ∧ t.chip.ev.searching = true ∧
      t.chip.pin = { s.chip.pin with devId := dev, cfgMode := mode, pudcN := pudc } ∧
      t.chip.get GL_STRAPS_DEV_ID pgGL = dev.toNat ∧ t.chip.get GL_STRAPS_CFG_MODE pgGL = mode.toNat) ∧
    (s.chip.rst.phase ≠ .held → exec (.coldStart dev mode pudc) s = .next s)) ∧
  (∀ s : State,
    (s.chip.rst.mainRel = true → s.chip.get GL_STS_ROUTES pgGL = 0 → s.chip.routeValid = false →
      Completes .routeRecordLoad s fun t => s.device t ∧ t.chip.get GL_STS_ROUTES pgGL = 2 ∧
        (∀ n i, 32 ≤ n → n < 64 → i < 256 → t.chip.routeEntry n i =
          if i % 8 = 0 ∧ 32 + i / 8 ≠ n then builtIn n (32 + i / 8) else 0) ∧
        t.chip = { s.chip with regs := t.chip.regs, flt := t.chip.flt, net := { s.chip.net with routes := t.chip.net.routes } } ∧
        s.chip.fieldsKept t.chip [GL_STS_ROUTES.key pgGL 0] ∧ (s.chip.mayReport pgGL 2 → t.chip.reported pgGL 2)) ∧
    (s.chip.rst.mainRel = true → s.chip.get GL_STS_ROUTES pgGL = 0 → Completes .routeRecordLoad s fun t => s.device t ∧
      t.chip.get GL_STS_ROUTES pgGL ∈ [1, 2, 3] ∧ (t.chip.get GL_STS_ROUTES pgGL = 2 ↔ s.chip.routeValid = false)) ∧
    (s.chip.rst.mainRel = false ∨ s.chip.get GL_STS_ROUTES pgGL ≠ 0 → exec .routeRecordLoad s = .next s) ∧
    (s.chip.rst.phase = .mainup → s.chip.get GL_STS_ROUTES pgGL ≠ 0 → s.chip.domOn 79 = true ∨ (s.chip.dom 79).req ≠ 1 →
      s.chip.rst.afterWarm = true ∨ s.chip.get CK_LOOPSTS_NET pgCK = 1 → Completes .deviceReady s fun t => s.device t ∧
        t.chip = { s.chip with regs := t.chip.regs, rst := { s.chip.rst with phase := .ready } } ∧
        t.chip.get GL_STS_PHASE pgGL = 3 ∧ s.chip.fieldsKept t.chip [GL_STS_PHASE.key pgGL 0]) ∧
    (s.chip.rst.phase ≠ .mainup ∨ s.chip.get GL_STS_ROUTES pgGL = 0 → exec .deviceReady s = .next s))

/-- RESET_N low outside the AON reset, where no domain is on or falling, sets GL_RSTCAUSE.PIN, takes the release of MAIN
away, and leaves every domain off; RESET_N high only notes the level. A write of GL_RSTCTL with WARM = 1 that
reaches the register is denied to a master that may not, sets WIGN and nothing else with a wrong key, and with the
key does the same with GL_RSTCAUSE.SOFT. WARM_RESET_RELEASE, while RESET_N is high and VDD_MAIN good, samples the
straps, empties the stream, the loader and the scrubber, releases MAIN, counts GL_RSTCNT and reports GL_RESET;
outside a warm reset it changes nothing. (18_startup_and_reset.md) -/
def Obligations.WarmReset : Prop :=
  (∀ s : State, exec (.resetN false) s = .next { s with chip := { s.chip with rst := { s.chip.rst with pin := false } } }) ∧
  (∀ s : State, s.chip.rst.phase ≠ .held → (∀ d < 80, (s.chip.dom d).phase ≠ .on ∧ (s.chip.dom d).phase ≠ .falling) →
    s.chip.stepsRun = true →
    (Completes (.resetN true) s fun t => s.device t ∧ t.chip.rst.phase = .warm ∧ t.chip.rst.mainRel = false ∧ t.chip.rst.pin = true ∧
      t.chip.get GL_RSTCAUSE_PIN pgGL = 1 ∧ (s.chip.rst.phase ≠ .warm → ∀ d < 80, (t.chip.dom d).phase = .off)) ∧
    (∀ (w : Who) (v : BitVec 32), s.reaches w pgGL GL_RSTCTL_WARM.off → s.chip.guardian w = true → bitsOf v.toNat 15 8 = 0xA5 →
      Completes (.warmResetRequest w v) s fun t => s.performed t ∧ t.chip.rst.phase = .warm ∧ t.chip.rst.mainRel = false ∧
        t.chip.get GL_RSTCAUSE_SOFT pgGL = 1 ∧ (s.chip.rst.phase ≠ .warm → ∀ d < 80, (t.chip.dom d).phase = .off))) ∧
  (∀ (w : Who) (v : BitVec 32) (s : State), s.reaches w pgGL GL_RSTCTL_WARM.off →
    (s.chip.guardian w = false → exec (.warmResetRequest w v) s = .next { s with code := errDenied }) ∧
    (s.chip.guardian w = true → bitsOf v.toNat 15 8 ≠ 0xA5 → Completes (.warmResetRequest w v) s fun t => s.performed t ∧
      s.chip.onlyRegs t.chip ∧ t.chip.get PG_STS_WIGN pgGL = 1 ∧ s.chip.fieldsKept t.chip [PG_STS_WIGN.key pgGL 0])) ∧
  (∀ (dev : BitVec 6) (mode : BitVec 2) (pudc : Bool) (s : State),
    (s.chip.rst.phase = .warm → s.chip.rst.pin = false → s.chip.railGood 1 = true →
      Completes (.warmResetRelease dev mode pudc) s fun t => s.device t ∧ t.chip.rst.phase = .mainup ∧ t.chip.rst.mainRel = true ∧
        t.chip.rst.afterWarm = true ∧ t.chip.pin = { s.chip.pin with devId := dev, cfgMode := mode, pudcN := pudc } ∧
        t.chip.scrub = {} ∧ t.chip.loader = {} ∧ t.chip.stream.buf = [] ∧ (∀ d < 79, t.chip.dom d = {}) ∧
        t.chip.get GL_RSTCNT_COUNT pgGL = satInc (2 ^ 16 - 1) (s.chip.get GL_RSTCNT_COUNT pgGL) ∧
        t.chip.reported pgGL 3) ∧
    (s.chip.rst.phase ≠ .warm ∨ s.chip.rst.pin = true → exec (.warmResetRelease dev mode pudc) s = .next s))

/-- A write of GL_WDCTL that reaches the register is denied to a master that may not, and sets WIGN and nothing else
with a wrong key; with the key it writes EN and WEN, and loads the count where EN becomes 1. A kick with the right
word by such a master loads the count and lets the warning come again; with another word it only reports GL_WDKEY.
WATCHDOG_WARN of a counting watchdog with the warning enabled and not yet given brings the count to the warning
point and reports it. WATCHDOG_EXPIRE of a counting watchdog with another action than a reset sets EXP, reports the
expiry and loads the count. A watchdog that does not count does nothing. (19_fault_collection.md) -/
def Obligations.HostWatchdog : Prop :=
  ∀ (s : State),
    (∀ (w : Who) (v : BitVec 32), s.reaches w pgGL GL_WDCTL_EN.off →
      (s.chip.guardian w = false → exec (.watchdogControl w v) s = .next { s with code := errDenied }) ∧
      (s.chip.guardian w = true → bitsOf v.toNat 31 24 ≠ 0xA5 → Completes (.watchdogControl w v) s fun t => s.performed t ∧
        s.chip.onlyRegs t.chip ∧ t.chip.get PG_STS_WIGN pgGL = 1 ∧ s.chip.fieldsKept t.chip [PG_STS_WIGN.key pgGL 0]) ∧
      (s.chip.guardian w = true → bitsOf v.toNat 31 24 = 0xA5 → Completes (.watchdogControl w v) s fun t => s.performed t ∧
        t.chip.get GL_WDCTL_EN pgGL = b2n (v.getLsbD 0) ∧ t.chip.get GL_WDCTL_WEN pgGL = b2n (v.getLsbD 1) ∧
        (bitsOf v.toNat 9 8 < 2 → t.chip.get GL_WDCTL_ACTION pgGL = bitsOf v.toNat 9 8) ∧
        (v.getLsbD 0 = true → s.chip.get GL_WDCTL_EN pgGL ≠ 1 → t.chip.rst.warned = false ∧
          t.chip.get GL_WDCNT_COUNT pgGL = (s.chip.get GL_WDPER_PERIOD pgGL + 1) * 1000 % 2 ^ 32) ∧
        (v.getLsbD 0 = false ∨ s.chip.get GL_WDCTL_EN pgGL = 1 → s.chip.onlyRegs t.chip) ∧
        s.chip.fieldsKept t.chip [GL_WDCTL_EN.key pgGL 0, GL_WDCTL_WEN.key pgGL 0, GL_WDCTL_ACTION.key pgGL 0, GL_WDCNT_COUNT.key pgGL 0])) ∧
    (∀ (w : Who) (v : BitVec 32), s.reaches w pgGL GL_WDKICK_KICK.off → s.chip.guardian w = true →
      (v.toNat % 2 ^ 16 = 0x5A5A → Completes (.watchdogKick w v) s fun t => s.performed t ∧
        t.chip.get GL_WDCNT_COUNT pgGL = (s.chip.get GL_WDPER_PERIOD pgGL + 1) * 1000 % 2 ^ 32 ∧
        t.chip = { s.chip with regs := t.chip.regs, rst := { s.chip.rst with warned := false } } ∧
        s.chip.fieldsKept t.chip [GL_WDCNT_COUNT.key pgGL 0]) ∧
      (v.toNat % 2 ^ 16 ≠ 0x5A5A → s.chip.mayReport pgGL 6 → Completes (.watchdogKick w v) s fun t => s.performed t ∧
        t.chip = { s.chip with flt := { s.chip.flt with waiting := t.chip.flt.waiting } } ∧ t.chip.reported pgGL 6)) ∧
    (s.chip.wdCounts = true → s.chip.get GL_WDCTL_WEN pgGL = 1 → s.chip.rst.warned = false → 2 ≤ s.chip.get GL_WDCNT_COUNT pgGL →
      Completes .watchdogWarn s fun t => s.device t ∧
        t.chip.get GL_WDCNT_COUNT pgGL = min (s.chip.get GL_WDCNT_COUNT pgGL - 1) ((s.chip.get GL_WDPER_WARN pgGL + 1) * 1000) % 2 ^ 32 ∧
        t.chip = { s.chip with regs := t.chip.regs, flt := t.chip.flt, rst := { s.chip.rst with warned := true } } ∧
        (s.chip.mayReport pgGL 4 → t.chip.reported pgGL 4) ∧ s.chip.fieldsKept t.chip [GL_WDCNT_COUNT.key pgGL 0]) ∧
    (s.chip.wdCounts = true → s.chip.get GL_WDCTL_ACTION pgGL ≠ 1 → Completes .watchdogExpire s fun t => s.device t ∧
      t.chip.get GL_WDSTS_EXP pgGL = 1 ∧ t.chip.get GL_WDCNT_COUNT pgGL = (s.chip.get GL_WDPER_PERIOD pgGL + 1) * 1000 % 2 ^ 32 ∧
      t.chip = { s.chip with regs := t.chip.regs, flt := t.chip.flt, rst := { s.chip.rst with warned := false } } ∧
      (s.chip.mayReport pgGL 5 → t.chip.reported pgGL 5) ∧
      s.chip.fieldsKept t.chip [GL_WDCNT_COUNT.key pgGL 0, GL_WDSTS_EXP.key pgGL 0]) ∧
    (s.chip.wdCounts = false → exec .watchdogWarn s = .next s ∧ exec .watchdogExpire s = .next s)

/-- A CHALLENGE that reaches the DB page from a debug port that owns the session, or while none does, answers with the
lockout, the reserved level or the missing key in DB_AUTHSTS.ERR, and otherwise draws a nonce (the open word of log
entry 3), sets CHAL, makes the port the owner and notes the level; from anyone else it is denied. A VERIFY by the
owner without a challenge sets ERR = 3; with one it ends the challenge and takes the nonce and the response away:
the right response gives the level asked for, a wrong one counts a failure, and the eighth locks the port out at
level NONE. A DROP by the owner gives level NONE. VERIFY and DROP by anyone else are denied and change nothing.
(20_debug_and_freeze.md) -/
def Obligations.DebugAccessIsAuthorised : Prop :=
  ∀ (w : Who) (s : State), s.reaches w pgDB DB_AUTHCMD_OP.off →
    (∀ level : BitVec 2, w.debugPort ≠ 0 → s.chip.get DB_AUTHSTS_OWNER pgDB = 0 ∨ s.chip.dbOwner w = true →
      (s.chip.get DB_AUTHSTS_LOCKOUT pgDB = 1 → Completes (.challenge w level) s fun t => s.performed t ∧ s.chip.onlyRegs t.chip ∧
        t.chip.get DB_AUTHSTS_ERR pgDB = 1 ∧ s.chip.fieldsKept t.chip [DB_AUTHSTS_ERR.key pgDB 0]) ∧
      (s.chip.get DB_AUTHSTS_LOCKOUT pgDB ≠ 1 → level = 0 ∨ level = 3 → Completes (.challenge w level) s fun t => s.performed t ∧
        s.chip.onlyRegs t.chip ∧ t.chip.get DB_AUTHSTS_ERR pgDB = 5 ∧ s.chip.fieldsKept t.chip [DB_AUTHSTS_ERR.key pgDB 0]) ∧
      (s.chip.get DB_AUTHSTS_LOCKOUT pgDB ≠ 1 → level = 1 ∨ level = 2 → s.chip.keyPresent (debugKey level.toNat) = false →
        Completes (.challenge w level) s fun t => s.performed t ∧ s.chip.onlyRegs t.chip ∧
          t.chip.get DB_AUTHSTS_ERR pgDB = 2 ∧ s.chip.fieldsKept t.chip [DB_AUTHSTS_ERR.key pgDB 0]) ∧
      (s.chip.get DB_AUTHSTS_LOCKOUT pgDB ≠ 1 → level = 1 ∨ level = 2 → s.chip.keyPresent (debugKey level.toNat) = true →
        Completes (.challenge w level) s fun t => s.performed t ∧
          t.chip = { s.chip with regs := t.chip.regs, free := s.chip.free + 1, rst := { s.chip.rst with askLevel := level.toNat } } ∧
          t.chip.get DB_AUTHSTS_CHAL pgDB = 1 ∧ t.chip.get DB_AUTHSTS_OWNER pgDB = w.debugPort ∧ t.chip.get DB_AUTHSTS_ERR pgDB = 0 ∧
          t.chip.get DB_NONCEL_NONCE pgDB = (Config.freeWord s.chip.free).toNat % 2 ^ 32 ∧
          t.chip.get DB_NONCEH_NONCE pgDB = (Config.freeWord s.chip.free).toNat / 2 ^ 32 ∧
          s.chip.fieldsKept t.chip [DB_AUTHSTS_CHAL.key pgDB 0, DB_AUTHSTS_OWNER.key pgDB 0, DB_AUTHSTS_ERR.key pgDB 0,
            DB_NONCEL_NONCE.key pgDB 0, DB_NONCEH_NONCE.key pgDB 0])) ∧
    (∀ level : BitVec 2, s.chip.dbOwner w = false → w.debugPort = 0 ∨ s.chip.get DB_AUTHSTS_OWNER pgDB ≠ 0 →
      exec (.challenge w level) s = .next { s with code := errDenied }) ∧
    (s.chip.dbOwner w = true → s.chip.get DB_AUTHSTS_CHAL pgDB ≠ 1 → Completes (.verify w) s fun t => s.performed t ∧ s.chip.onlyRegs t.chip ∧
      t.chip.get DB_AUTHSTS_ERR pgDB = 3 ∧ s.chip.fieldsKept t.chip [DB_AUTHSTS_ERR.key pgDB 0]) ∧
    (∀ ok : Bool, s.chip.dbOwner w = true → s.chip.get DB_AUTHSTS_CHAL pgDB = 1 →
      ok = ((List.range 4).flatMap (fun i => natLe 4 (s.chip.get DB_RESP_RESP pgDB i)) ==
        s.chip.response (debugKey s.chip.rst.askLevel)
          (s.chip.get DB_NONCEL_NONCE pgDB + 2 ^ 32 * s.chip.get DB_NONCEH_NONCE pgDB) s.chip.rst.askLevel
          (s.chip.get DB_AUTHSTS_OWNER pgDB)) →
      Completes (.verify w) s fun t => s.performed t ∧ t.chip.get DB_AUTHSTS_CHAL pgDB = 0 ∧
        t.chip.get DB_NONCEL_NONCE pgDB = 0 ∧ t.chip.get DB_NONCEH_NONCE pgDB = 0 ∧ (∀ i < 4, t.chip.get DB_RESP_RESP pgDB i = 0) ∧
        (ok = true → t.chip.get DB_AUTHSTS_ERR pgDB = 0 ∧ t.chip.get DB_AUTHSTS_LEVEL pgDB = s.chip.rst.askLevel % 4) ∧
        (ok = false → t.chip.get DB_AUTHSTS_ERR pgDB = 4 ∧
          t.chip.get DB_AUTHSTS_CNT pgDB = min (s.chip.get DB_AUTHSTS_CNT pgDB + 1) 8 ∧
          (7 ≤ s.chip.get DB_AUTHSTS_CNT pgDB → t.chip.get DB_AUTHSTS_LOCKOUT pgDB = 1 ∧ t.chip.get DB_AUTHSTS_LEVEL pgDB = 0) ∧
          (s.chip.get DB_AUTHSTS_CNT pgDB < 7 → t.chip.get DB_AUTHSTS_LEVEL pgDB = s.chip.get DB_AUTHSTS_LEVEL pgDB))) ∧
    (s.chip.dbOwner w = true → Completes (.drop w) s fun t => s.performed t ∧ t.chip.get DB_AUTHSTS_LEVEL pgDB = 0 ∧
      t.chip.get DB_AUTHSTS_ERR pgDB = 0 ∧ (s.chip.get DB_AUTHSTS_CHAL pgDB ≠ 1 → t.chip.get DB_AUTHSTS_OWNER pgDB = 0)) ∧
    (s.chip.dbOwner w = false → exec (.verify w) s = .next { s with code := errDenied } ∧
      exec (.drop w) s = .next { s with code := errDenied })

/-- A DEBUG_REQUEST by the owner that its level permits, with the DB function taking work and no request in progress,
sets BUSY and hands one request to the network; one that it does not permit leaves ERR = denied and no request;
while one is in progress it sets WIGN. At level FULL a HALT records the halt of each named group whose domain is on;
HALT_EFFECT halts a running group with a recorded halt and no lap in progress, and discards its pending pace event;
a RELEASE ends the halt of a named group, or waits for a step that is outstanding; a STEP of a halted group without
an outstanding step makes one of the class of DB_CTL.STEPCLS outstanding. Below FULL all but the request set WIGN. A
sequencer that runs or waits, outside a LOCK pair, is halted; a halted one is released or stepped. DB_FFVAL of a
frozen device shows the flip-flops of the selected cell. (20_debug_and_freeze.md) -/
def Obligations.DebugRunControl : Prop :=
  ∀ (w : Who) (v : BitVec 32) (s : State),
    (s.reaches w pgDB DB_CMD_OP.off → s.chip.dbOwner w = true →
      (s.chip.get DB_CMDSTS_BUSY pgDB = 1 → Completes (.debugRequest w v) s fun t => s.performed t ∧ s.chip.onlyRegs t.chip ∧
        t.chip.get PG_STS_WIGN pgDB = 1 ∧ s.chip.fieldsKept t.chip [PG_STS_WIGN.key pgDB 0]) ∧
      (∀ op a, op = v.toNat % 16 → 1 ≤ op → op ≤ 4 → a = s.chip.get DB_ADDRL_ADDR pgDB + 2 ^ 32 * s.chip.get DB_ADDRH_ADDR pgDB →
        s.chip.get DB_CMDSTS_BUSY pgDB ≠ 1 → s.chip.accepts pgDB = true →
        (s.chip.dbPermits op a (s.chip.get DB_DATA_DATA pgDB 0, s.chip.get DB_DATA_DATA pgDB 1) (v.getLsbD 4) = true →
          Completes (.debugRequest w v) s fun t => s.performed t ∧ t.chip.get DB_CMDSTS_BUSY pgDB = 1 ∧
            ∃ r : Req, t.chip = { s.chip with regs := t.chip.regs, net := { s.chip.net with want := s.chip.net.want ++ [r] } } ∧
              r.asker = .debug ∧ r.addr = a ∧ (op = 1 → r.op = .read) ∧ (op = 2 → r.op = .write) ∧
              (op = 3 → r.op = .regrd) ∧ (op = 4 → r.op = .regwr)) ∧
        (s.chip.dbPermits op a (s.chip.get DB_DATA_DATA pgDB 0, s.chip.get DB_DATA_DATA pgDB 1) (v.getLsbD 4) = false →
          Completes (.debugRequest w v) s fun t => s.performed t ∧ s.chip.onlyRegs t.chip ∧
            t.chip.get DB_CMDSTS_ERR pgDB = errDenied ∧ t.chip.get DB_CMDSTS_BUSY pgDB = s.chip.get DB_CMDSTS_BUSY pgDB))) ∧
    (∀ high : Bool, s.reaches w pgDB (if high then DB_HALTH_HALT.off else DB_HALTL_HALT.off) → s.chip.dbOwner w = true →
      (s.chip.fullDebug = true → Completes (.halt w high v) s fun t => s.performed t ∧
        t.chip = { s.chip with eng := { s.chip.eng with group := t.chip.eng.group } } ∧
        ∀ g < 64, t.chip.grp g = if g ∈ groupsOf high v.toNat ∧ s.chip.domOn g = true then
          { s.chip.grp g with halt := { (s.chip.grp g).halt with record := true } } else s.chip.grp g) ∧
      (s.chip.fullDebug = false → Completes (.halt w high v) s fun t => s.performed t ∧ s.chip.onlyRegs t.chip ∧
        t.chip.get PG_STS_WIGN pgDB = 1 ∧ s.chip.fieldsKept t.chip [PG_STS_WIGN.key pgDB 0])) ∧
    (∀ g : Fin 64, s.chip.groupUp g.val = true → s.chip.stepsRun = true →
      (s.chip.grp g.val).halt.record = true → (s.chip.grp g.val).halt.halted = false →
      (s.chip.grp g.val).bound.on = false → (s.chip.grp g.val).loose.on = false →
      Completes (.haltEffect g) s fun t => s.device t ∧
        t.chip.grp g.val = { s.chip.grp g.val with held := false, resync := false, halt := { (s.chip.grp g.val).halt with halted := true } } ∧
        t.chip.get EG_LAPSTS_PEND (pgEG g.val) = 0 ∧ s.chip.fieldsKept t.chip [EG_LAPSTS_PEND.key (pgEG g.val) 0]) ∧
    (∀ (high : Bool) (g : Nat), s.reaches w pgDB (if high then DB_RELH_REL.off else DB_RELL_REL.off) → s.chip.dbOwner w = true →
      s.chip.fullDebug = true → groupsOf high v.toNat = [g] → (s.chip.grp g).halt.record = true →
      ((s.chip.grp g).halt.step.isSome = true → Completes (.release w high v) s fun t => s.performed t ∧ (t.chip.grp g).halt.rel = true) ∧
      ((s.chip.grp g).halt.step = none → Completes (.release w high v) s fun t => s.performed t ∧ (t.chip.grp g).halt = {} ∧
        (t.chip.grp g).paced = false)) ∧
    (∀ (high : Bool) (g : Nat), s.reaches w pgDB (if high then DB_STEPH_STEP.off else DB_STEPL_STEP.off) → s.chip.dbOwner w = true →
      s.chip.fullDebug = true → groupsOf high v.toNat = [g] →
      ((s.chip.grp g).halt.halted = true → (s.chip.grp g).halt.step = none → Completes (.step w high v) s fun t => s.performed t ∧
        (t.chip.grp g).halt.step = some (s.chip.bit DB_CTL_STEPCLS pgDB)) ∧
      ((s.chip.grp g).halt.halted = false → Completes (.step w high v) s fun t => s.performed t ∧ s.chip.onlyRegs t.chip ∧
        t.chip.get PG_STS_WIGN pgDB = 1 ∧ s.chip.fieldsKept t.chip [PG_STS_WIGN.key pgDB 0])) ∧
    (∀ cl, s.reaches w pgDB DB_CTL_SEQ.off → s.chip.dbOwner w = true → s.chip.fullDebug = true → v.getLsbD 23 = false →
      cl = 16 * bitsOf v.toNat 22 20 + bitsOf v.toNat 19 16 →
      (s.chip.seqState cl = 1 ∨ s.chip.seqState cl = 2 → (s.chip.seqOf cl).lock = false → (s.chip.seqOf cl).stall = false →
        Completes (.seqDebugHalt w v) s fun t => s.performed t ∧ t.chip.seqState cl = 4 ∧
          ((t.chip.seqOf cl).inWait = true ↔ s.chip.seqState cl = 2)) ∧
      (s.chip.seqState cl = 4 → Completes (.seqDebugRelease w v) s fun t => s.performed t ∧
        t.chip.seqState cl = (if (s.chip.seqOf cl).inWait then 2 else 1) ∧ (t.chip.seqOf cl).inWait = false) ∧
      (s.chip.seqState cl = 4 → Completes (.seqDebugStep w v) s fun t => s.performed t ∧
        t.chip.seqState cl = (if (s.chip.seqOf cl).inWait then 2 else 1) ∧ (t.chip.seqOf cl).stepping = true)) ∧
    (∀ peek : Bool, s.chip.regReach w pgDB DB_FFVAL_Q.off false = 0 → s.chip.peekOf pgDB DB_FFVAL_Q.off = none →
      Completes (.ffReadback w peek) s fun t => t.code = 0 ∧ t.chip = s.chip ∧ ∀ sec tile, sec = s.chip.get DB_FFSEL_SECT pgDB →
        tile = 2048 * sec + 64 * s.chip.get DB_FFSEL_ROW pgDB + s.chip.get DB_FFSEL_COL pgDB →
        (s.chip.get GL_FRZSTS_STATE pgGL = 2 ∧ s.chip.get DB_AUTHSTS_LEVEL pgDB ≠ 0 ∧ s.chip.started sec = true →
          t.rdata.getLsbD 31 = true ∧ ∀ m < 16, t.rdata.getLsbD m = s.chip.fab.now.qOf tile m) ∧
        (¬ (s.chip.get GL_FRZSTS_STATE pgGL = 2 ∧ s.chip.get DB_AUTHSTS_LEVEL pgDB ≠ 0 ∧ s.chip.started sec = true) → t.rdata = 0))

/-- While AON is not held in reset, TRST_N and IDCODE select the identity code of the stepping; BYPASS, CLAMP and HIGHZ
select the bypass bit, and leave the pins alone, hold them by the boundary cells, and make them high-impedance;
EXTEST and SAMPLE/PRELOAD capture the pins into the boundary register, EXTEST driving the pins from its cells and
SAMPLE/PRELOAD loading them; DBACC captures the data of the last access and its refusal. Update-DR of DBACC performs
one access to the DB page, a write where bit 0 is 1 and a read where it is 0, and notes its refusal. While AON is
held none of them changes anything. (20_debug_and_freeze.md, 22_balls_and_electrical.md) -/
def Obligations.TestAccessPortInstructions : Prop :=
  ∀ (s : State) (pins : BitVec 52) (cells : BitVec 1492) (x : BitVec 45),
    (s.chip.rst.phase ≠ .held →
      (∀ i, i = Instr.tapReset ∨ i = Instr.idcode → Completes i s fun t => s.ported t ∧ t.tap.ir = 0x01 ∧
        t.tap.dr = BitVec.ofNat 1492 s.chip.stepping.idcode ∧ t.chip = { s.chip with pin := { s.chip.pin with scan := 0 } }) ∧
      (∀ i code scan, (i, code, scan) ∈ [(Instr.bypass, (0x3F : BitVec 6), 0), (.clamp, 0x04, 1), (.highz, 0x05, 2)] →
        Completes i s fun t => s.ported t ∧ t.tap = { s.tap with ir := code, dr := 0 } ∧
          t.chip = { s.chip with pin := { s.chip.pin with scan := scan } }) ∧
      (Completes .dbacc s fun t => s.ported t ∧ t.tap.ir = 0x10 ∧ t.chip = { s.chip with pin := { s.chip.pin with scan := 0 } } ∧
        (∀ n < 32, t.tap.dr.getLsbD (11 + n) = s.tap.data.getLsbD n) ∧ t.tap.dr.getLsbD 44 = s.tap.err) ∧
      (Completes (.extest pins) s fun t => s.ported t ∧ t.tap.ir = 0x00 ∧ t.chip.pin = { s.chip.pin with scan := 1 } ∧
        t.tap.dr = BitVec.ofNat 1492 (({ s.chip with pin := { s.chip.pin with scan := 1 } }).boundary pins).1 ∧
        t.chip = { s.chip with pin := t.chip.pin, free := t.chip.free }) ∧
      (Completes (.samplePreload cells pins) s fun t => s.ported t ∧ t.tap.ir = 0x02 ∧
        t.chip.pin = { s.chip.pin with scan := 0, cells := cells } ∧
        t.tap.dr = BitVec.ofNat 1492 (({ s.chip with pin := { s.chip.pin with scan := 0 } }).boundary pins).1 ∧
        t.chip = { s.chip with pin := t.chip.pin, free := t.chip.free }) ∧
      (s.tap.ir = 0x10 → ∀ off, off = 4 * bitsOf x.toNat 10 1 →
        (x.getLsbD 0 = true → Completes (.dbaccUpdate x) s fun t =>
          (t.tap.err = true ↔ (s.chip.writeReg .jtag pgDB off (bitsOf x.toNat 42 11)).1 ≠ 0) ∧ t.tap.data = 0 ∧
          t.chip = (s.chip.writeReg .jtag pgDB off (bitsOf x.toNat 42 11)).2 ∧ t = { s with chip := t.chip, tap := t.tap }) ∧
        (x.getLsbD 0 = false → Completes (.dbaccUpdate x) s fun t =>
          (t.tap.err = true ↔ (s.chip.readReg .jtag pgDB off false).2.1 ≠ 0) ∧
          t.tap.data = BitVec.ofNat 32 (s.chip.readReg .jtag pgDB off false).1 ∧
          t.chip = (s.chip.readReg .jtag pgDB off false).2.2 ∧ t = { s with chip := t.chip, tap := t.tap }))) ∧
    (s.chip.rst.phase = .held → ∀ i ∈ [Instr.tapReset, .idcode, .bypass, .clamp, .highz, .dbacc, .extest pins, .samplePreload cells pins,
      .dbaccUpdate x], exec i s = .next s)

/-- FREEZE_N low requests a freeze only from READY on, and high ends the request. A write of GL_FRZ that reaches the
register is denied to a master that may not, sets WIGN and nothing else with a wrong key, and writes the request
with the key. FREEZE_BEGIN with a request in the running device makes it drain, and changes nothing else; without
one, or in another state, it changes nothing. FREEZE_COMPLETE of a draining device makes it frozen and reports
GL_FROZEN. THAW of a frozen device with no request left, no lost stream words and no power request kept makes it
run, with no pace event recognised in any group, and otherwise of a device that is not frozen, or whose freeze is
still asked for, changes nothing. (20_debug_and_freeze.md) -/
def Obligations.FreezeAndThaw : Prop :=
  ∀ (s : State),
    (∀ low : Bool, exec (.freezePin low) s = .next { s with chip := { s.chip with rst := { s.chip.rst with
      freezePin := low && s.chip.rst.phase == .ready } } }) ∧
    (∀ (w : Who) (v : BitVec 32), s.reaches w pgGL GL_FRZ_REQ.off →
      (s.chip.guardian w = false → exec (.freezeRequest w v) s = .next { s with code := errDenied }) ∧
      (s.chip.guardian w = true → bitsOf v.toNat 31 24 = 0xA5 → Completes (.freezeRequest w v) s fun t => s.performed t ∧
        s.chip.onlyRegs t.chip ∧ t.chip.get GL_FRZ_REQ pgGL = b2n (v.getLsbD 0) ∧ s.chip.fieldsKept t.chip [GL_FRZ_REQ.key pgGL 0]) ∧
      (s.chip.guardian w = true → bitsOf v.toNat 31 24 ≠ 0xA5 → Completes (.freezeRequest w v) s fun t => s.performed t ∧
        s.chip.onlyRegs t.chip ∧ t.chip.get PG_STS_WIGN pgGL = 1 ∧ s.chip.fieldsKept t.chip [PG_STS_WIGN.key pgGL 0])) ∧
    (s.chip.freezeAsked = true → s.chip.get GL_FRZSTS_STATE pgGL = 0 → Completes .freezeBegin s fun t => s.device t ∧
      s.chip.onlyRegs t.chip ∧ t.chip.get GL_FRZSTS_STATE pgGL = 1 ∧ s.chip.fieldsKept t.chip [GL_FRZSTS_STATE.key pgGL 0]) ∧
    (s.chip.freezeAsked = false ∨ s.chip.get GL_FRZSTS_STATE pgGL ≠ 0 → exec .freezeBegin s = .next s) ∧
    (s.chip.get GL_FRZSTS_STATE pgGL = 1 → Completes .freezeComplete s fun t => s.device t ∧ t.chip.get GL_FRZSTS_STATE pgGL = 2 ∧
      (t.chip.mayReport pgGL 7 → t.chip.reported pgGL 7)) ∧
    (s.chip.get GL_FRZSTS_STATE pgGL ≠ 1 → exec .freezeComplete s = .next s) ∧
    (s.chip.get GL_FRZSTS_STATE pgGL = 2 → s.chip.freezeAsked = false → s.chip.stream.lostWords = false → s.chip.pow.later = [] →
      Completes .thaw s fun t => s.device t ∧ t.chip.get GL_FRZSTS_STATE pgGL = 0 ∧
        (∀ g < 64, t.chip.grp g = { s.chip.grp g with paced := false, lateDone := false, lastLen := none }) ∧
        t.chip = { s.chip with regs := t.chip.regs, eng := { s.chip.eng with group := t.chip.eng.group } } ∧
        s.chip.fieldsKept t.chip [GL_FRZSTS_STATE.key pgGL 0]) ∧
    (s.chip.get GL_FRZSTS_STATE pgGL ≠ 2 ∨ s.chip.freezeAsked = true → exec .thaw s = .next s)

/-- A SOFTWARE_RECORD of a code from 0x8000 enters a record of that code, of the writing master's source 0xF000 + class
and of EV_SWDATA, within the rate limit of its code; past the limit it is only counted as suppressed, with a full
buffer only as lost; a lower code sets WIGN and nothing else. RECORD_PROGRAM programs the oldest buffered record
into its place of the ring. RATE_WINDOW_END forgets the counts and enters a SUPPRESSED record for a suppressed code,
at the end of the window. TIMEWRAP sets TIME to 0, counts the wrap and enters its record. RECORD_SEARCH_DONE over an
empty ring enters COLDSTART. UART_RECORD prints the record that EV_UARTSEQ names while UART_RX is high and moves
EV_UARTSEQ on; UART_ENABLE sets EN and moves EV_UARTSEQ behind EV_HEAD. (21_event_recorder_and_flash.md) -/
def Obligations.EventRecords : Prop :=
  ∀ (s : State),
    (∀ (w : Who) (code : BitVec 16) (r : Rec) (n : Nat × Nat), s.reaches w pgEV EV_SWCODE_CODE.off →
      r = s.chip.newRec code.toNat (0xF000 + w.cls)
        (BitVec.ofNat 64 (s.chip.get EV_SWDATAL_DATA pgEV + 2 ^ 32 * s.chip.get EV_SWDATAH_DATA pgEV)) true →
      n = Store.get (0, 0) s.chip.ev.rate code.toNat →
      (code.toNat < 0x8000 → Completes (.softwareRecord w code) s fun t => s.performed t ∧ s.chip.onlyRegs t.chip ∧
        t.chip.get PG_STS_WIGN pgEV = 1 ∧ s.chip.fieldsKept t.chip [PG_STS_WIGN.key pgEV 0]) ∧
      (0x8000 ≤ code.toNat → s.chip.get EV_CTL_LIMIT pgEV < n.1 → Completes (.softwareRecord w code) s fun t => s.performed t ∧
        t.chip = { s.chip with ev := { s.chip.ev with rate := Store.put (0, 0) s.chip.ev.rate code.toNat (n.1, n.2 + 1) } }) ∧
      (0x8000 ≤ code.toNat → n.1 ≤ s.chip.get EV_CTL_LIMIT pgEV → s.chip.bufferOpen →
        Completes (.softwareRecord w code) s fun t => s.performed t ∧ s.chip.entered t.chip r [] ∧
          t.chip = { s.chip with regs := t.chip.regs, ev := { s.chip.ev with
            buf := t.chip.ev.buf, rate := Store.put (0, 0) s.chip.ev.rate code.toNat (n.1 + 1, n.2) } }) ∧
      (0x8000 ≤ code.toNat → n.1 ≤ s.chip.get EV_CTL_LIMIT pgEV → 1024 ≤ s.chip.ev.buf.length + s.chip.ev.early.length →
        Completes (.softwareRecord w code) s fun t => s.performed t ∧
          t.chip.get EV_LOST_COUNT pgEV = satInc (2 ^ 32 - 1) (s.chip.get EV_LOST_COUNT pgEV) ∧
          s.chip.fieldsKept t.chip [EV_LOST_COUNT.key pgEV 0] ∧ t.chip = { s.chip with regs := t.chip.regs, ev := { s.chip.ev with
            lost := s.chip.ev.lost + 1, rate := Store.put (0, 0) s.chip.ev.rate code.toNat (n.1 + 1, n.2) } })) ∧
    (∀ (r : Rec) (rs : List Rec), s.chip.ev.searching = false → s.chip.ev.buf = r :: rs → rs.length < 1024 → s.chip.ev.lost = 0 →
      s.chip.unitErased (ringAddr r.seq.toNat) = true → r.seq.toNat % 128 ≠ 127 → Completes .recordProgram s fun t => s.device t ∧
        t.chip.unitHolds (ringAddr r.seq.toNat) r.bytes ∧ s.chip.flashKept t.chip (ringAddr r.seq.toNat) ∧ t.chip.ev.buf = rs ∧
        t.chip.get EV_STS_BUF pgEV = rs.length ∧ s.chip.fieldsKept t.chip [EV_STS_BUF.key pgEV 0] ∧
        t.chip = { s.chip with regs := t.chip.regs, ev := { s.chip.ev with buf := rs, flash := t.chip.ev.flash } }) ∧
    (s.chip.ev.searching = true ∨ s.chip.ev.buf = [] → exec .recordProgram s = .next s) ∧
    (∀ t' code n k, t' = (s.chip.ev.time.toNat / 1000000 + 1) * 1000000 → t' < 2 ^ 48 →
      (s.chip.ev.rate.filter (fun kv => 0 < kv.2.2) = [] → exec .rateWindowEnd s =
        .next { s with chip := { s.chip with ev := { s.chip.ev with time := BitVec.ofNat 48 t', rate := [] } } }) ∧
      (s.chip.ev.rate.filter (fun kv => 0 < kv.2.2) = [(code, (n, k))] → s.chip.bufferOpen →
        Completes .rateWindowEnd s fun t => s.device t ∧
          s.chip.entered t.chip { s.chip.newRec 0x0002 code (BitVec.ofNat 64 k) false with time := BitVec.ofNat 48 t' } [] ∧
          t.chip = { s.chip with
            regs := t.chip.regs, ev := { s.chip.ev with buf := t.chip.ev.buf, time := BitVec.ofNat 48 t', rate := [] } })) ∧
    (s.chip.bufferOpen → Completes .timewrap s fun t => s.device t ∧
      s.chip.entered t.chip { s.chip.newRec 0x0005 0 (BitVec.ofNat 64 ((s.chip.ev.wraps + 1) % 2 ^ 32)) false with time := 0 } [] ∧
      t.chip = { s.chip with
        regs := t.chip.regs, ev := { s.chip.ev with buf := t.chip.ev.buf, time := 0, wraps := s.chip.ev.wraps + 1 } }) ∧
    (s.chip.ev.searching = true → s.chip.ev.early = [] → s.chip.ev.lost = 0 → s.chip.ev.buf.length < 1024 →
      (∀ kv ∈ s.chip.ev.flash, ¬ (ringBase ≤ 8 * kv.1 ∧ 8 * kv.1 < ringBase + 32 * ringLen)) →
      Completes .recordSearchDone s fun t => s.device t ∧
        s.chip.entered t.chip (s.chip.newRec 0x0003 0 (BitVec.ofNat 64 (2 ^ 32)) false) [EV_UARTSEQ_SEQ.key pgEV 0] ∧
        t.chip.get EV_UARTSEQ_SEQ pgEV = t.chip.get EV_HEAD_SEQ pgEV ∧
        t.chip = { s.chip with regs := t.chip.regs, ev := { s.chip.ev with buf := t.chip.ev.buf, searching := false } }) ∧
    (s.chip.ev.searching = false → exec .recordSearchDone s = .next s) ∧
    (∀ q, q = s.chip.get EV_UARTSEQ_SEQ pgEV → s.chip.get EV_UARTCTL_EN pgEV = 1 → s.chip.works pgEV = true →
      s.chip.get CK_STS_REFST pgCK = 2 → s.chip.get EV_STS_EMPTY pgEV ≠ 1 → s.chip.readable q = true →
      q ≠ (s.chip.get EV_HEAD_SEQ pgEV + 1) % 2 ^ 32 → Completes (.uartRecord true) s fun t => s.device t ∧
        t.chip.ev.uart = uartLine (s.chip.recBytes q) ∧ t.chip.get EV_UARTSEQ_SEQ pgEV = (q + 1) % 2 ^ 32 ∧
        s.chip.fieldsKept t.chip [EV_UARTSEQ_SEQ.key pgEV 0] ∧
        t.chip = { s.chip with regs := t.chip.regs, ev := { s.chip.ev with uart := t.chip.ev.uart } }) ∧
    exec (.uartRecord false) s = .next s ∧
    (∀ (w : Who) (v : BitVec 32), s.reaches w pgEV EV_UARTCTL_EN.off → Completes (.uartEnable w v) s fun t => s.performed t ∧
      s.chip.onlyRegs t.chip ∧ t.chip.get EV_UARTCTL_EN pgEV = 1 ∧
      t.chip.get EV_UARTCTL_BAUD pgEV = (if bitsOf v.toNat 2 1 = 3 then s.chip.get EV_UARTCTL_BAUD pgEV else bitsOf v.toNat 2 1) ∧
      (s.chip.get EV_UARTCTL_EN pgEV ≠ 1 → t.chip.get EV_UARTSEQ_SEQ pgEV = (s.chip.get EV_HEAD_SEQ pgEV + 1) % 2 ^ 32) ∧
      (s.chip.get EV_UARTCTL_EN pgEV = 1 → t.chip.get EV_UARTSEQ_SEQ pgEV = s.chip.get EV_UARTSEQ_SEQ pgEV) ∧
      s.chip.fieldsKept t.chip [EV_UARTCTL_EN.key pgEV 0, EV_UARTCTL_BAUD.key pgEV 0, EV_UARTSEQ_SEQ.key pgEV 0])

/-- Every write of EV_CLRCMD first ends a verified authorisation. A CLEAR_CHALLENGE answers with the lockout or the
missing key in EV_CLRSTS.ERR, and otherwise draws a nonce (the open word of log entry 3) and notes the master's
class. A CLEAR_VERIFY without a challenge sets ERR = 3; with one it ends the challenge and takes nonce and response
away: the right response authorises the class, a wrong one counts a failure, the eighth locks out. A RECORDER_CLEAR
that is not authorised sets ERR = 5, one during an erasure ERR = 6; an authorised one makes a CLEAR record the only
readable one, programs it, and begins the erasure. CLEAR_ERASE_DONE erases every ring sector without a readable
record and no other. CLEAR_AUTH_LAPSE ends an authorisation and does nothing else. (21_event_recorder_and_flash.md) -/
def Obligations.OwnerClear : Prop :=
  ∀ (s : State),
    (∀ (w : Who), s.reaches w pgEV EV_CLRCMD_OP.off →
      (s.chip.get EV_CLRSTS_LOCKOUT pgEV = 1 → Completes (.clearChallenge w) s fun t => s.performed t ∧ s.chip.onlyRegs t.chip ∧
        t.chip.get EV_CLRSTS_AUTH pgEV = 0 ∧ t.chip.get EV_CLRSTS_ERR pgEV = 1 ∧
        s.chip.fieldsKept t.chip [EV_CLRSTS_AUTH.key pgEV 0, EV_CLRSTS_ERR.key pgEV 0]) ∧
      (s.chip.get EV_CLRSTS_LOCKOUT pgEV ≠ 1 → s.chip.keyPresent 0x10C0 = false → Completes (.clearChallenge w) s fun t => s.performed t ∧
        s.chip.onlyRegs t.chip ∧ t.chip.get EV_CLRSTS_AUTH pgEV = 0 ∧ t.chip.get EV_CLRSTS_ERR pgEV = 2 ∧
        s.chip.fieldsKept t.chip [EV_CLRSTS_AUTH.key pgEV 0, EV_CLRSTS_ERR.key pgEV 0]) ∧
      (s.chip.get EV_CLRSTS_LOCKOUT pgEV ≠ 1 → s.chip.keyPresent 0x10C0 = true → Completes (.clearChallenge w) s fun t => s.performed t ∧
        t.chip.get EV_CLRSTS_AUTH pgEV = 0 ∧ t.chip.get EV_CLRSTS_CHAL pgEV = 1 ∧ t.chip.get EV_CLRSTS_ERR pgEV = 0 ∧
        t.chip.get EV_CLRNONCEL_VALUE pgEV = (Config.freeWord s.chip.free).toNat % 2 ^ 32 ∧
        t.chip.get EV_CLRNONCEH_VALUE pgEV = (Config.freeWord s.chip.free).toNat / 2 ^ 32 ∧
        s.chip.fieldsKept t.chip [EV_CLRSTS_AUTH.key pgEV 0, EV_CLRSTS_CHAL.key pgEV 0, EV_CLRSTS_ERR.key pgEV 0,
          EV_CLRNONCEL_VALUE.key pgEV 0, EV_CLRNONCEH_VALUE.key pgEV 0] ∧
        t.chip = { s.chip with regs := t.chip.regs, free := s.chip.free + 1, ev := { s.chip.ev with chalBy := w.cls } }) ∧
      (s.chip.get EV_CLRSTS_CHAL pgEV ≠ 1 → Completes (.clearVerify w) s fun t => s.performed t ∧ s.chip.onlyRegs t.chip ∧
        t.chip.get EV_CLRSTS_AUTH pgEV = 0 ∧ t.chip.get EV_CLRSTS_ERR pgEV = 3 ∧
        s.chip.fieldsKept t.chip [EV_CLRSTS_AUTH.key pgEV 0, EV_CLRSTS_ERR.key pgEV 0]) ∧
      (∀ ok : Bool, s.chip.get EV_CLRSTS_CHAL pgEV = 1 →
        ok = ((List.range 4).flatMap (fun i => natLe 4 (s.chip.get EV_CLRRESP_VALUE pgEV i)) ==
          s.chip.response 0x10C0 (s.chip.get EV_CLRNONCEL_VALUE pgEV + 2 ^ 32 * s.chip.get EV_CLRNONCEH_VALUE pgEV) 0x43 w.cls) →
        Completes (.clearVerify w) s fun t => s.performed t ∧ t.chip.get EV_CLRSTS_CHAL pgEV = 0 ∧
          t.chip.get EV_CLRNONCEL_VALUE pgEV = 0 ∧ t.chip.get EV_CLRNONCEH_VALUE pgEV = 0 ∧
          (∀ i < 4, t.chip.get EV_CLRRESP_VALUE pgEV i = 0) ∧ t.chip.get EV_CLRSTS_AUTH pgEV = b2n ok ∧
          t.chip = { s.chip with
            regs := t.chip.regs, flt := t.chip.flt, ev := { s.chip.ev with authBy := if ok then w.cls else s.chip.ev.authBy } } ∧
          s.chip.fieldsKept t.chip [EV_CLRSTS_CHAL.key pgEV 0, EV_CLRSTS_AUTH.key pgEV 0, EV_CLRSTS_ERR.key pgEV 0,
            EV_CLRSTS_CNT.key pgEV 0, EV_CLRSTS_LOCKOUT.key pgEV 0, EV_CLRNONCEL_VALUE.key pgEV 0, EV_CLRNONCEH_VALUE.key pgEV 0,
            EV_CLRRESP_VALUE.key pgEV 0, EV_CLRRESP_VALUE.key pgEV 1, EV_CLRRESP_VALUE.key pgEV 2, EV_CLRRESP_VALUE.key pgEV 3] ∧
          (ok = true → t.chip.get EV_CLRSTS_ERR pgEV = 0 ∧ t.chip.flt = s.chip.flt ∧
            t.chip.get EV_CLRSTS_CNT pgEV = s.chip.get EV_CLRSTS_CNT pgEV ∧
            t.chip.get EV_CLRSTS_LOCKOUT pgEV = s.chip.get EV_CLRSTS_LOCKOUT pgEV) ∧
          (ok = false → t.chip.get EV_CLRSTS_ERR pgEV = 4 ∧
            t.chip.get EV_CLRSTS_CNT pgEV = min (s.chip.get EV_CLRSTS_CNT pgEV + 1) 8 ∧
            t.chip.get EV_CLRSTS_LOCKOUT pgEV = (if 7 ≤ s.chip.get EV_CLRSTS_CNT pgEV then 1 else s.chip.get EV_CLRSTS_LOCKOUT pgEV) ∧
            (s.chip.mayReport pgEV 5 → t.chip.reported pgEV 5))) ∧
      (∀ allowed : Bool, allowed = ((w == .debug && s.chip.get DB_AUTHSTS_LEVEL pgDB == 2) ||
          ((w == .host || w.mgmt) && s.chip.bit EV_CLRSTS_AUTH pgEV && s.chip.ev.authBy == w.cls)) →
        (allowed = false ∨ s.chip.get EV_STS_CLRBUSY pgEV = 1 → Completes (.recorderClear w) s fun t => s.performed t ∧
          s.chip.onlyRegs t.chip ∧ t.chip.get EV_CLRSTS_AUTH pgEV = 0 ∧ t.chip.get EV_CLRSTS_ERR pgEV = (if allowed then 6 else 5) ∧
          s.chip.fieldsKept t.chip [EV_CLRSTS_AUTH.key pgEV 0, EV_CLRSTS_ERR.key pgEV 0]) ∧
        (∀ (q : Nat) (r : Rec), q = (s.chip.get EV_HEAD_SEQ pgEV + 1) % 2 ^ 32 →
          r = { s.chip.newRec 0x0001 w.cls
            (BitVec.ofNat 64 (s.chip.get EV_HEAD_SEQ pgEV + 2 ^ 32 * s.chip.get EV_TAIL_SEQ pgEV)) false with seq := BitVec.ofNat 32 q } →
          allowed = true → s.chip.get EV_STS_CLRBUSY pgEV ≠ 1 → Completes (.recorderClear w) s fun t => s.performed t ∧
            t.chip.get EV_CLRSTS_AUTH pgEV = 0 ∧ t.chip.get EV_CLRSTS_ERR pgEV = 0 ∧ t.chip.get EV_STS_CLRBUSY pgEV = 1 ∧
            t.chip.get EV_HEAD_SEQ pgEV = q ∧ t.chip.get EV_TAIL_SEQ pgEV = q ∧ t.chip.get EV_STS_EMPTY pgEV = 0 ∧
            t.chip.get EV_STS_BUF pgEV = 0 ∧ t.chip.ev.buf = [] ∧ t.chip.ev.early = [] ∧ t.chip.unitHolds (ringAddr q) r.bytes ∧
            (s.chip.mayReport pgEV 4 → t.chip.reported pgEV 4) ∧
            s.chip.fieldsKept t.chip [EV_CLRSTS_AUTH.key pgEV 0, EV_CLRSTS_ERR.key pgEV 0, EV_STS_CLRBUSY.key pgEV 0,
              EV_HEAD_SEQ.key pgEV 0, EV_TAIL_SEQ.key pgEV 0, EV_STS_EMPTY.key pgEV 0, EV_STS_BUF.key pgEV 0, EV_FLINFO_MAXERASE.key pgEV 0] ∧
            t.chip = { s.chip with regs := t.chip.regs, flt := t.chip.flt, ev := { s.chip.ev with
              buf := [], early := [], flash := t.chip.ev.flash, erases := t.chip.ev.erases } }))) ∧
    (∀ tail n first, tail = s.chip.get EV_TAIL_SEQ pgEV → n = (s.chip.get EV_HEAD_SEQ pgEV + 2 ^ 32 - tail) % 2 ^ 32 →
      first = tail % ringLen / 128 → s.chip.get EV_STS_CLRBUSY pgEV = 1 → Completes .clearEraseDone s fun t => s.device t ∧
        t.chip.get EV_STS_CLRBUSY pgEV = 0 ∧
        (∀ x, (x < 2048 → (x + 2048 - first) % 2048 ≤ (tail % 128 + n) / 128) → ∀ w, w / 512 = ringBase / 0x1000 + x →
          t.chip.flashWord w = s.chip.flashWord w) ∧
        (∀ x < 2048, (tail % 128 + n) / 128 < (x + 2048 - first) % 2048 → ∀ w, w / 512 = ringBase / 0x1000 + x →
          t.chip.flashWord w = flashErased) ∧
        (∀ w, w / 512 < ringBase / 0x1000 → t.chip.flashWord w = s.chip.flashWord w) ∧
        s.chip.fieldsKept t.chip [EV_STS_CLRBUSY.key pgEV 0, EV_FLINFO_MAXERASE.key pgEV 0] ∧
        t.chip = { s.chip with
          regs := t.chip.regs, flt := t.chip.flt, ev := { s.chip.ev with flash := t.chip.ev.flash, erases := t.chip.ev.erases } }) ∧
    (s.chip.get EV_STS_CLRBUSY pgEV ≠ 1 → exec .clearEraseDone s = .next s) ∧
    (Completes .clearAuthLapse s fun t => s.device t ∧ s.chip.onlyRegs t.chip ∧ t.chip.get EV_CLRSTS_AUTH pgEV = 0 ∧
      s.chip.fieldsKept t.chip [EV_CLRSTS_AUTH.key pgEV 0])

/-- A flash command is denied to a master that may not make it; one in progress, or RUN = 0, sets WIGN and nothing else;
otherwise it leaves OP and the code of the first check that fails, and begins where none does. FLASH_COMMAND_DONE of
a READ leaves the bytes in EV_FLDATA, of a PROGRAM the bytes in the flash unit, of an ERASE the sector erased, and
changes no other flash word. FLASH_REFRESH of a sector that waits for it moves it to a spare with its corrected
words written anew; the record ring is left alone. A register access of an idle I2C or SPI target hands one request
to the network; a busy target takes none. I2C_SET_POINTER sets the pointer; a target that waits 1 ms answers with
ERR_TIMEOUT, and the answer that comes later is dropped; an I2C bus timeout ends the transaction.
(21_event_recorder_and_flash.md) -/
def Obligations.FlashAndSerialTargets : Prop :=
  ∀ (s : State),
    (∀ (w : Who) (i : Instr) (op a e : Nat), (i, op) ∈ [(Instr.flashRead w, 1), (.flashProgram w, 2), (.flashErase w, 3)] →
      s.reaches w pgEV EV_FLCMD_OP.off → a = s.chip.get EV_FLADDR_ADDR pgEV →
      e = (if a % 32 ≠ 0 then 2 else if s.chip.flashRights w op a ≠ 0 then s.chip.flashRights w op a
        else if op = 2 ∧ s.chip.unitErased a = false then 3 else 0) →
      (s.chip.flashMaster w op = false → exec i s = .next { s with code := errDenied }) ∧
      (s.chip.flashMaster w op = true → s.chip.get EV_FLCMD_BUSY pgEV = 1 ∨ s.chip.run pgEV = false → Completes i s fun t =>
        s.performed t ∧ s.chip.onlyRegs t.chip ∧ t.chip.get PG_STS_WIGN pgEV = 1 ∧ s.chip.fieldsKept t.chip [PG_STS_WIGN.key pgEV 0]) ∧
      (s.chip.flashMaster w op = true → s.chip.get EV_FLCMD_BUSY pgEV ≠ 1 → s.chip.run pgEV = true → e ≠ 0 → Completes i s fun t =>
        s.performed t ∧ s.chip.onlyRegs t.chip ∧ t.chip.get EV_FLCMD_OP pgEV = op ∧ t.chip.get EV_FLCMD_ERR pgEV = e ∧
        s.chip.fieldsKept t.chip [EV_FLCMD_OP.key pgEV 0, EV_FLCMD_ERR.key pgEV 0]) ∧
      (s.chip.flashMaster w op = true → s.chip.get EV_FLCMD_BUSY pgEV ≠ 1 → s.chip.run pgEV = true → e = 0 → Completes i s fun t =>
        s.performed t ∧ t.chip.get EV_FLCMD_OP pgEV = op ∧ t.chip.get EV_FLCMD_ERR pgEV = 0 ∧ t.chip.get EV_FLCMD_BUSY pgEV = 1 ∧
        s.chip.fieldsKept t.chip [EV_FLCMD_OP.key pgEV 0, EV_FLCMD_ERR.key pgEV 0, EV_FLCMD_BUSY.key pgEV 0] ∧
        t.chip = { s.chip with regs := t.chip.regs, ev := { s.chip.ev with cmd := some {
          op := op, addr := a, data := (List.range 8).flatMap fun n => natLe 4 (s.chip.get EV_FLDATA_DATA pgEV n) } } })) ∧
    (∀ q : FlashCmd, s.chip.ev.cmd = some q → Completes .flashCommandDone s fun t => s.device t ∧ t.chip.ev.cmd = none ∧
      t.chip.get EV_FLCMD_BUSY pgEV = 0 ∧
      (q.op = 1 → (∀ i < 8, t.chip.get EV_FLDATA_DATA pgEV i = leAt (s.chip.flashShown q.addr) (4 * i) 4 % 2 ^ 32) ∧
        t.chip.ev.flash = s.chip.ev.flash) ∧
      (q.op = 2 → t.chip.unitHolds q.addr q.data ∧ s.chip.flashKept t.chip q.addr ∧ s.chip.onlyRegsFaults { t.chip with ev := s.chip.ev }) ∧
      (q.op = 3 → ∀ w, t.chip.flashWord w = if w / 512 = q.addr / 0x1000 then flashErased else s.chip.flashWord w)) ∧
    (s.chip.ev.cmd = none → exec .flashCommandDone s = .next s) ∧
    (∀ (x : Fin 4096) (p : Nat) (ps : List Nat),
      (0x280 ≤ x.val ∧ x.val < 0xA80 → exec (.flashRefresh x) s = .next s) ∧
      (¬ (0x280 ≤ x.val ∧ x.val < 0xA80) → s.chip.ev.refresh.contains x.val = true → s.chip.ev.spares = p :: ps →
        Store.wf (fun _ => flashErased) s.chip.ev.flash = true → Completes (.flashRefresh x) s fun t => s.device t ∧
          t.chip.sectorPlace x.val = p ∧ t.chip.ev.spares = ps ++ [s.chip.sectorPlace x.val] ∧
          t.chip.ev.refresh.contains x.val = false ∧
          ∀ w, t.chip.flashWord w = if w / 512 = x.val then (match eccDecode (s.chip.flashWord w) with
            | .fixed d => secded d | _ => s.chip.flashWord w) else s.chip.flashWord w)) ∧
    (∀ (off v : BitVec 32) (i : Instr) (spi wr : Bool),
      (i, spi, wr) ∈ [(Instr.i2cRegisterWrite off v, false, true), (.spiWrite off v, true, true), (.spiRead off, true, false)] →
      ((s.chip.serialOf spi).busy = true → exec i s = .next s) ∧
      ((s.chip.serialOf spi).busy = false → Completes i s fun t => s.device t ∧ (t.chip.serialOf spi).busy = true ∧
        (t.chip.serialOf spi).stale = false ∧ t.chip.serialOf (!spi) = s.chip.serialOf (!spi) ∧
        (t.chip.serialOf spi).ptr = (s.chip.serialOf spi).ptr ∧
        t.chip = { s.chip with
          ev := { s.chip.ev with i2c := t.chip.ev.i2c, spi := t.chip.ev.spi }, net := { s.chip.net with want := s.chip.net.want ++ [{
            asker := if spi then .spi else .i2c, op := if wr then .regwr else .regrd, addr := regBase + off.toNat, wdata := if wr then v.setWidth 64 else 0 }] } })) ∧
    (∀ fresh : Bool, ((s.chip.serialOf false).busy = true → exec (.i2cRegisterRead fresh) s = .next s) ∧
      ((s.chip.serialOf false).busy = false → exec (.i2cRegisterRead fresh) s = .next { s with chip := { s.chip with
        ev := { s.chip.ev with i2c := { s.chip.ev.i2c with
          busy := true, wr := false, stale := false, out := if fresh then [] else s.chip.ev.i2c.out } }
        net := { s.chip.net with want := s.chip.net.want ++ [{
          asker := .i2c, op := .regrd, addr := regBase + s.chip.ev.i2c.ptr.toNat, wdata := 0 }] } } })) ∧
    (∀ off : BitVec 32, s.chip.ev.i2c.busy = false ∨ s.chip.ev.i2c.stale = true → exec (.i2cSetPointer off) s =
      .next { s with chip := { s.chip with ev := { s.chip.ev with i2c := { s.chip.ev.i2c with ptr := off } } } }) ∧
    (∀ (i : Instr) (spi : Bool), (i, spi) ∈ [(Instr.i2cStretchTimeout, false), (.spiTimeout, true)] →
      ((s.chip.serialOf spi).busy = false ∨ (s.chip.serialOf spi).stale = true → exec i s = .next s) ∧
      ((s.chip.serialOf spi).busy = true → (s.chip.serialOf spi).stale = false → Completes i s fun t => s.device t ∧
        (t.chip.serialOf spi).stale = true ∧ (t.chip.serialOf spi).busy = true ∧ t.chip.serialOf (!spi) = s.chip.serialOf (!spi) ∧
        t.chip.get (if spi then EV_MGMTSTS_SPI else EV_MGMTSTS_I2C) pgEV = errTimeout ∧
        s.chip.fieldsKept t.chip [(if spi then EV_MGMTSTS_SPI else EV_MGMTSTS_I2C).key pgEV 0] ∧
        t.chip = { s.chip with regs := t.chip.regs, ev := { s.chip.ev with i2c := t.chip.ev.i2c, spi := t.chip.ev.spi } })) ∧
    exec .i2cBusTimeout s = .next { s with chip := { s.chip with ev := { s.chip.ev with
      i2c := { s.chip.ev.i2c with out := [], stale := s.chip.ev.i2c.busy } } } }

/-- GROUP_START of a waiting group at an alignment edge starts it, with its divisor code in force and FIRST set, or
refuses it: RUN falls, OPTMIS, LMIS or PMIS says why, and the fault is reported; elsewhere it changes nothing.
PACE_EDGE lets every cell registered on the pace input take its level, and no other cell. PACE_EVENT with a group
that recognises it starts the bound lap of an idle group outside lockstep at the present step edge; during a lap it
counts an overrun, and reports it, holds the event (RESYNC), or stops the group (STOP). RESYNC_CAPTURE fills the
pending buffer. PACE_LATE of a monitored group is reported once. During a freeze no event is recognised.
(02_boolean_processors_and_engines.md, 04_laps_and_pacing.md) -/
def Obligations.GroupsStartAndRecognisePace : Prop :=
  ∀ (g : Fin 64) (s : State),
    (∀ (optBad lenBad pairBad ok : Bool),
      optBad = ((s.chip.get EG_PACE_EDGE (pgEG g.val) == 2 && s.chip.get GL_OPTIN_PACEDG pgGL == 0) ||
        (s.chip.get EG_PACE_OVRPOL (pgEG g.val) == 2 && s.chip.get GL_OPTIN_OVRSYNC pgGL == 0)) →
      lenBad = (s.chip.lengthsDiffer g.val false || s.chip.lengthsDiffer g.val true) →
      pairBad = (s.chip.runners g.val).any (fun e => s.chip.pairBad e) →
      ok = ((s.chip.grp g.val).waiting && s.chip.run (pgEG g.val) && s.chip.domOn g.val && !s.chip.gated (pgEG g.val) &&
        s.chip.lapsStart && s.chip.engineLoop) →
      (ok = false → exec (.groupStart g) s = .next s) ∧
      (ok = true → (optBad || lenBad || pairBad) = true → Completes (.groupStart g) s fun t => s.device t ∧
        t.chip.get PG_CTL_RUN (pgEG g.val) = 0 ∧ (optBad = true → t.chip.get EG_LAPSTS_OPTMIS (pgEG g.val) = 1) ∧
        (lenBad = true → t.chip.get EG_LAPSTS_LMIS (pgEG g.val) = 1) ∧ (pairBad = true → t.chip.get EG_RPLSTS_PMIS (pgEG g.val) = 1) ∧
        t.chip.grp g.val = { s.chip.grp g.val with waiting := false } ∧
        ((optBad || lenBad) = true → s.chip.mayReport (pgEG g.val) 5 → t.chip.reported (pgEG g.val) 5) ∧
        (pairBad = true → s.chip.mayReport (pgEG g.val) 7 → t.chip.reported (pgEG g.val) 7) ∧
        s.chip.fieldsKept t.chip [PG_CTL_RUN.key (pgEG g.val) 0, EG_LAPSTS_OPTMIS.key (pgEG g.val) 0, EG_LAPSTS_LMIS.key (pgEG g.val) 0,
          EG_RPLSTS_PMIS.key (pgEG g.val) 0] ∧
        t.chip = { s.chip with regs := t.chip.regs, flt := t.chip.flt, eng := { s.chip.eng with group := t.chip.eng.group } }) ∧
      (ok = true → (optBad || lenBad || pairBad) = false → Completes (.groupStart g) s fun t => s.device t ∧
        t.chip.get PG_STS_RUNNING (pgEG g.val) = 1 ∧ t.chip.get EG_LAPSTS_FIRST (pgEG g.val) = 1 ∧
        t.chip.get EG_LAPSTS_PEND (pgEG g.val) = 0 ∧ t.chip.get EG_ADMBKT_BKT (pgEG g.val) = 0 ∧
        (t.chip.grp g.val).waiting = false ∧ (t.chip.grp g.val).rate = some (s.chip.get EG_STEPCLK_DIV (pgEG g.val)) ∧
        (t.chip.grp g.val).opt = s.chip.get GL_OPTIN_PACEDG pgGL + 2 * s.chip.get GL_OPTIN_OVRSYNC pgGL)) ∧
    (∀ (p : Fin 16) (rising held : Bool) (pins : List (Nat × Bool)) (c : Chip), c = (s.chip.setPins pins).settle →
      ((held && s.chip.paceDelivers p.val && s.chip.get GL_FRZSTS_STATE pgGL == 0) = false →
        exec (.paceEdge p rising held pins) s = .next { s with chip := c }) ∧
      (held = true → s.chip.paceDelivers p.val = true → s.chip.get GL_FRZSTS_STATE pgGL = 0 →
        Completes (.paceEdge p rising held pins) s fun t => s.device t ∧
          (∀ n < 480, ∀ b, ((c.ioPace n).1 == p.val && (if rising then (c.ioPace n).2.1 else (c.ioPace n).2.2) &&
              c.started (cellSector n) && c.ioStd n != 0) = true → (c.ioWord n).getLsbD 13 = true →
            c.cellIn c.fab.now (c.fabVal c.fab.now fabDepth) n = some b → Store.get false t.chip.fab.now.cap n = b) ∧
          (∀ n, ((c.ioPace n).1 == p.val && (if rising then (c.ioPace n).2.1 else (c.ioPace n).2.2) &&
              c.started (cellSector n) && c.ioStd n != 0) = false →
            Store.get false t.chip.fab.now.cap n = Store.get false s.chip.fab.now.cap n ∧
            Store.get false t.chip.fab.ioData n = Store.get false s.chip.fab.ioData n ∧
            Store.get false t.chip.fab.ioEn n = Store.get false s.chip.fab.ioEn n) ∧
          t.chip = { c with free := t.chip.free, fab := { c.fab with
            now := { c.fab.now with q := t.chip.fab.now.q, cap := t.chip.fab.now.cap }
            ioData := t.chip.fab.ioData, ioEn := t.chip.fab.ioEn } })) ∧
    (∀ ks : List PaceKey, s.chip.lapsStart = false → exec (.paceEvent ks) s = .next s) ∧
    (∀ k : PaceKey, s.chip.lapsStart = true → s.chip.recognisers k = [g.val] → s.chip.eng.lsSync = false →
      s.chip.get EG_LSIMP_LSG (pgEG g.val) ≠ 1 →
      ((s.chip.grp g.val).bound.on = false → s.chip.accepts (pgEG g.val) = true → (s.chip.grp g.val).haltAllows false = true →
        s.chip.ready g.val false ≠ [] → Completes (.paceEvent [k]) s fun t => s.device t ∧
          t.chip.lap g.val false = { on := true, edge := s.chip.eng.edge, first := s.chip.bit EG_LAPSTS_FIRST (pgEG g.val) } ∧
          (∀ h, h ≠ g.val → t.chip.grp h = s.chip.grp h) ∧ s.chip.fieldsKept t.chip [EG_LAPMARGIN_MIN.key (pgEG g.val) 0] ∧
          t.chip = { s.chip with regs := t.chip.regs, flt := t.chip.flt
                                 eng := { s.chip.eng with group := t.chip.eng.group, edge := s.chip.eng.edge + 1 } }) ∧
      ((s.chip.grp g.val).bound.on = true → Completes (.paceEvent [k]) s fun t => s.device t ∧
        t.chip.get EG_OVRCNT_COUNT (pgEG g.val) = satInc (2 ^ 16 - 1) (s.chip.get EG_OVRCNT_COUNT (pgEG g.val)) ∧
        t.chip.eng.edge = s.chip.eng.edge + 1 ∧
        (s.chip.get EG_PACE_OVRPOL (pgEG g.val) ≠ 1 → s.chip.get EG_PACE_OVRPOL (pgEG g.val) ≠ 2 →
          t.chip.lap g.val false = { (s.chip.lap g.val false) with ovr := true } ∧
          (s.chip.mayReport (pgEG g.val) 1 → t.chip.reported (pgEG g.val) 1)) ∧
        (s.chip.get EG_PACE_OVRPOL (pgEG g.val) = 2 → (s.chip.grp g.val).held = false →
          t.chip.lap g.val false = { (s.chip.lap g.val false) with ovr := true } ∧ (t.chip.grp g.val).held = true ∧
          (t.chip.grp g.val).resync = true ∧ (s.chip.mayReport (pgEG g.val) 1 → t.chip.reported (pgEG g.val) 1)) ∧
        (s.chip.get EG_PACE_OVRPOL (pgEG g.val) = 1 → t.chip.get PG_CTL_RUN (pgEG g.val) = 0 ∧
          t.chip.get PG_STS_RUNNING (pgEG g.val) = 0 ∧ (t.chip.lap g.val false).on = false ∧
          (s.chip.mayReport (pgEG g.val) 2 → t.chip.reported (pgEG g.val) 2)))) ∧
    ((s.chip.grp g.val).resync = false → exec (.resyncCapture g) s = .next s) ∧
    ((s.chip.grp g.val).resync = true → s.chip.stepsRun = true → Completes (.resyncCapture g) s fun t => s.device t ∧
      t.chip.grp g.val = { s.chip.grp g.val with resync := false, pendBuf := (s.chip.groupIn g.val).1 } ∧
      t.chip.get EG_LAPSTS_PEND (pgEG g.val) = b2n (s.chip.grp g.val).held ∧
      s.chip.fieldsKept t.chip [EG_LAPSTS_PEND.key (pgEG g.val) 0] ∧ (∀ h, h ≠ g.val → t.chip.grp h = s.chip.grp h) ∧
      t.chip = { s.chip with regs := t.chip.regs, free := (s.chip.groupIn g.val).2.free
                             eng := { s.chip.eng with group := t.chip.eng.group } }) ∧
    ((s.chip.monitors g.val && !(s.chip.grp g.val).lateDone) = false → exec (.paceLate g) s = .next s) ∧
    (s.chip.monitors g.val = true → (s.chip.grp g.val).lateDone = false → Completes (.paceLate g) s fun t => s.device t ∧
      t.chip.grp g.val = { s.chip.grp g.val with lateDone := true } ∧ (s.chip.mayReport (pgEG g.val) 4 → t.chip.reported (pgEG g.val) 4) ∧
      t.chip = { s.chip with flt := t.chip.flt, eng := { s.chip.eng with group := t.chip.eng.group } } ∧
      ∀ h, h ≠ g.val → t.chip.grp h = s.chip.grp h)

/-- Each phase acts on a lap that stands before it, in a group that runs, and on no other: elsewhere it changes nothing.
The input phase takes the group inputs, lets the ready engines take part, and clears OUT of their BPs. A compute
step gives every BP of the engines that take part the result of its word over the state at the start of the step,
drives the send lanes, and leaves the other BPs, the state files and the other groups alone. The commit phase leaves
the current bank of every engine as it was. A decision that needs no replay toggles the current bank of the engines
that take part, and of no other; a loose lap whose pairs differ runs again, and no bank toggles. The output phase
gathers the output bits; of a loose lap it asks for the write of the output record. A completed bound lap is
counted, a completed loose lap shows its energy. (02_boolean_processors_and_engines.md, 04_laps_and_pacing.md,
06_pairing_and_replay.md, 07_engine_io_and_trace.md) -/
def Obligations.LapsRunInPhases : Prop :=
  ∀ (g : Fin 64) (loose : Bool) (energy : Nat) (s : State) (l : LapSt), l = s.chip.lap g.val loose →
    (l.on = false → exec (.lapInputPhase g loose) s = .next s ∧ exec (.computeStep g loose) s = .next s ∧
      exec (.lapCommit g loose) s = .next s ∧ exec (.replayDecision g loose) s = .next s ∧
      exec (.lapOutputPhase g loose) s = .next s ∧ exec (.lapComplete g loose energy) s = .next s) ∧
    (l.on = true → s.chip.groupUp g.val = true → s.chip.stepsRun = true →
      (l.phase = .started → loose = true ∨ s.chip.get EG_LSIMP_LSG (pgEG g.val) ≠ 1 →
        (s.chip.ready g.val loose = [] → Completes (.lapInputPhase g loose) s fun t => s.device t ∧
          t.chip.lap g.val loose = { l with on := false } ∧
          t.chip = { s.chip with free := t.chip.free, eng := { s.chip.eng with group := t.chip.eng.group } }) ∧
        ((s.chip.ready g.val loose).any (fun k => s.chip.running (pgEE (8 * g.val + k))) = true →
          Completes (.lapInputPhase g loose) s fun t => s.device t ∧ (t.chip.lap g.val loose).on = true ∧
            (t.chip.lap g.val loose).phase = .computing ∧ (t.chip.lap g.val loose).step = 0 ∧
            (∀ k ∈ s.chip.ready g.val loose, s.chip.running (pgEE (8 * g.val + k)) = true → k ∈ (t.chip.lap g.val loose).parts) ∧
            (∀ k ∈ (t.chip.lap g.val loose).parts, k ∈ s.chip.ready g.val loose ∧
              ∀ b < 128, (t.chip.bp (8 * g.val + k) b).out = false) ∧
            (loose = false → (t.chip.grp g.val).inReg = (s.chip.groupIn g.val).1))) ∧
      (l.phase = .computing → l.step < l.len → Completes (.computeStep g loose) s fun t => s.device t ∧
        t.chip.lap g.val loose = { l with
          step := l.step + 1
          send := (List.range 8).map fun k => if l.parts.contains k then s.chip.sendLanes (8 * g.val + k) l.step else 0
          failed := (t.chip.lap g.val loose).failed } ∧
        (∀ k ∈ l.parts, k < 8 → ∀ b < 128, ∃ n, t.chip.bp (8 * g.val + k) b =
          (s.chip.bpStep (8 * g.val + k) b l.step (s.chip.recvLanes g.val k loose l) n).1) ∧
        (∀ e b, b < 128 → (∀ k ∈ l.parts, e ≠ 8 * g.val + k) → t.chip.bp e b = s.chip.bp e b) ∧
        (∀ h, h ≠ g.val → t.chip.grp h = s.chip.grp h) ∧
        t.chip = { s.chip with flt := t.chip.flt, free := t.chip.free
                               eng := { s.chip.eng with bp := t.chip.eng.bp, group := t.chip.eng.group } }) ∧
      (l.phase = .computing → l.step = l.len → Completes (.lapCommit g loose) s fun t => s.device t ∧
        (t.chip.lap g.val loose).on = true ∧ (t.chip.lap g.val loose).phase = .committed ∧
        (∀ e, t.chip.cur e = s.chip.cur e) ∧
        (∀ e b q, s.chip.cur e ≤ 1 → b < 128 → q < 4 → t.chip.bankWord e b (s.chip.cur e) q = s.chip.bankWord e b (s.chip.cur e) q)) ∧
      (l.phase = .committed → l.replay = false → loose = true ∨ s.chip.together g.val .committed = [g.val] →
        (s.chip.pairsIn g.val l = [] → l.parts.Nodup → Completes (.replayDecision g loose) s fun t => s.device t ∧
          (t.chip.lap g.val loose).phase = .decided ∧ (∀ k ∈ l.parts, t.chip.cur (8 * g.val + k) = 1 - s.chip.cur (8 * g.val + k)) ∧
          (∀ e, (∀ k ∈ l.parts, e ≠ 8 * g.val + k) → t.chip.cur e = s.chip.cur e) ∧
          t.chip = { s.chip with regs := t.chip.regs, eng := { s.chip.eng with group := t.chip.eng.group } }) ∧
        (loose = true → s.chip.wantsReplay g.val true = true → Completes (.replayDecision g loose) s fun t => s.device t ∧
          (t.chip.lap g.val true).phase = .computing ∧ (t.chip.lap g.val true).step = 0 ∧ (t.chip.lap g.val true).replay = true ∧
          t.chip.get EG_RPLSTS_SRC (pgEG g.val) = g.val ∧ t.chip.get EG_RPLSTS_VALID (pgEG g.val) = 1 ∧
          ∀ e, t.chip.cur e = s.chip.cur e)) ∧
      (l.phase = .decided → Completes (.lapOutputPhase g loose) s fun t => s.device t ∧ (t.chip.lap g.val loose).phase = .output ∧
        (loose = false → (t.chip.grp g.val).outReg = s.chip.gather g.val l (s.chip.grp g.val).outReg ∧
          t.chip.get EG_LAPSTS_FIRST (pgEG g.val) = 0) ∧
        (loose = true → (t.chip.grp g.val).looseReg = s.chip.classBits g.val true (s.chip.gather g.val l (s.chip.grp g.val).looseReg) ∧
          (t.chip.grp g.val).batch.out = (s.chip.grp g.val).batch.out ++ [l.recIdx] ∧
          ∃ r ∈ t.chip.net.want, r.asker = .batchOut g.val l.recIdx ∧ r.op = .write ∧ r.len = 2 ∧
            r.addr = s.chip.batchOut g.val + 128 * l.recIdx)) ∧
      (l.phase = .output → loose = true ∨ s.chip.together g.val .output = [g.val] → Completes (.lapComplete g loose energy) s fun t =>
        s.device t ∧
        (loose = false → (t.chip.grp g.val).lapCnt = (s.chip.grp g.val).lapCnt + 1 ∧ t.chip.eng.edge = s.chip.eng.edge + 1 ∧
          ((s.chip.grp g.val).held = false → (t.chip.lap g.val false).on = false)) ∧
        (loose = true → (t.chip.lap g.val true).on = false ∧
          t.chip.get EG_ADMLAST_LAST (pgEG g.val) = min energy (2 ^ 24 - 1) ∧
          t.chip.get EG_ADMCNT_COUNT (pgEG g.val) = satInc (2 ^ 32 - 1) (s.chip.get EG_ADMCNT_COUNT (pgEG g.val)) ∧
          (t.chip.grp g.val).adm.cost = some (min energy (2 ^ 24 - 1)))))

/-- BATCH_ENABLE of a batch that is off checks both buffers and begins, asking for its first record, or leaves the code
and reports it; BATCH_DISABLE ends it. LOOSE_LAP_ADMIT starts the loose lap offered to a group that admits it, and
charges its cost; one that is not admitted is only noted. BUDGET_WORD fills the bucket and takes the throttle bit.
TRACE_ENABLE checks its buffer and begins with an empty trace; TRACE_DISABLE, TRACE_FLUSH and TRACE_FLIT_TIMEOUT
hand over what is held. LOCKSTEP_ARM from OFF arms, SYNC on the armed master is noted, STOP while armed or running
sends LSSTOP to every linked member and stops every lockstep group, DISARM from STOPPED returns to OFF. LSSYNC makes
an armed member run, LSDATA fills an import buffer, LSSTOP stops the member; a message for another member is taken
and does nothing. (05_exchange_and_lockstep.md, 07_engine_io_and_trace.md, 17_power_and_governor.md) -/
def Obligations.BatchesAdmissionTraceAndLockstep : Prop :=
  ∀ (w : Who) (g : Fin 64) (p : Fin 16) (v : BitVec 32) (s : State),
    (∀ err, s.reaches w (pgEG g.val) EG_LPCTL_EN.off → s.chip.get EG_LPCTL_EN (pgEG g.val) ≠ 1 →
      err = (if s.chip.bufferCheck (Asker.batchIn g.val 0).place.1 (s.chip.batchIn g.val) (128 * (s.chip.get EG_LPCNT_COUNT (pgEG g.val) + 1)) ≠ 0
        then s.chip.bufferCheck (Asker.batchIn g.val 0).place.1 (s.chip.batchIn g.val) (128 * (s.chip.get EG_LPCNT_COUNT (pgEG g.val) + 1))
        else s.chip.bufferCheck (Asker.batchIn g.val 0).place.1 (s.chip.batchOut g.val) (128 * (s.chip.get EG_LPCNT_COUNT (pgEG g.val) + 1))) →
      Completes (.batchEnable w g v) s fun t => s.performed t ∧ t.chip.get EG_LPSTS_ERR (pgEG g.val) = err ∧
        s.chip.fieldsKept t.chip [EG_LPCTL_EN.key (pgEG g.val) 0, EG_LPSTS_DONE.key (pgEG g.val) 0, EG_LPSTS_ERR.key (pgEG g.val) 0,
          EG_LPCTL_FIN.key (pgEG g.val) 0, EG_LPCTL_KIDX.key (pgEG g.val) 0, PG_STS_WIGN.key (pgEG g.val) 0] ∧
        t.chip = { s.chip with
          regs := t.chip.regs, flt := t.chip.flt, eng := { s.chip.eng with group := t.chip.eng.group }
          net := { s.chip.net with want := t.chip.net.want } } ∧
        (err ≠ 0 → t.chip.get EG_LPCTL_EN (pgEG g.val) = s.chip.get EG_LPCTL_EN (pgEG g.val) ∧ t.chip.eng = s.chip.eng ∧
          t.chip.net = s.chip.net ∧ (s.chip.mayReport (pgEG g.val) 8 → t.chip.reported (pgEG g.val) 8)) ∧
        (err = 0 → t.chip.get EG_LPCTL_EN (pgEG g.val) = 1 ∧ t.chip.get EG_LPSTS_DONE (pgEG g.val) = 0 ∧
          t.chip.get EG_LPCTL_FIN (pgEG g.val) = 0 ∧ (t.chip.grp g.val).batch.active = true ∧ (t.chip.grp g.val).batch.buf = [] ∧
          (t.chip.grp g.val).batch.lap = 0 ∧ ((s.chip.grp g.val).batch.reads = [] → ∃ r ∈ t.chip.net.want,
            r.asker = .batchIn g.val 0 ∧ r.op = .read ∧ r.len = 2 ∧ r.addr = s.chip.batchIn g.val))) ∧
    (s.reaches w (pgEG g.val) EG_LPCTL_EN.off → s.chip.get EG_LPCTL_EN (pgEG g.val) = 1 → Completes (.batchDisable w g v) s fun t =>
      s.performed t ∧ t.chip.get EG_LPCTL_EN (pgEG g.val) = 0 ∧
      t.chip.grp g.val = { s.chip.grp g.val with batch := { (s.chip.grp g.val).batch with active := false } } ∧
      s.chip.fieldsKept t.chip [EG_LPCTL_EN.key (pgEG g.val) 0, PG_STS_WIGN.key (pgEG g.val) 0] ∧
      t.chip = { s.chip with regs := t.chip.regs, eng := { s.chip.eng with group := t.chip.eng.group } }) ∧
    (s.chip.offered g.val = false → exec (.looseLapAdmit g) s = .next s) ∧
    (s.chip.offered g.val = true → (s.chip.grp g.val).loose.on = false → s.chip.accepts (pgEG g.val) = true → s.chip.lapsStart = true →
      (s.chip.grp g.val).haltAllows true = true →
      (s.chip.admits g.val = true → s.chip.get EG_ADMDEPTH_DEPTH (pgEG g.val) < 2 ^ 24 → Completes (.looseLapAdmit g) s fun t =>
        s.device t ∧ t.chip.lap g.val true = { on := true, edge := s.chip.eng.edge, recIdx := (s.chip.grp g.val).batch.lap
                                               first := s.chip.bit EG_LAPSTS_FIRST (pgEG g.val) } ∧
        (t.chip.grp g.val).adm.charged = s.chip.costOf g.val ∧ (t.chip.grp g.val).adm.demand = true ∧
        t.chip.eng.edge = s.chip.eng.edge + 1 ∧ s.chip.fieldsKept t.chip [EG_ADMBKT_BKT.key (pgEG g.val) 0] ∧
        (s.chip.get EG_ADMCTL_FREE (pgEG g.val) = 1 → s.chip.sameRegs t.chip) ∧
        (s.chip.get EG_ADMCTL_FREE (pgEG g.val) ≠ 1 → sgn 32 (t.chip.get EG_ADMBKT_BKT (pgEG g.val)) =
          min (s.chip.get EG_ADMDEPTH_DEPTH (pgEG g.val) + 1 : Int)
            (max (-(2 ^ 31 : Int)) (sgn 32 (s.chip.get EG_ADMBKT_BKT (pgEG g.val)) + -(s.chip.costOf g.val : Int)))) ∧
        t.chip = { s.chip with
          regs := t.chip.regs, eng := { s.chip.eng with group := t.chip.eng.group, edge := s.chip.eng.edge + 1 } }) ∧
      (s.chip.admits g.val = false → Completes (.looseLapAdmit g) s fun t => s.device t ∧
        t.chip.grp g.val = { s.chip.grp g.val with adm := { (s.chip.grp g.val).adm with demand := true } } ∧
        t.chip = { s.chip with eng := { s.chip.eng with group := t.chip.eng.group } })) ∧
    (((s.chip.grp g.val).adm.due && s.chip.domOn g.val) = false → exec (.budgetWord g) s = .next s) ∧
    ((s.chip.grp g.val).adm.due = true → s.chip.domOn g.val = true → s.chip.get EG_ADMDEPTH_DEPTH (pgEG g.val) < 2 ^ 24 →
      Completes (.budgetWord g) s fun t => s.device t ∧ (t.chip.grp g.val).adm = { (s.chip.grp g.val).adm with due := false } ∧
        t.chip.get EG_ADMSTS_THROT (pgEG g.val) = b2n ((s.chip.get PW_BUDGET_WORD pgPW).testBit 24) ∧
        sgn 32 (t.chip.get EG_ADMBKT_BKT (pgEG g.val)) = min (s.chip.get EG_ADMDEPTH_DEPTH (pgEG g.val) + 1 : Int)
          (max (-(2 ^ 31 : Int)) (sgn 32 (s.chip.get EG_ADMBKT_BKT (pgEG g.val)) +
            ((s.chip.get PW_BUDGET_WORD pgPW % 65536 * 32 * (s.chip.get EG_ADMCTL_WT (pgEG g.val) + 1) : Nat) : Int))) ∧
        s.chip.fieldsKept t.chip [EG_ADMSTS_THROT.key (pgEG g.val) 0, EG_ADMBKT_BKT.key (pgEG g.val) 0] ∧
        t.chip = { s.chip with regs := t.chip.regs, eng := { s.chip.eng with group := t.chip.eng.group } }) ∧
    (∀ err, s.reaches w (pgEG g.val) EG_TRCCTL_EN.off → s.chip.get EG_TRCCTL_EN (pgEG g.val) ≠ 1 →
      err = s.chip.bufferCheck (Asker.trace g.val 0).place.1 (s.chip.get EG_TRCBASEH_ADDR (pgEG g.val) * 2 ^ 32 +
        s.chip.get EG_TRCBASEL_ADDR (pgEG g.val) * 64) (8 * s.chip.traceUnits g.val) →
      Completes (.traceEnable w g v) s fun t => s.performed t ∧ t.chip.get EG_TRCSTS_ERR (pgEG g.val) = err ∧
        s.chip.fieldsKept t.chip [EG_TRCCTL_EN.key (pgEG g.val) 0, EG_TRCWPTR_WPTR.key (pgEG g.val) 0, EG_TRCSTS_FULL.key (pgEG g.val) 0,
          EG_TRCSTS_ERR.key (pgEG g.val) 0, EG_TRCCTL_KIDX.key (pgEG g.val) 0, EG_TRCCTL_CLASS.key (pgEG g.val) 0,
          EG_TRCCTL_OBS.key (pgEG g.val) 0, EG_TRCCTL_WRAP.key (pgEG g.val) 0, PG_STS_WIGN.key (pgEG g.val) 0] ∧
        t.chip = { s.chip with
          regs := t.chip.regs, flt := t.chip.flt, eng := { s.chip.eng with group := t.chip.eng.group } } ∧
        (err ≠ 0 → t.chip.get EG_TRCCTL_EN (pgEG g.val) = s.chip.get EG_TRCCTL_EN (pgEG g.val) ∧
          (s.chip.mayReport (pgEG g.val) 11 → t.chip.reported (pgEG g.val) 11)) ∧
        (err = 0 → t.chip.get EG_TRCCTL_EN (pgEG g.val) = 1 ∧ t.chip.get EG_TRCWPTR_WPTR (pgEG g.val) = 0 ∧
          t.chip.get EG_TRCSTS_FULL (pgEG g.val) = 0 ∧ (t.chip.grp g.val).trace.held = [] ∧ (t.chip.grp g.val).trace.pos = 0 ∧
          (t.chip.grp g.val).trace.lost = false)) ∧
    (∀ (i : Instr) (en : Nat), i = .traceDisable w g v ∧ en = 0 ∨ i = .traceFlush w g v ∧ en = b2n (v.getLsbD 0) →
      s.reaches w (pgEG g.val) EG_TRCCTL_EN.off → s.chip.get EG_TRCCTL_EN (pgEG g.val) = 1 → Completes i s fun t => s.performed t ∧
        t.chip.get EG_TRCCTL_EN (pgEG g.val) = en ∧ (t.chip.grp g.val).trace.held = [] ∧
        s.chip.fieldsKept t.chip [EG_TRCCTL_EN.key (pgEG g.val) 0, PG_STS_WIGN.key (pgEG g.val) 0] ∧
        ((s.chip.grp g.val).trace.held = [] → t.chip.net = s.chip.net ∧ t.chip.eng = s.chip.eng) ∧
        ((s.chip.grp g.val).trace.held ≠ [] → ∃ r : Req, t.chip.net = { s.chip.net with want := s.chip.net.want ++ [r] } ∧
          r.asker = .trace g.val (s.chip.grp g.val).trace.next ∧ r.op = .write)) ∧
    ((s.chip.grp g.val).trace.held = [] ∨ s.chip.stepsRun = false → exec (.traceFlitTimeout g) s = .next s) ∧
    ((s.chip.grp g.val).trace.held ≠ [] → s.chip.stepsRun = true → Completes (.traceFlitTimeout g) s fun t => s.device t ∧
      (t.chip.grp g.val).trace.held = [] ∧ ∃ r : Req, r.asker = .trace g.val (s.chip.grp g.val).trace.next ∧ r.op = .write ∧
        t.chip = { s.chip with
          eng := { s.chip.eng with group := t.chip.eng.group }, net := { s.chip.net with want := s.chip.net.want ++ [r] } }) ∧
    (s.reaches w pgGL GL_LSCTL_EN.off →
      (s.chip.lsState = 0 → Completes (.lockstepArm w v) s fun t => s.performed t ∧ t.chip.lsState = 1 ∧ t.chip.get GL_LSCTL_EN pgGL = 1 ∧
        t.chip.get GL_LSCTL_NMEM pgGL = bitsOf v.toNat 23 20 ∧ t.chip.get GL_LSCTL_MEMBER pgGL = bitsOf v.toNat 19 16 ∧
        t.chip.get GL_LSCTL_MASTER pgGL = b2n (v.getLsbD 1) ∧ t.chip.eng.lsSync = false ∧ t.chip.eng.lsFresh = false ∧
        t.chip.eng.lsWords = [] ∧ (∀ h < 64, s.chip.get EG_LSIMP_LSG (pgEG h) = 1 → (t.chip.grp h).lsBuf = []) ∧
        s.chip.fieldsKept t.chip [GL_LSSTS_STATE.key pgGL 0, GL_LSCTL_EN.key pgGL 0, GL_LSCTL_NMEM.key pgGL 0, GL_LSCTL_MEMBER.key pgGL 0,
          GL_LSCTL_MASTER.key pgGL 0]) ∧
      (s.chip.lsState = 1 → s.chip.get GL_LSCTL_MASTER pgGL = 1 → Completes (.lockstepSync w v) s fun t => s.performed t ∧
        s.chip.fieldsKept t.chip [PG_STS_WIGN.key pgGL 0] ∧
        t.chip = { s.chip with regs := t.chip.regs, eng := { s.chip.eng with lsSync := true } }) ∧
      (s.chip.lsState = 1 ∨ s.chip.lsState = 2 → Completes (.lockstepStop w v) s fun t => s.performed t ∧ t.chip.lsState = 3 ∧
        t.chip.get GL_LSSTS_CAUSE pgGL = 0 ∧ t.chip.get GL_LSSTS_ORIG pgGL = s.chip.member % 16 ∧ t.chip.get GL_LSSTS_REMOTE pgGL = 0 ∧
        (s.chip.mayReport pgGL 0 → t.chip.reported pgGL 0) ∧
        (∀ m ∈ s.chip.lsLinks, (s.chip.lsPort m, lsPayload 3 s.chip.member m 0 false (s.chip.get GL_LSLAP_LAP pgGL) s.chip.member []) ∈
          t.chip.eng.lsOut) ∧
        (∀ h ∈ s.chip.lsGroups, s.chip.run (pgEG h) = true → t.chip.get PG_CTL_RUN (pgEG h) = 0)) ∧
      (s.chip.lsState = 3 → Completes (.lockstepDisarm w v) s fun t => s.performed t ∧ s.chip.onlyRegs t.chip ∧ t.chip.lsState = 0 ∧
        t.chip.get GL_LSCTL_EN pgGL = 0 ∧ s.chip.fieldsKept t.chip [GL_LSSTS_STATE.key pgGL 0, GL_LSCTL_EN.key pgGL 0,
          GL_LSCTL_NMEM.key pgGL 0, GL_LSCTL_MEMBER.key pgGL 0, GL_LSCTL_MASTER.key pgGL 0])) ∧
    (∀ (i : Instr) (n : Nat), (i, n) ∈ [(Instr.lssync p, 1), (.lsdata p, 2), (.lsstop p, 3)] →
      (s.chip.stepsRun = false ∨ s.chip.inboxTake p.val (fun h => lsType h == n) = none → exec i s = .next s) ∧
      ∀ (h : BitVec 512) (f : List (BitVec 512)) (d : Chip), s.chip.stepsRun = true →
        s.chip.inboxTake p.val (fun h => lsType h == n) = some (h :: f, d) →
        (s.chip.lsMine h = false → exec i s = .next { s with chip := d }) ∧
        (s.chip.lsMine h = true → n = 1 → s.chip.lsState = 1 → Completes i s fun t => s.device t ∧ t.chip.lsState = 2 ∧
          t.chip.get GL_LSLAP_LAP pgGL = bitsOf h.toNat 47 16 ∧
          t.chip = { d with regs := t.chip.regs, eng := { s.chip.eng with lsSync := false, lsFresh := true } }) ∧
        (∀ x y, s.chip.lsMine h = true → n = 2 → bitsOf h.toNat 14 12 = 0 → s.chip.lsState = 1 ∨ s.chip.lsState = 2 →
          bitsOf h.toNat 47 16 = s.chip.get GL_LSLAP_LAP pgGL → x = bitsOf h.toNat 69 64 → y = bitsOf h.toNat 73 70 →
          s.chip.get EG_LSIMP_LSG (pgEG x) = 1 → (s.chip.get EG_LSIMP_WEN (pgEG x)).testBit y = true →
          (s.chip.grp x).lsBuf.all (fun b => b.lap != bitsOf h.toNat 47 16 || b.word != y) = true → Completes i s fun t => s.device t ∧
            t.chip.grp x = { s.chip.grp x with lsBuf := (s.chip.grp x).lsBuf ++
              [{ lap := bitsOf h.toNat 47 16, word := y, data := BitVec.ofNat 64 (bitsOf h.toNat 191 128) }] } ∧
            t.chip = { d with eng := { s.chip.eng with group := t.chip.eng.group } }) ∧
        (s.chip.lsMine h = true → n = 3 → s.chip.lsState = 1 ∨ s.chip.lsState = 2 → Completes i s fun t => s.device t ∧
          t.chip.lsState = 3 ∧ t.chip.get GL_LSSTS_CAUSE pgGL = bitsOf h.toNat 14 12 ∧
          t.chip.get GL_LSSTS_ORIG pgGL = bitsOf h.toNat 51 48 ∧ t.chip.get GL_LSSTS_REMOTE pgGL = 1 ∧
          ∀ k ∈ s.chip.lsGroups, s.chip.run (pgEG k) = true → t.chip.get PG_CTL_RUN (pgEG k) = 0))

/-- PAIR_DETACH of an engine that may leave its pair waits for the lap in progress, and otherwise takes effect at once
and is reported; of another it sets WIGN and nothing else. PAIR_REJOIN of a detached member that is not being
reloaded waits in a running group for the next lap, and is dropped where the engine does not run; in a stopped group
it takes effect at once. LOADER_GO begins the check pass of an idle loader, which judges the header of an image in
the scratchpad at once; elsewhere it sets WIGN. LOADER_ABORT ends either pass with the code ABORTED.
LOADER_CHECK_PASS_DONE rejects an image with the code of the lowest check that fails, ends a check-only run, or
begins the write pass. LOADER_WRITE_PASS_DONE of an image that reads as checked leaves the stores of its groups
loaded, their image number, and their engines' RUN; a read error fails it. (03_schedule_and_lap_image.md,
06_pairing_and_replay.md) -/
def Obligations.PairsAndImages : Prop :=
  ∀ (w : Who) (s : State),
    (∀ e : Fin 512, s.reaches w (pgEE e.val) EE_PAIR_ROLE.off →
      (s.chip.mayDetach e.val = false → Completes (.pairDetach w e) s fun t => s.performed t ∧ s.chip.onlyRegs t.chip ∧
        t.chip.get PG_STS_WIGN (pgEE e.val) = 1 ∧ s.chip.fieldsKept t.chip [PG_STS_WIGN.key (pgEE e.val) 0]) ∧
      (s.chip.mayDetach e.val = true → s.chip.inLap e.val = true → Completes (.pairDetach w e) s fun t => s.performed t ∧
        e.val ∈ t.chip.eng.detPend ∧ (∀ x ∈ s.chip.eng.detPend, x ∈ t.chip.eng.detPend) ∧
        t.chip = { s.chip with eng := { s.chip.eng with detPend := t.chip.eng.detPend } }) ∧
      (s.chip.mayDetach e.val = true → s.chip.inLap e.val = false → Completes (.pairDetach w e) s fun t => s.performed t ∧
        t.chip.detached e.val = true ∧ t.chip.get EE_PAIR_JOINPEND (pgEE e.val) = 0 ∧ e.val ∉ t.chip.eng.detPend ∧
        (s.chip.mayReport (pgEE e.val) 8 → t.chip.reported (pgEE e.val) 8)) ∧
      ((s.chip.reloadState != 0 && s.chip.reloadEng == e.val) = true ∨ s.chip.detached e.val = false ∨
          s.chip.running (pgEG (e.val / 8)) = true ∧ s.chip.run (pgEE e.val) = false → Completes (.pairRejoin w e) s fun t =>
        s.performed t ∧ s.chip.onlyRegs t.chip ∧ t.chip.get PG_STS_WIGN (pgEE e.val) = 1 ∧
        s.chip.fieldsKept t.chip [PG_STS_WIGN.key (pgEE e.val) 0]) ∧
      ((s.chip.reloadState != 0 && s.chip.reloadEng == e.val) = false → s.chip.detached e.val = true →
        (s.chip.running (pgEG (e.val / 8)) = true → s.chip.run (pgEE e.val) = true → Completes (.pairRejoin w e) s fun t =>
          s.performed t ∧ s.chip.onlyRegs t.chip ∧ t.chip.get EE_PAIR_JOINPEND (pgEE e.val) = 1 ∧
          s.chip.fieldsKept t.chip [EE_PAIR_JOINPEND.key (pgEE e.val) 0]) ∧
        (s.chip.running (pgEG (e.val / 8)) = false → Completes (.pairRejoin w e) s fun t => s.performed t ∧
          t.chip.detached e.val = false ∧ (s.chip.mayReport (pgEE e.val) 8 → t.chip.reported (pgEE e.val) 8)))) ∧
    (∀ v : BitVec 32, s.reaches w pgCF CF_JLCTL_GO.off → v.getLsbD 2 = false →
      (s.chip.ldPhase ≠ 0 ∨ s.chip.run pgCF = false ∨ s.chip.cfState = 1 ∨ s.chip.cfState = 2 ∨ s.chip.flt.failed = true →
        Completes (.loaderGo w v) s fun t => s.performed t ∧ s.chip.onlyRegs t.chip ∧ t.chip.get PG_STS_WIGN pgCF = 1 ∧
          s.chip.fieldsKept t.chip [PG_STS_WIGN.key pgCF 0, CF_JLCTL_KIDX.key pgCF 0, CF_JLCTL_CHKONLY.key pgCF 0]) ∧
      (∀ a, s.chip.ldPhase = 0 → s.chip.run pgCF = true → s.chip.cfState ≠ 1 → s.chip.cfState ≠ 2 → s.chip.flt.failed = false →
        a = s.chip.get CF_JLADDRH_ADDR pgCF * 2 ^ 32 + s.chip.get CF_JLADDR_ADDR pgCF * 8 → regionOf a ≠ some .sp →
        Completes (.loaderGo w v) s fun t => s.performed t ∧ t.chip.ldPhase = 1 ∧
          t.chip = { s.chip with regs := t.chip.regs, loader := {
            addr := a, len := s.chip.get CF_JLLEN_LEN pgCF + 1, kidx := bitsOf v.toNat 15 8, chkOnly := v.getLsbD 1 } } ∧
          s.chip.fieldsKept t.chip [CF_JLSTS_PHASE.key pgCF 0, CF_JLCTL_KIDX.key pgCF 0, CF_JLCTL_CHKONLY.key pgCF 0]) ∧
      (∀ a, s.chip.ldPhase = 0 → s.chip.run pgCF = true → s.chip.cfState ≠ 1 → s.chip.cfState ≠ 2 → s.chip.flt.failed = false →
        a = s.chip.get CF_JLADDRH_ADDR pgCF * 2 ^ 32 + s.chip.get CF_JLADDR_ADDR pgCF * 8 → regionOf a = some .sp →
        Completes (.loaderGo w v) s fun t => s.performed t ∧ t.chip.loader.addr = a ∧
          (t.chip.ldPhase = 1 ∨ t.chip.ldPhase = 0 ∧ t.chip.get CF_JLSTS_REJ pgCF = 1))) ∧
    (∀ v : BitVec 32, s.reaches w pgCF CF_JLCTL_GO.off →
      (s.chip.ldPhase = 1 ∨ s.chip.ldPhase = 2 → Completes (.loaderAbort w v) s fun t => s.performed t ∧ t.chip.ldPhase = 0 ∧
        t.chip.get CF_JLSTS_REJ pgCF = 1 ∧ t.chip.get CF_JLCODE_CODE pgCF = 0x17 ∧
        ∀ b, b = s.chip.ldPhase - 1 → s.chip.mayReport pgCF b → t.chip.reported pgCF b) ∧
      (s.chip.ldPhase = 0 → s.chip.stream.wait = .none → Completes (.loaderAbort w v) s fun t => s.performed t ∧ s.chip.onlyRegs t.chip ∧
        s.chip.fieldsKept t.chip [CF_JLCTL_KIDX.key pgCF 0, CF_JLCTL_CHKONLY.key pgCF 0])) ∧
    (∀ (img : List (BitVec 8)) (err : Bool) (r : List (BitVec 8) × Bool), r = s.chip.ldRead img err →
      (s.chip.ldPhase ≠ 1 ∨ s.chip.cfUp = false → exec (.loaderCheckPassDone img err) s = .next s) ∧
      (s.chip.ldPhase ≠ 2 ∨ s.chip.cfUp = false → exec (.loaderWritePassDone img err) s = .next s) ∧
      (s.chip.ldPhase = 1 → s.chip.cfUp = true → Completes (.loaderCheckPassDone img err) s fun t => s.device t ∧
        match (s.chip.ldHead r.1 r.2).orElse fun _ => Image.checkBody r.1 with
        | some e => t.chip.ldPhase = 0 ∧ t.chip.get CF_JLSTS_REJ pgCF = 1 ∧ t.chip.get CF_JLCODE_CODE pgCF = e.code % 2 ^ 8 ∧
            (s.chip.mayReport pgCF 0 → t.chip.reported pgCF 0)
        | none =>
            if s.chip.loader.chkOnly = true then
              t.chip.ldPhase = 0 ∧ t.chip.get CF_JLSTS_DONE pgCF = 1 ∧ t.chip.get CF_JLCODE_CODE pgCF = 0
            else t.chip.ldPhase = 2 ∧ t.chip.get CF_JLSTS_UNITS pgCF = 0 ∧
              t.chip.loader.crcs = (Image.sects r.1).map (fun x => (crc32 (Image.sect r.1 x)).toNat) ∧
              (s.chip.loader.prior = [] → ∀ g ∈ setBitsOf 64 (Image.gmask r.1), t.chip.get EG_LDSTS_STATE (pgEG g) = 2)) ∧
      (s.chip.ldPhase = 2 → s.chip.cfUp = true →
        (r.2 = true → Completes (.loaderWritePassDone img err) s fun t => s.device t ∧ t.chip.ldPhase = 0 ∧
          t.chip.get CF_JLSTS_REJ pgCF = 1 ∧ t.chip.get CF_JLCODE_CODE pgCF = 0x01 ∧ (s.chip.mayReport pgCF 1 → t.chip.reported pgCF 1)) ∧
        (r.2 = false → (Image.sects r.1).map (fun x => (crc32 (Image.sect r.1 x)).toNat) = s.chip.loader.crcs →
          Completes (.loaderWritePassDone img err) s fun t => s.device t ∧ t.chip.ldPhase = 0 ∧ t.chip.get CF_JLSTS_DONE pgCF = 1 ∧
            t.chip.get CF_JLCODE_CODE pgCF = 0 ∧ t.chip.loader.prior = [] ∧
            (∀ g ∈ setBitsOf 64 (Image.gmask r.1), t.chip.get EG_LDSTS_STATE (pgEG g) = 1 ∧
              t.chip.get EG_IMGID_IMGID (pgEG g) = leAt r.1 0x40 4 % 2 ^ 32 ∧
              ∀ k < 8, t.chip.get PG_CTL_RUN (pgEE (8 * g + k)) =
                b2n ((Image.units r.1).any fun u => u.engines.contains (8 * g + k))) ∧
            (∀ u ∈ Image.units r.1, ∀ e ∈ u.engines, t.chip.cur e = 0 ∧ t.chip.lenOf e = Image.lap r.1))))

/-- An edge of a fabric clock gives every macrocell that it clocks, that its enable term allows and that no asynchronous
source acts on, the value that its D had before the edge; every other macrocell without such a source keeps Q, and
nothing else of the device moves but the levels on the user I/O. A master port accepts a request at an edge with
REQ_VALID and REQ_READY: it joins the outstanding ones with the fields of its signals, and a read that passes its
checks goes into the network; one that fails is answered with the code. A write beat joins the oldest write that
wants one, and a write that is complete goes into the network. A delivered beat leaves its request; an error code is
counted, shown and reported. At an edge that delivers nothing, and in a frozen device, nothing happens.
(08_product_term_fabric.md) -/
def Obligations.FabricClocksAndMasterPorts : Prop :=
  ∀ (k : ClkSrc) (rising same : Bool) (pins : List (Nat × Bool)) (n : Fin 8) (p : Fin 4) (s : State) (c d : Chip),
    (s.chip.stepsRun = false → exec (.macrocellClock k rising same pins) s = .next s) ∧
    (s.chip.stepsRun = true → c = ((s.chip.setPins pins).edgeBegins same).settle →
      ((c.clkLevel k).all (· == rising) = false → exec (.macrocellClock k rising same pins) s = .next { s with chip := c }) ∧
      ((c.clkLevel k).all (· == rising) = true → Completes (.macrocellClock k rising same pins) s fun t => s.device t ∧
        t.chip = { c with free := t.chip.free, fab := { c.fab with now := { c.fab.now with q := t.chip.fab.now.q } } } ∧
        ∀ l m, m < 16 → ¬(1 ≤ bitsOf (c.mcWord l m) 16 14 ∧ bitsOf (c.mcWord l m) 16 14 ≤ 5) →
          (l ∈ c.usedTiles → c.regionLive (tileRegion l) = true → c.mcClocked l m k rising = true →
            ((c.mcWord l m).testBit 13 = false ∨ c.term c.fab.pre l (5 * m + 3) = some true →
              ∀ b, c.fabVal c.fab.pre fabDepth (.dval l m) = some b → t.chip.fab.now.qOf l m = b) ∧
            ((c.mcWord l m).testBit 13 = true → c.term c.fab.pre l (5 * m + 3) = some false →
              t.chip.fab.now.qOf l m = c.fab.now.qOf l m)) ∧
          (l ∉ c.usedTiles ∨ c.regionLive (tileRegion l) = false ∨ c.mcClocked l m k rising = false →
            t.chip.fab.now.qOf l m = c.fab.now.qOf l m))) ∧
    (s.chip.fmpClock n.val p.val = false → exec (.fmpRequest n p same) s = .next s ∧ exec (.fmpWriteBeat n p same) s = .next s ∧
      exec (.fmpResponseBeat n p same) s = .next s ∧ exec (.fmpLateBeat n p same) s = .next s) ∧
    (s.chip.fmpClock n.val p.val = true → d = s.chip.edgeBegins same →
      (d.portSees n.val p.val 0 ≠ none → d.fmpTap d.fab.pre (d.fabVal d.fab.pre fabDepth) n.val p.val 0 ≠ none →
        d.portSees n.val p.val 0 = some false ∨ d.fmpTap d.fab.pre (d.fabVal d.fab.pre fabDepth) n.val p.val 0 = some false →
        exec (.fmpRequest n p same) s = .next s) ∧
      (∀ x code : Nat, ∀ q : FmpReq, d.portSees n.val p.val 0 = some true →
        d.fmpTap d.fab.pre (d.fabVal d.fab.pre fabDepth) n.val p.val 0 = some true →
        (∀ e, 1 ≤ e → e < 66 → d.portSees n.val p.val e = some (x.testBit e)) →
        q = { tag := bitsOf x 65 61, wr := x.testBit 1, spec := x.testBit 2, addr := bitsOf x 46 3, len := bitsOf x 52 47 + 1,
              kidx := bitsOf x 60 53 } →
        code = d.niCheck (q.toReq n.val p.val) →
        Completes (.fmpRequest n p same) s fun t => s.device t ∧
          t.chip.fab.now.reqs n.val p.val = (d.fab.now.reqs n.val p.val).filter (fun r => !r.done) ++
            [if code = 0 then { q with asked := !q.wr, lateDue := q.spec && !q.wr }
             else { q with asked := !q.wr, refused := some code, rsp := [(0, code, 0, true)] }] ∧
          t.chip.net.want = d.net.want ++ (if code = 0 ∧ q.wr = false then
            [q.toReq n.val p.val] else []) ∧
          t.chip.get FB_FMPSTS_BUSY (pgFB n.val) p.val = 1 ∧
          t.chip.get FB_FMPSTS_OUTST (pgFB n.val) p.val = ((t.chip.fab.now.reqs n.val p.val).filter FmpReq.outstanding).length % 64 ∧
          s.chip.fieldsKept t.chip [FB_FMPSTS_BUSY.key (pgFB n.val) p.val, FB_FMPSTS_OUTST.key (pgFB n.val) p.val] ∧
          (∀ a b, b < 4 → (a ≠ n.val ∨ b ≠ p.val) → t.chip.fab.now.reqs a b = d.fab.now.reqs a b) ∧
          t.chip = { d with regs := t.chip.regs, net := { d.net with want := t.chip.net.want }
                            fab := { d.fab with now := { d.fab.now with port := t.chip.fab.now.port } } }) ∧
      (d.fab.now.writing n.val p.val = none ∨ d.portSees n.val p.val 66 = some false → d.portSees n.val p.val 66 ≠ none →
        exec (.fmpWriteBeat n p same) s = .next s) ∧
      (∀ x y q r, ∀ f : Bool, d.fab.now.writing n.val p.val = some q → d.portSees n.val p.val 66 = some true →
        (∀ e < 512, d.portSees n.val p.val (67 + e) = some (x.testBit e)) →
        (∀ e < 64, d.portSees n.val p.val (579 + e) = some (y.testBit e)) →
        r = { q with beats := q.beats ++ [(BitVec.ofNat 512 x, BitVec.ofNat 64 y)] } →
        f = (decide (r.beats.length = r.len) && r.refused.isNone) →
        Completes (.fmpWriteBeat n p same) s fun t => s.device t ∧
          (∀ i, (d.fab.now.reqs n.val p.val)[i]? = some q → (∀ j < i, ∀ z, (d.fab.now.reqs n.val p.val)[j]? = some z →
              (z.wr && z.beats.length < z.len) = false) →
            t.chip.fab.now.reqs n.val p.val = ((d.fab.now.reqs n.val p.val).set i { r with asked := f }).filter fun z => !z.done) ∧
          t.chip.net.want = d.net.want ++ (if f then [r.toReq n.val p.val] else []) ∧
          s.chip.fieldsKept t.chip [FB_FMPSTS_BUSY.key (pgFB n.val) p.val, FB_FMPSTS_OUTST.key (pgFB n.val) p.val] ∧
          (∀ a b, b < 4 → (a ≠ n.val ∨ b ≠ p.val) → t.chip.fab.now.reqs a b = d.fab.now.reqs a b) ∧
          t.chip = { d with regs := t.chip.regs, net := { d.net with want := t.chip.net.want }
                            fab := { d.fab with now := { d.fab.now with port := t.chip.fab.now.port } } }) ∧
      (∀ i ∈ [Instr.fmpResponseBeat n p same, .fmpLateBeat n p same],
        d.fab.now.beat n.val p.val = none ∨ d.portSees n.val p.val 643 = some false → d.portSees n.val p.val 643 ≠ none →
          exec i s = .next s) ∧
      (∀ tag line code data last late, d.fab.now.beat n.val p.val = some (tag, line, code, data, last, late) →
        d.portSees n.val p.val 643 = some true →
        exec (if late then .fmpResponseBeat n p same else .fmpLateBeat n p same) s = .next s ∧
        Completes (if late then .fmpLateBeat n p same else .fmpResponseBeat n p same) s fun t => s.device t ∧
          t.chip.fab.now.reqs n.val p.val = ((d.fab.now.reqs n.val p.val).map fun q => if q.tag = tag ∧ q.outstanding then
              (if late then { q with late := q.late.drop 1 }
               else { q with rsp := q.rsp.drop 1, lastDone := last, given := q.given + 1 })
            else q).filter (fun q => !q.done) ∧
          (code ≠ 0 → t.chip.get FB_FMPSTS_LASTERR (pgFB n.val) p.val = code % 256 ∧
            t.chip.get FB_FMPERRC_COUNT (pgFB n.val) p.val = satInc 65535 (s.chip.get FB_FMPERRC_COUNT (pgFB n.val) p.val) % 65536 ∧
            (s.chip.mayReport (pgFB n.val) 0 → t.chip.reported (pgFB n.val) 0)) ∧
          (code = 0 → t.chip.flt = s.chip.flt ∧ s.chip.fieldsKept t.chip [FB_FMPSTS_BUSY.key (pgFB n.val) p.val,
            FB_FMPSTS_OUTST.key (pgFB n.val) p.val]) ∧
          (∀ a b, b < 4 → (a ≠ n.val ∨ b ≠ p.val) → t.chip.fab.now.reqs a b = d.fab.now.reqs a b) ∧
          t.chip = { d with regs := t.chip.regs, flt := t.chip.flt
                            fab := { d.fab with now := { d.fab.now with port := t.chip.fab.now.port } } }))

/-- An enabled edge of a port under routing control writes the bits that its write lanes name and no other, and presents
what its mode says: what stands after the write, what stood before, or nothing while it writes; a port that is not
enabled writes nothing; the reset clears the output register, or the output where there is none. A port that a
running sequencer serves, a held block RAM, a clock that does not reach the sector: nothing happens. A window access
answers the next line of its request at a free edge of port B: a read with the bytes of the window, a write under
its mask; a window of a BR page that does not run answers ERR_STOPPED, and one without an edge for 1 us ERR_GATED.
Other block RAMs keep every word. (09_block_ram_and_arithmetic_slices.md) -/
def Obligations.BlockRamsAndWindows : Prop :=
  ∀ (n : Fin 2048) (b same : Bool) (s : State),
    ((s.chip.regionLive (siteRegion n.val) && s.chip.stepsRun &&
        (if s.chip.portSeq n.val (b2n b) then !s.chip.seqActive (clusterOf n.val)
         else s.chip.siteClock (n.val / 256) (bitsOf (s.chip.siteBits n.val 3176 64) (17 + 5 * b2n b) (13 + 5 * b2n b)))) = false →
      exec (.bramPortAccess n b same) s = .next s) ∧
    (∀ (d : Chip) (k word : Nat), d = s.chip.edgeBegins same → k = 2 * n.val + b2n b → word = s.chip.siteBits n.val 3176 64 →
      s.chip.regionLive (siteRegion n.val) = true → s.chip.stepsRun = true → s.chip.portSeq n.val (b2n b) = false →
      s.chip.siteClock (n.val / 256) (bitsOf word (17 + 5 * b2n b) (13 + 5 * b2n b)) = true →
      ∀ (en r : Bool) (a we di : Nat), d.siteIn d.fab.pre n.val (95 + 97 * b2n b) = some en →
        d.siteIn d.fab.pre n.val (96 + 97 * b2n b) = some r → d.presents n.val (97 * b2n b) 15 a →
        d.presents n.val (87 + 97 * b2n b) 8 we → d.presents n.val (if b then 112 else 15) 72 di →
      Completes (.bramPortAccess n b same) s fun t => s.device t ∧
        t.chip = { d with regs := t.chip.regs, flt := t.chip.flt, free := t.chip.free
                          fab := { d.fab with wrote := t.chip.fab.wrote, now := { d.fab.now with
                            ram := t.chip.fab.now.ram, core := t.chip.fab.now.core, oreg := t.chip.fab.now.oreg } } } ∧
        (∀ m w, w < 512 → m ≠ n.val → t.chip.fab.now.ramWord m w = d.fab.now.ramWord m w) ∧
        (∀ j, j ≠ k → Store.get 0 t.chip.fab.now.core j = Store.get 0 d.fab.now.core j ∧
          Store.get 0 t.chip.fab.now.oreg j = Store.get 0 d.fab.now.oreg j) ∧
        (word.testBit (10 + b2n b) = true → Store.get 0 t.chip.fab.now.oreg k = if r then 0 else Store.get 0 d.fab.now.core k) ∧
        (word.testBit (10 + b2n b) = false → r = true → Store.get 0 t.chip.fab.now.core k = 0) ∧
        (en = false ∨ ramShape (bitsOf word (2 + 3 * b2n b) (3 * b2n b)) = none ∨ (b = true ∧ n.val ∈ d.fab.taken) →
          t.chip.fab.now.ram = d.fab.now.ram ∧ t.chip.regs = d.regs ∧
          (word.testBit (10 + b2n b) = true ∨ r = false → t.chip.fab.now.core = d.fab.now.core)) ∧
        (∀ width depth lane lo mask data after, en = true → (b = true → n.val ∉ d.fab.taken) → d.fab.wrote = [] →
          ramShape (bitsOf word (2 + 3 * b2n b) (3 * b2n b)) = some (width, depth, lane) →
          lo = ramBase width (a % depth) → mask = laneMask (d.ramEcc n.val) width lane we →
          data = (if b = false ∧ word.testBit 25 then bitsOf di 71 36 * 2 ^ 36 + (d.fab.pre.sliceOf n.val).z.toNat else di % 2 ^ 72) →
          after = (if d.ramEcc n.val then (secded (BitVec.ofNat 64 data)).toNat else data % 2 ^ width) →
          (∀ w < 512, w ≠ lo / 72 → t.chip.fab.now.ramWord n.val w = d.fab.now.ramWord n.val w) ∧
          (∀ i < 72, (t.chip.fab.now.ramWord n.val (lo / 72)).getLsbD i =
            if lo % 72 ≤ i ∧ mask.testBit (i - lo % 72) then after.testBit (i - lo % 72) else (d.fab.now.ramWord n.val (lo / 72)).getLsbD i) ∧
          (word.testBit (10 + b2n b) = true ∨ r = false → d.ramEcc n.val = false →
            (mask = 0 ∨ bitsOf word (7 + 2 * b2n b) (6 + 2 * b2n b) = 1 →
              Store.get 0 t.chip.fab.now.core k = BitVec.ofNat 74 (d.fab.pre.ramBits n.val lo width)) ∧
            (mask = 2 ^ width - 1 → bitsOf word (7 + 2 * b2n b) (6 + 2 * b2n b) = 0 →
              Store.get 0 t.chip.fab.now.core k = BitVec.ofNat 74 after) ∧
            (mask ≠ 0 → 2 ≤ bitsOf word (7 + 2 * b2n b) (6 + 2 * b2n b) →
              Store.get 0 t.chip.fab.now.core k = Store.get 0 d.fab.now.core k)))) ∧
    (∀ i, ¬(∃ a, s.chip.net.arrived[i]? = some a ∧ a.done = true ∧ regionOf a.req.addr = some .bram ∧
        s.chip.get GL_FRZSTS_STATE pgGL ≠ 1 ∧ s.chip.get GL_FRZSTS_STATE pgGL ≠ 2) →
      exec (.bramWindowAccess i same) s = .next s ∧ exec (.bramWindowTimeout i) s = .next s) ∧
    (∀ (i : Nat) (a : Arrived) (f : Nat → BitVec 512 → Arrived → Arrived), s.chip.net.arrived[i]? = some a → a.done = true →
      regionOf a.req.addr = some .bram → s.chip.get GL_FRZSTS_STATE pgGL ≠ 1 → s.chip.get GL_FRZSTS_STATE pgGL ≠ 2 →
      s.chip.net.arrived.find? (fun x => x.dstNi == a.dstNi && x.ni == a.ni && x.tag == a.tag) = some a →
      f = (fun code data x => if x.dstNi = a.dstNi ∧ x.ni = a.ni ∧ x.tag = a.tag then
        { x with codes := x.codes ++ [(a.codes.length, code)], data := x.data ++ [(a.codes.length, data)],
                 late := x.late ++ [(a.codes.length, 0)] } else x) →
      (a.codes.length + 1 < a.req.len → Completes (.bramWindowTimeout i) s fun t => s.device t ∧
        t.chip = { s.chip with net := { s.chip.net with arrived := s.chip.net.arrived.map (f errGated 0) } }) ∧
      (a.req.len ≤ a.codes.length + 1 → Completes (.bramWindowTimeout i) s fun t => s.device t ∧
        t.chip.net.arrived = s.chip.net.arrived.filter (fun x => !(x.ni == a.ni && x.tag == a.tag && x.dstNi == a.dstNi)) ∧
        t.chip.fab = s.chip.fab) ∧
      (s.chip.windowOpen (a.ram.1 / 256) = false → exec (.bramWindowAccess i same) s =
        .next { s with chip := s.chip.windowLine a errStopped 0 }) ∧
      (s.chip.windowOpen (a.ram.1 / 256) = true → ((s.chip.edgeBegins same).windowEdge a.ram.1).1 = none →
        exec (.bramWindowAccess i same) s = .next s) ∧
      (∀ (lost : Bool) (d : Chip), s.chip.windowOpen (a.ram.1 / 256) = true → a.codes.length + 1 < a.req.len →
        (s.chip.edgeBegins same).windowEdge a.ram.1 = (some lost, d) → Completes (.bramWindowAccess i same) s fun t => s.device t ∧
          a.ram.1 ∈ t.chip.fab.taken ∧ (lost = true → t.chip.get BR_STS_PBLOST (pgBR (a.ram.1 / 256)) = 1) ∧
          s.chip.fieldsKept t.chip (if lost then [BR_STS_PBLOST.key (pgBR (a.ram.1 / 256)) 0] else []) ∧
          (∀ m w, w < 512 → m ≠ a.ram.1 → t.chip.fab.now.ramWord m w = s.chip.fab.now.ramWord m w) ∧
          (a.req.op = .read → t.chip.fab.now = s.chip.fab.now ∧ ∃ data, t.chip.net.arrived = s.chip.net.arrived.map (f 0 data) ∧
            ∀ j < 512, data.getLsbD j =
              (s.chip.fab.now.ramWord a.ram.1 ((512 * (a.ram.2 + a.codes.length) + j) / 72)).getLsbD ((512 * (a.ram.2 + a.codes.length) + j) % 72)) ∧
          (∀ x, a.req.op ≠ .read → a.codes.length ∉ a.bad → a.req.lines[a.codes.length]? = some x → s.chip.ramEcc a.ram.1 = false →
            t.chip.net.arrived = s.chip.net.arrived.map (f 0 0) ∧
            ∀ w < 512, ∀ j < 72, (t.chip.fab.now.ramWord a.ram.1 w).getLsbD j =
              if 512 * (a.ram.2 + a.codes.length) ≤ 72 * w + j ∧ 72 * w + j < 512 * (a.ram.2 + a.codes.length) + 512 ∧
                  x.mask.getLsbD ((72 * w + j - 512 * (a.ram.2 + a.codes.length)) / 8) then
                x.data.getLsbD (72 * w + j - 512 * (a.ram.2 + a.codes.length))
              else (s.chip.fab.now.ramWord a.ram.1 w).getLsbD j) ∧
          (a.req.op ≠ .read → a.codes.length ∈ a.bad → t.chip.fab.now = s.chip.fab.now ∧
            t.chip.net.arrived = s.chip.net.arrived.map (f errEcc 0))))

/-- At an edge at which a slice samples an operation of the class that the command names, its pipeline advances by one
place: the sampled operation comes in, the term of the one before is formed, the accumulator takes the result of the
one before that, saturated at its 72-bit range, and Z, ZOVF and BEXP follow from the accumulator for the one before
that where it asks for output. A saturation is kept in AS_OVFSTK and reported. An operation from the routing is made
of the inputs that the site presents before the edge. With CE = 0, in a held region, without a clock, nothing
happens. No other slice moves. (09_block_ram_and_arithmetic_slices.md) -/
def Obligations.SlicesAdvance : Prop :=
  ∀ (n : Fin 2048) (same : Bool) (s : State) (d : Chip) (w : Nat), d = s.chip.edgeBegins same → w = s.chip.siteBits n.val 3240 64 →
    ∀ ia ∈ [(Instr.sliceHold n same, 0), (.sliceLoad n same, 1), (.sliceAccum n same, 2), (.sliceCasc n same, 3),
        (.sliceClear n same, 4), (.sliceLoady n same, 5), (.sliceAddy n same, 6)],
      ((s.chip.regionLive (siteRegion n.val) && s.chip.stepsRun && s.chip.siteClock (n.val / 256)
          (if w.testBit 5 then s.chip.siteBits (leadOf n.val) 3240 5 else w % 32)) = false → exec ia.1 s = .next s) ∧
      (w.testBit 5 = false → d.siteIn d.fab.pre n.val 283 = some false → exec ia.1 s = .next s) ∧
      (∀ (o x y k : Nat) (bclr : Bool), w.testBit 5 = false → d.siteIn d.fab.pre n.val 283 = some true →
        d.presents n.val 275 8 o → d.siteIn d.fab.pre n.val 284 = some bclr →
        (bitsOf w 7 6 = 0 ∨ bitsOf w 7 6 = 3 → d.presents n.val 194 27 x) →
        (bitsOf w 7 6 = 1 → x = bitsOf (d.portDo d.fab.pre n.val 0).toNat 26 0) →
        (bitsOf w 7 6 = 2 → x = bitsOf (d.portDo d.fab.pre n.val 0).toNat 62 36) →
        (bitsOf w 9 8 = 0 ∨ bitsOf w 9 8 = 3 → d.presents n.val 221 27 y) →
        (bitsOf w 9 8 = 1 → y = bitsOf (d.portDo d.fab.pre n.val 1).toNat 26 0) →
        (bitsOf w 9 8 = 2 → y = bitsOf (d.portDo d.fab.pre n.val 1).toNat 62 36) →
        (w.testBit 10 = false → d.presents n.val 248 27 k) →
        (w.testBit 10 = true → k = (Store.get 0 d.fab.pre.coef (32 * n.val)).toNat) →
        d.sliceSample n.val = (some {
          acc := o % 8, msel := o.testBit 3, neg := o.testBit 4, out := o.testBit 5, bclr := bclr
          x := BitVec.ofNat 27 x, y := BitVec.ofNat 27 y, k := BitVec.ofNat 27 k, shift := min (bitsOf w 18 13) 36 }, d)) ∧
      (w.testBit 5 = true → (∀ r ∈ (d.seqOf (clusterOf n.val)).issued, ¬(r.2.1 = n.val % 16 ∧ r.1 = 0)) →
        (d.sliceSample n.val).1 = some {}) ∧
      (∀ op : SliceOp, (d.sliceSample n.val).1 = some op → s.chip.regionLive (siteRegion n.val) = true → s.chip.stepsRun = true →
        s.chip.siteClock (n.val / 256) (if w.testBit 5 then s.chip.siteBits (leadOf n.val) 3240 5 else w % 32) = true →
        ((if op.acc = 7 then 0 else op.acc) ≠ ia.2 → Completes ia.1 s fun t => s.device t ∧ t.chip = { s.chip with free := t.chip.free }) ∧
        ((if op.acc = 7 then 0 else op.acc) = ia.2 → Completes ia.1 s fun t => s.device t ∧
          (∀ m, m ≠ n.val → t.chip.fab.now.sliceOf m = d.fab.now.sliceOf m) ∧
          t.chip = { d with regs := t.chip.regs, flt := t.chip.flt, free := t.chip.free
                            fab := { d.fab with seq := t.chip.fab.seq, now := { d.fab.now with slice := t.chip.fab.now.slice } } } ∧
          (t.chip.fab.now.sliceOf n.val).st1 = some op ∧
          (t.chip.fab.now.sliceOf n.val).st3 = (d.fab.now.sliceOf n.val).st2.map Prod.fst ∧
          ((d.fab.now.sliceOf n.val).st1 = none → (t.chip.fab.now.sliceOf n.val).st2 = none) ∧
          (∀ q, (d.fab.now.sliceOf n.val).st1 = some q → ∃ T : Int, (t.chip.fab.now.sliceOf n.val).st2 = some (q, T) ∧
            ∀ X M Y : Int, X = (if w.testBit 11 then q.x.toInt else (q.x.toNat : Int)) →
              M = (if w.testBit 12 then (if q.msel then q.y else q.k).toInt else ((if q.msel then q.y else q.k).toNat : Int)) →
              Y = (if w.testBit 12 then q.y.toInt else (q.y.toNat : Int)) →
              (1 ≤ q.acc → q.acc ≤ 3 → T = if q.neg then -(X * M) else X * M) ∧
              (q.acc = 5 ∨ q.acc = 6 → T = if q.neg then -(Y * 2 ^ 26) else Y * 2 ^ 26)) ∧
          ((d.fab.now.sliceOf n.val).st2 = none → (t.chip.fab.now.sliceOf n.val).acc = (d.fab.now.sliceOf n.val).acc) ∧
          (∀ (q : SliceOp) (T v : Int), (d.fab.now.sliceOf n.val).st2 = some (q, T) →
            v = (if q.acc = 1 ∨ q.acc = 5 then T else if q.acc = 2 ∨ q.acc = 6 then (d.fab.now.sliceOf n.val).acc.toInt + T
              else if q.acc = 3 then (if n.val % 32 = 0 then 0 else (d.fab.pre.sliceOf (n.val - 1)).acc.toInt) + T
              else if q.acc = 4 then 0 else (d.fab.now.sliceOf n.val).acc.toInt) →
            (t.chip.fab.now.sliceOf n.val).acc.toInt = max (-(2 ^ 71)) (min (2 ^ 71 - 1) v) ∧
            (t.chip.fab.now.sliceOf n.val).ovf = decide (v < -(2 ^ 71) ∨ 2 ^ 71 - 1 < v) ∧
            (v < -(2 ^ 71) ∨ 2 ^ 71 - 1 < v →
              (t.chip.get AS_OVFSTK_OVF (pgAS (n.val / 256)) (n.val % 256 / 32)).testBit (n.val % 32) = true ∧
              (s.chip.mayReport (pgAS (n.val / 256)) 0 → t.chip.reported (pgAS (n.val / 256)) 0)) ∧
            (¬(v < -(2 ^ 71) ∨ 2 ^ 71 - 1 < v) → t.chip.regs = s.chip.regs ∧ t.chip.flt = s.chip.flt)) ∧
          ((d.fab.now.sliceOf n.val).st3 = none → (t.chip.fab.now.sliceOf n.val).z = (d.fab.now.sliceOf n.val).z ∧
            (t.chip.fab.now.sliceOf n.val).zovf = (d.fab.now.sliceOf n.val).zovf ∧
            (t.chip.fab.now.sliceOf n.val).bexp = (d.fab.now.sliceOf n.val).bexp) ∧
          (∀ q : SliceOp, (d.fab.now.sliceOf n.val).st3 = some q →
            (q.out = false → (t.chip.fab.now.sliceOf n.val).z = (d.fab.now.sliceOf n.val).z ∧
              (t.chip.fab.now.sliceOf n.val).bexp = if q.bclr then 35 else (d.fab.now.sliceOf n.val).bexp) ∧
            (∀ v : Int, q.out = true → v = (d.fab.now.sliceOf n.val).acc.toInt / 2 ^ q.shift →
              (t.chip.fab.now.sliceOf n.val).zovf = decide (v < -(2 ^ 35) ∨ 2 ^ 35 - 1 < v) ∧
              ((t.chip.fab.now.sliceOf n.val).zovf = false ∨ w.testBit 19 = true →
                (t.chip.fab.now.sliceOf n.val).z.toInt = max (-(2 ^ 35)) (min (2 ^ 35 - 1) v)) ∧
              (w.testBit 19 = false → ∀ i, q.shift ≤ 36 → i < 36 →
                (t.chip.fab.now.sliceOf n.val).z.getLsbD i = (d.fab.now.sliceOf n.val).acc.getLsbD (q.shift + i)) ∧
              (t.chip.fab.now.sliceOf n.val).bexp.toNat =
                min (if q.bclr then 35 else (d.fab.now.sliceOf n.val).bexp.toNat) (leading (t.chip.fab.now.sliceOf n.val).z)))))

/-- At an edge at which the next instruction is legal and of the class that the command names it issues, at any other
nothing happens. NOP goes on; LOOP begins its body; JUMP moves to its target and costs a second cycle that issues
nothing; SETAR loads an address register and its stride; SLICE hands its operation to the slices of its lanes, 1 + d
edges ahead, and advances the address registers it names; SETK writes a coefficient of its lanes; BSCALE takes the
common exponent and the dynamic shift and returns the exponents to 35; WAIT goes on when the lead input is 1 and
waits else; HALT ends in DONE. A stop that waits takes effect at the boundary. An illegal instruction ends in ERROR
with its code, and a program RAM of another width refuses the start. The registers other than the ones named, and
the other sequencers, stay. (09_block_ram_and_arithmetic_slices.md) -/
def Obligations.SequencersIssue : Prop :=
  ∀ (q : Fin 128) (same : Bool) (s : State) (d : Chip) (p i : Nat) (w : BitVec 64),
    d = s.chip.seqBegins q.val same → p = pgAS (q.val / 16) → i = q.val % 16 → w = (d.seqFetch q.val).1 →
    (∀ ik ∈ [(Instr.seqNop q same, 0), (.seqSlice q same, 1), (.seqLoop q same, 2), (.seqSetar q same, 4), (.seqWait q same, 5),
        (.seqBscale q same, 6), (.seqHalt q same, 7), (.seqSetk q same, 8)],
      (s.chip.seqLive q.val = false ∨ s.chip.seqActive q.val = false ∨ (s.chip.seqOf q.val).stall = true ∨
        (d.seqFetch q.val).2 ≠ 0 ∨ d.seqIllegal q.val ≠ 0 ∨ insClass w ≠ ik.2) → exec ik.1 s = .next s) ∧
    (s.chip.seqLive q.val = true → s.chip.seqActive q.val = true → (s.chip.seqOf q.val).stall = false → (d.seqFetch q.val).2 = 0 →
      d.seqIllegal q.val = 0 →
      (∀ ik ∈ [(Instr.seqNop q same, 0), (.seqSlice q same, 1), (.seqLoop q same, 2), (.seqSetar q same, 4), (.seqSetk q same, 8)],
        insClass w = ik.2 → (insLock w && !(s.chip.seqOf q.val).lock) = false → (s.chip.seqOf q.val).wantStop = true →
        Completes ik.1 s fun t => s.device t ∧
          t.chip.get AS_SEQSTS_STATE p i = 0 ∧ (t.chip.seqOf q.val).loop = none ∧ (t.chip.seqOf q.val).wantStop = false) ∧
      ((insLock w && !(s.chip.seqOf q.val).lock) = true ∨
          ((s.chip.seqOf q.val).wantStop = false ∧ (s.chip.seqOf q.val).wantHalt = false ∧ (s.chip.seqOf q.val).stepping = false) →
        (insClass w = 0 → Completes (.seqNop q same) s fun t => s.device t ∧ s.chip.wentOn t.chip q.val ∧
          t.chip.seqState q.val = s.chip.seqState q.val ∧ s.chip.fieldsKept t.chip [AS_SEQSTS_PC.key p i] ∧
          (∀ r, r ≠ q.val → t.chip.seqOf r = s.chip.seqOf r) ∧
          t.chip = { d with regs := t.chip.regs, free := t.chip.free, fab := { d.fab with
            seq := t.chip.fab.seq, now := { d.fab.now with core := t.chip.fab.now.core, oreg := t.chip.fab.now.oreg } } }) ∧
        (insClass w = 1 → Completes (.seqSlice q same) s fun t => s.device t ∧ s.chip.wentOn t.chip q.val ∧
          (t.chip.seqOf q.val).issued = (s.chip.seqOf q.val).issued ++
            (((List.range 16).filter fun j => w.getLsbD (32 + j)).map fun j =>
              (if (s.chip.siteBits (16 * q.val + j) 3176 64).testBit 10 || (s.chip.siteBits (16 * q.val + j) 3176 64).testBit 11 then 2 else 1, j,
               { opc := bitsOf w.toNat 55 48, kaddr := bitsOf w.toNat 18 14, bclr := w.getLsbD 13, dshen := w.getLsbD 12 })) ∧
          ((s.chip.seqOf q.val).ar.length = 4 → ∀ j < 4, (t.chip.seqOf q.val).ar.getD j 0 =
            if (w.getLsbD 24 = true ∧ bitsOf w.toNat 28 27 = j) ∨ (w.getLsbD 19 = true ∧ bitsOf w.toNat 23 22 = j) then
              ((s.chip.seqOf q.val).ar.getD j 0 + (s.chip.seqOf q.val).stride.getD j 0) % 2 ^ 15
            else (s.chip.seqOf q.val).ar.getD j 0) ∧
          (t.chip.seqOf q.val).stride = (s.chip.seqOf q.val).stride ∧ (∀ r, r ≠ q.val → t.chip.seqOf r = s.chip.seqOf r) ∧
          t.chip = { d with regs := t.chip.regs, flt := t.chip.flt, free := t.chip.free, fab := { d.fab with
            seq := t.chip.fab.seq, wrote := t.chip.fab.wrote, now := { d.fab.now with
              ram := t.chip.fab.now.ram, core := t.chip.fab.now.core, oreg := t.chip.fab.now.oreg } } }) ∧
        (insClass w = 2 → Completes (.seqLoop q same) s fun t => s.device t ∧ t.chip.seqPc q.val = s.chip.seqPc q.val + 1 ∧
          (t.chip.seqOf q.val).loop = some { start := s.chip.seqPc q.val + 1, len := bitsOf w.toNat 4 0 + 1, left := bitsOf w.toNat 41 32, idx := 0 } ∧
          t.chip.seqState q.val = s.chip.seqState q.val ∧ s.chip.fieldsKept t.chip [AS_SEQSTS_PC.key p i]) ∧
        (insClass w = 4 → Completes (.seqSetar q same) s fun t => s.device t ∧ s.chip.wentOn t.chip q.val ∧
          (t.chip.seqOf q.val).ar = (s.chip.seqOf q.val).ar.set (bitsOf w.toNat 57 56) (bitsOf w.toNat 14 0) ∧
          (t.chip.seqOf q.val).stride = (s.chip.seqOf q.val).stride.set (bitsOf w.toNat 57 56) (bitsOf w.toNat 29 15) ∧
          s.chip.fieldsKept t.chip [AS_SEQSTS_PC.key p i]) ∧
        (insClass w = 5 → ∀ go, d.siteIn d.fab.pre (16 * q.val) 275 = some go → Completes (.seqWait q same) s fun t => s.device t ∧
          (go = true → s.chip.wentOn t.chip q.val ∧ t.chip.seqState q.val = 1) ∧
          (go = false → t.chip.seqPc q.val = s.chip.seqPc q.val ∧ t.chip.seqState q.val = 2) ∧
          s.chip.fieldsKept t.chip [AS_SEQSTS_PC.key p i, AS_SEQSTS_STATE.key p i]) ∧
        (insClass w = 6 → Completes (.seqBscale q same) s fun t => s.device t ∧ s.chip.wentOn t.chip q.val ∧
          (∀ m, m ∈ laneSites q.val w → (∀ k ∈ laneSites q.val w, (d.fab.pre.sliceOf m).bexp.toNat ≤ (d.fab.pre.sliceOf k).bexp.toNat) →
            t.chip.get AS_SEQDSH_CEXP p i = (d.fab.pre.sliceOf m).bexp.toNat ∧
            t.chip.get AS_SEQDSH_DSH p i = bitsOf w.toNat 5 0 - min (d.fab.pre.sliceOf m).bexp.toNat (bitsOf w.toNat 5 0)) ∧
          (∀ k, t.chip.fab.now.sliceOf k = if k ∈ laneSites q.val w then { d.fab.now.sliceOf k with bexp := 35 } else d.fab.now.sliceOf k) ∧
          s.chip.fieldsKept t.chip [AS_SEQSTS_PC.key p i, AS_SEQDSH_CEXP.key p i, AS_SEQDSH_DSH.key p i]) ∧
        (insClass w = 7 → Completes (.seqHalt q same) s fun t => s.device t ∧ t.chip.seqState q.val = 3 ∧
          t.chip.seqPc q.val = s.chip.seqPc q.val + 1 ∧ (t.chip.seqOf q.val).loop = none ∧
          s.chip.fieldsKept t.chip [AS_SEQSTS_PC.key p i, AS_SEQSTS_STATE.key p i]) ∧
        (insClass w = 8 → Completes (.seqSetk q same) s fun t => s.device t ∧ s.chip.wentOn t.chip q.val ∧
          (∀ n a, a < 32 → Store.get 0 t.chip.fab.now.coef (32 * n + a) =
            if n ∈ laneSites q.val w ∧ a = bitsOf w.toNat 52 48 ∧ s.chip.regionLive (siteRegion n) = true then BitVec.ofNat 27 w.toNat
            else Store.get 0 d.fab.now.coef (32 * n + a)) ∧
          s.chip.fieldsKept t.chip [AS_SEQSTS_PC.key p i])) ∧
      (insClass w = 3 → Completes (.seqJump q same) s fun t => s.device t ∧ t.chip.seqPc q.val = bitsOf w.toNat 8 0 ∧
        (t.chip.seqOf q.val).stall = true ∧ t.chip.seqState q.val = s.chip.seqState q.val ∧
        s.chip.fieldsKept t.chip [AS_SEQSTS_PC.key p i])) ∧
    (s.chip.seqLive q.val = true → (s.chip.seqOf q.val).stall = true → (s.chip.seqOf q.val).wantStop = false →
      (s.chip.seqOf q.val).wantHalt = false → (s.chip.seqOf q.val).stepping = false → Completes (.seqJump q same) s fun t => s.device t ∧
        (t.chip.seqOf q.val).stall = false ∧ s.chip.sameRegs t.chip) ∧
    (s.chip.seqLive q.val = false → exec (.seqJump q same) s = .next s) ∧
    ((s.chip.seqLive q.val && s.chip.seqActive q.val && !(s.chip.seqOf q.val).stall) = false ∨ d.seqIllegal q.val = 0 →
      exec (.seqIllegal q same) s = .next s) ∧
    (s.chip.seqLive q.val = true → s.chip.seqActive q.val = true → (s.chip.seqOf q.val).stall = false → d.seqIllegal q.val ≠ 0 →
      Completes (.seqIllegal q same) s fun t => s.device t ∧ t.chip.seqState q.val = 5 ∧ t.chip.get AS_SEQSTS_ERR p i = d.seqIllegal q.val ∧
        t.chip.get PG_CTL_RUN p = 0 ∧ t.chip.get PG_STS_RUNNING p = 0 ∧
        (∀ r, r / 16 = q.val / 16 → t.chip.seqActive r = false) ∧ (∀ r, r / 16 ≠ q.val / 16 → t.chip.seqOf r = s.chip.seqOf r) ∧
        (s.chip.mayReport p 1 → t.chip.reported p 1)) ∧
    ((s.chip.seqLive q.val && (s.chip.seqOf q.val).armed && s.chip.run p && s.chip.running p && s.chip.bit AS_SEQCTL_EN p i) = false →
      exec (.seqEnable q) s = .next s) ∧
    (s.chip.seqLive q.val = true → (s.chip.seqOf q.val).armed = true → s.chip.run p = true → s.chip.running p = true →
      s.chip.get AS_SEQCTL_EN p i = 1 → Completes (.seqEnable q) s fun t => s.device t ∧
        (s.chip.siteBits (16 * q.val + 15) 3179 3 = 6 → t.chip.seqState q.val = 1 ∧ t.chip.get AS_SEQSTS_ERR p i = 0 ∧
          t.chip.seqPc q.val % 512 = s.chip.get AS_SEQCTL_START p i % 512 ∧ t.chip.get AS_SEQDSH_CEXP p i = 0 ∧ t.chip.get AS_SEQDSH_DSH p i = 0 ∧
          t.chip.seqOf q.val = { issued := (s.chip.seqOf q.val).issued, pastEnd := (t.chip.seqOf q.val).pastEnd } ∧
          s.chip.fieldsKept t.chip [AS_SEQSTS_STATE.key p i, AS_SEQSTS_ERR.key p i, AS_SEQSTS_PC.key p i, AS_SEQDSH_CEXP.key p i,
            AS_SEQDSH_DSH.key p i] ∧
          t.chip = { s.chip with regs := t.chip.regs, fab := { s.chip.fab with seq := t.chip.fab.seq } }) ∧
        (s.chip.siteBits (16 * q.val + 15) 3179 3 ≠ 6 → t.chip.seqState q.val = 5 ∧ t.chip.get AS_SEQSTS_ERR p i = 6))

/-- A command that takes a frame acts when the frame at the front of the buffer is of its kind, and does nothing else. A
bad CRC, a number out of order, a bad format, a frame other than AUTH behind one that waits, an address out of
range: the stream fails with the code of the first check that fails. A frame for another device is counted and does
nothing. With authentication required, a REGW or CMD frame waits. TILE, SITE and IOBANK write their configuration
frame with check bits and no other; BRDATA writes its 4,096 array bits; each fails outside its scope or in a sector
that is not on. DATA and REGW ask for their writes and wait. NOP does nothing. END releases CFG_DONE and makes START
due; PARTIAL raises the fences and holds the regions it names once the groups have stopped; CLEAR holds its sectors;
WAITON and DELAY wait; LOADJLI starts the loader when it is idle. AUTH accepts what it verifies.
(10_blocking_configuration.md) -/
def Obligations.FramesAreCheckedAndActedOn : Prop :=
  ∀ (gm : Nat) (s : State),
    (∀ im ∈ frameCommands gm,
      (s.chip.stream.wait = .none → (∀ f, s.chip.nextFrame = some f → im.2 f = false) → exec im.1 s = .next s) ∧
      (∀ f, s.chip.nextFrame = some f → im.2 f = true →
        ((crc32 (f.take 520)).toNat ≠ leAt f 520 4 → Completes im.1 s fun t => s.device t ∧
          s.chip.streamFailed t.chip 0x01 0 (frameSeq f) ∧ s.chip.fieldsKept t.chip streamFields) ∧
        ((crc32 (f.take 520)).toNat = leAt f 520 4 → frameSeq f ≠ s.chip.get CF_SEQ_NEXT pgCF → Completes im.1 s fun t => s.device t ∧
          s.chip.streamFailed t.chip 0x02 0 (frameSeq f) ∧ s.chip.fieldsKept t.chip streamFields) ∧
        (s.chip.inOrder f → s.chip.frameMine f = false → Completes im.1 s fun t => s.device t ∧ s.chip.frameTaken t.chip ∧
          t.chip.stream.msg = s.chip.stream.msg ++ f.take 520 ∧ s.chip.fieldsKept t.chip frameFields ∧
          t.chip = { s.chip with
            regs := t.chip.regs, net := { s.chip.net with want := t.chip.net.want }
            stream := { s.chip.stream with
              buf := s.chip.stream.buf.drop 524, msg := t.chip.stream.msg, waitLow := t.chip.stream.waitLow, srcBusy := t.chip.stream.srcBusy } }) ∧
        (s.chip.inOrder f → s.chip.frameMine f = true → s.chip.frameFormat f = false → Completes im.1 s fun t => s.device t ∧
          s.chip.frameTaken t.chip ∧ s.chip.streamFailed t.chip 0x03 0 (frameSeq f) ∧
          s.chip.fieldsKept t.chip (frameFields ++ streamFields)) ∧
        (s.chip.inOrder f → s.chip.frameMine f = true → s.chip.frameFormat f = true → s.chip.stream.pend ≠ none → frameType f ≠ 8 →
          Completes im.1 s fun t => s.device t ∧ s.chip.frameTaken t.chip ∧ s.chip.streamFailed t.chip 0x09 0 (frameSeq f) ∧
          s.chip.fieldsKept t.chip (frameFields ++ streamFields)) ∧
        (s.chip.inOrder f → s.chip.frameMine f = true → s.chip.frameFormat f = true → s.chip.stream.pend = none →
          s.chip.get CF_AUTHCTL_REQ pgCF = 1 → frameType f = 6 ∨ frameType f = 7 → Completes im.1 s fun t => s.device t ∧
          s.chip.frameTaken t.chip ∧ t.chip.stream.pend = some f ∧ t.chip.get CF_STS_PEND pgCF = 1 ∧
          s.chip.fieldsKept t.chip (CF_STS_PEND.key pgCF 0 :: frameFields)) ∧
        (s.chip.inOrder f → s.chip.frameMine f = true → s.chip.frameFormat f = true → s.chip.stream.pend = none →
          (s.chip.get CF_AUTHCTL_REQ pgCF = 1 → frameType f ≠ 6 ∧ frameType f ≠ 7) → frameType f ≠ 8 → s.chip.frameRange f = false →
          Completes im.1 s fun t => s.device t ∧ s.chip.frameTaken t.chip ∧ s.chip.streamFailed t.chip 0x04 0 (frameSeq f)))) ∧
    (∀ (f : List (BitVec 8)) (a : Nat), s.chip.nextFrame = some f → s.chip.framePasses f → a = frameAddr f →
      (∀ in_ ∈ [(Instr.tile, 1), (.site, 2), (.brdata, 3), (.iobank, 4)], frameType f = in_.2 →
        (s.chip.frameScope f = false → Completes in_.1 s fun t => s.device t ∧ s.chip.frameTaken t.chip ∧
          s.chip.streamFailed t.chip 0x05 0 (frameSeq f) ∧ t.chip.fab = s.chip.fab) ∧
        (s.chip.frameScope f = true → s.chip.domOn (64 + frameSector f) = false → Completes in_.1 s fun t => s.device t ∧
          s.chip.frameTaken t.chip ∧ s.chip.streamFailed t.chip 0x06 errPwroff (frameSeq f) ∧ t.chip.fab = s.chip.fab)) ∧
      (∀ iF ∈ [(Instr.tile, 1, 8448 * (a % 8) + 4 * (64 * bitsOf a 7 3 + bitsOf a 13 8) + bitsOf a 15 14),
          (.site, 2, 8448 * (a % 8) + 8192 + 32 * bitsOf a 10 8 + bitsOf a 7 3), (.iobank, 4, 67584 + a % 32)],
        frameType f = iF.2.1 → s.chip.frameScope f = true → s.chip.domOn (64 + frameSector f) = true →
        Completes iF.1 s fun t => s.device t ∧ s.chip.frameTaken t.chip ∧ s.chip.fieldsKept t.chip frameFields ∧
          (∀ k, Store.get 0 t.chip.fab.cfg k = if k / 64 = iF.2.2 then secded (BitVec.ofNat 64 (leAt f (8 + 8 * (k % 64)) 8))
            else Store.get 0 s.chip.fab.cfg k) ∧
          t.chip.stream.sawFabric = true ∧ frameSector f ∈ t.chip.stream.sectors ∧
          (frameType f = 4 → ∀ j < 24, 24 * (a % 32) + j ∈ t.chip.stream.cells) ∧
          t.chip = { s.chip with
            regs := t.chip.regs, stream := t.chip.stream, net := { s.chip.net with want := t.chip.net.want }
            fab := { s.chip.fab with cfg := t.chip.fab.cfg } }) ∧
      (frameType f = 3 → s.chip.frameScope f = true → s.chip.domOn (64 + frameSector f) = true →
        Completes .brdata s fun t => s.device t ∧ s.chip.frameTaken t.chip ∧ s.chip.fieldsKept t.chip frameFields ∧
          (∀ n w j, w < 512 → j < 72 → (t.chip.fab.now.ramWord n w).getLsbD j =
            if n = 256 * (a % 8) + 32 * bitsOf a 10 8 + bitsOf a 7 3 ∧ (72 * w + j) / 4096 = bitsOf a 14 11 then
              (leAt f 8 512).testBit ((72 * w + j) % 4096)
            else (s.chip.fab.now.ramWord n w).getLsbD j) ∧
          t.chip = { s.chip with
            regs := t.chip.regs, stream := t.chip.stream, net := { s.chip.net with want := t.chip.net.want }
            fab := { s.chip.fab with now := { s.chip.fab.now with ram := t.chip.fab.now.ram } } }) ∧
      (frameType f = 5 → Completes .data s fun t => s.device t ∧ s.chip.frameTaken t.chip ∧ t.chip.stream.wait = .data ∧
        (∃ r ∈ t.chip.net.want, r.asker = .cfgWrite ∧ r.op = .write ∧ r.len = 8 ∧ r.kidx = s.chip.get CF_STGH_KIDX pgCF ∧
          r.addr = s.chip.get CF_STGH_ADDR pgCF * 2 ^ 32 + s.chip.get CF_STGL_ADDR pgCF * 512 + 512 * a ∧
          r.lines.map Line.data = (List.range 8).map fun i => BitVec.ofNat 512 (leAt f (8 + 64 * i) 64)) ∧
        s.chip.fieldsKept t.chip frameFields ∧ t.chip.fab = s.chip.fab) ∧
      (frameType f = 6 → Completes .regw s fun t => s.device t ∧ s.chip.frameTaken t.chip ∧
        t.chip.stream.wait = .regw ((List.range (a + 1)).map fun n => (leAt f (8 + 8 * n) 4, leAt f (12 + 8 * n) 4)) ∧
        (∃ r ∈ t.chip.net.want, r.asker = .cfgWrite ∧ r.op = .regwr ∧ r.addr = regBase + leAt f 8 4 ∧ r.wdata.toNat = leAt f 12 4) ∧
        s.chip.fieldsKept t.chip frameFields ∧ t.chip.fab = s.chip.fab) ∧
      (frameType f = 9 → Completes .nop s fun t => s.device t ∧ s.chip.frameTaken t.chip ∧ s.chip.fieldsKept t.chip frameFields ∧
        t.chip = { s.chip with regs := t.chip.regs, stream := t.chip.stream, net := { s.chip.net with want := t.chip.net.want } }) ∧
      (frameType f = 7 → a = 1 → Completes .cmdEnd s fun t => s.device t ∧ s.chip.frameTaken t.chip ∧
        t.chip.get CF_STS_DONEREL pgCF = b2n (!s.chip.flt.failed) ∧
        (s.chip.flt.failed = true → t.chip.stream.toStart = []) ∧
        (s.chip.flt.failed = false → ∀ n < 8, n ∈ t.chip.stream.toStart ↔
          if s.chip.get CF_STS_PARTIAL pgCF = 1 then bitsOf s.chip.stream.regions (16 * n + 15) (16 * n) ≠ 0
          else n ∈ s.chip.stream.sectors ∧ s.chip.domOn (64 + n) = true ∧ s.chip.get FB_STATE_STARTED (pgFB n) ≠ 1) ∧
        t.chip.cfState = (if t.chip.stream.toStart = [] ∧ s.chip.get CF_CTL_DONESYNC pgCF ≠ 1 then 3 else 2) ∧
        s.chip.fieldsKept t.chip (CF_STS_DONEREL.key pgCF 0 :: frameFields) ∧ t.chip.fab = s.chip.fab) ∧
      (frameType f = 7 → a = 2 → ∀ ss, ss = (List.range 8).filter (fun n => bitsOf (frameBits f 127 0) (16 * n + 15) (16 * n) != 0) →
        ((∃ n ∈ ss, s.chip.domOn (64 + n) = false) → Completes .cmdPartial s fun t => s.device t ∧
          s.chip.streamFailed t.chip 0x06 errPwroff (frameSeq f) ∧ t.chip.fab = s.chip.fab) ∧
        ((∀ n ∈ ss, s.chip.domOn (64 + n) = true) → (∃ n ∈ ss, s.chip.get FB_STATE_STARTED (pgFB n) ≠ 1) →
          Completes .cmdPartial s fun t => s.device t ∧ s.chip.streamFailed t.chip 0x05 0 (frameSeq f) ∧ t.chip.fab = s.chip.fab) ∧
        ((∀ n ∈ ss, s.chip.domOn (64 + n) = true ∧ s.chip.get FB_STATE_STARTED (pgFB n) = 1) →
          (∀ g < 64, (frameBits f 191 128).testBit g = true → s.chip.run (pgEG g) = false) →
          Completes .cmdPartial s fun t => s.device t ∧ s.chip.frameTaken t.chip ∧ t.chip.stream.regions = frameBits f 127 0 ∧
            t.chip.stream.groups = frameBits f 191 128 ∧
            ((∃ g < 64, (frameBits f 191 128).testBit g = true ∧ s.chip.running (pgEG g) = true) →
              t.chip.stream.wait = .partialStop ∧ t.chip.fab = s.chip.fab) ∧
            ((∀ g < 64, (frameBits f 191 128).testBit g = true → s.chip.running (pgEG g) = false) →
              t.chip.stream.wait = .none ∧ t.chip.get CF_STS_PARTIAL pgCF = 1 ∧
              (∀ g < 64, (frameBits f 191 128).testBit g = true → t.chip.groupFenced g = true) ∧
              (∀ r < 128, (frameBits f 127 0).testBit r = true → t.chip.regionFenced r = true ∧ r ∈ t.chip.fab.regHeld) ∧
              (∀ l m, l < 16384 → m < 16 → t.chip.fab.now.qOf l m =
                (!(frameBits f 127 0).testBit (tileRegion l) && s.chip.fab.now.qOf l m))))) ∧
      (frameType f = 7 → a = 3 → s.chip.get CF_STS_PARTIAL pgCF ≠ 1 →
        (s.chip.get CF_JLSTS_PHASE pgCF ≠ 0 → Completes (.cmdLoadjli gm) s fun t => s.device t ∧ s.chip.frameTaken t.chip ∧
          t.chip.stream.wait = .loadjli (frameBits f 43 0) (frameBits f 95 64) (frameBits f 103 96) false ∧ t.chip.loader = s.chip.loader) ∧
        (s.chip.get CF_JLSTS_PHASE pgCF = 0 → Completes (.cmdLoadjli gm) s fun t => s.device t ∧ s.chip.frameTaken t.chip ∧
          t.chip.stream.wait = .loadjli (frameBits f 43 0) (frameBits f 95 64) (frameBits f 103 96) true ∧
          t.chip.get CF_JLSTS_PHASE pgCF = 1 ∧ t.chip.loader = {
            addr := frameBits f 43 0, len := frameBits f 95 64 + 1
            kidx := frameBits f 103 96, chkOnly := false, byStream := true })) ∧
      (frameType f = 7 → a = 4 →
        ((∃ n < 8, (frameBits f 7 0).testBit n = true ∧ s.chip.domOn (64 + n) = false) → Completes .cmdClear s fun t => s.device t ∧
          s.chip.streamFailed t.chip 0x06 errPwroff (frameSeq f) ∧ t.chip.fab = s.chip.fab) ∧
        ((∀ n < 8, (frameBits f 7 0).testBit n = true → s.chip.domOn (64 + n) = true) → Completes .cmdClear s fun t => s.device t ∧
          s.chip.frameTaken t.chip ∧ t.chip.stream.sawClear = true ∧
          (∀ n < 8, t.chip.get FB_STATE_STARTED (pgFB n) =
            if (frameBits f 7 0).testBit n then 0 else s.chip.get FB_STATE_STARTED (pgFB n)) ∧
          (∀ l m, l < 16384 → m < 16 → t.chip.fab.now.qOf l m = (!(frameBits f 7 0).testBit (l / 2048) && s.chip.fab.now.qOf l m)) ∧
          t.chip.fab.cfg = s.chip.fab.cfg ∧ t.chip.fab.now.ram = s.chip.fab.now.ram)) ∧
      (frameType f = 7 → a = 5 → Completes .cmdWaiton s fun t => s.device t ∧ s.chip.frameTaken t.chip ∧
        ((∀ d < 80, (frameBits f 79 0).testBit d = true → s.chip.domOn d = true) → t.chip.stream.wait = .none) ∧
        ((∃ d < 80, (frameBits f 79 0).testBit d = true ∧ s.chip.domOn d = false) → t.chip.stream.wait = .waiton (frameBits f 79 0)) ∧
        s.chip.fieldsKept t.chip frameFields ∧ t.chip.fab = s.chip.fab) ∧
      (frameType f = 7 → a = 6 → Completes .cmdDelay s fun t => s.device t ∧ s.chip.frameTaken t.chip ∧
        t.chip.stream.wait = .delay (frameBits f 23 0 + 1) ∧ s.chip.fieldsKept t.chip frameFields ∧ t.chip.fab = s.chip.fab)) ∧
    (∀ (f : List (BitVec 8)), s.chip.nextFrame = some f → s.chip.inOrder f → s.chip.frameMine f = true → s.chip.frameFormat f = true →
      frameType f = 8 →
      (s.chip.authOk f s.chip.stream.msg = false → Completes (.auth gm) s fun t => s.device t ∧ s.chip.frameTaken t.chip ∧
        t.chip.get CF_STS_AUTHOK pgCF = 0 ∧ s.chip.streamFailed t.chip 0x08 0 (frameSeq f)) ∧
      (s.chip.authOk f s.chip.stream.msg = true → Completes (.auth gm) s fun t => s.device t ∧ s.chip.frameTaken t.chip ∧
        t.chip.get CF_STS_AUTHOK pgCF = 1 ∧ t.chip.get CF_STS_PEND pgCF = 0 ∧ t.chip.stream.pend = none ∧
        t.chip.stream.lastCode = (f.drop 8).take 32 ∧ t.chip.stream.msg = [] ∧
        (s.chip.stream.pend = none → t.chip.fab = s.chip.fab ∧
          s.chip.fieldsKept t.chip ([CF_STS_AUTHOK.key pgCF 0, CF_STS_PEND.key pgCF 0] ++ frameFields))))

/-- A word taken at the configuration port joins the buffer of an open stream, or fails it when the buffer is full;
outside one only a sync marker is kept; a frozen device loses the word. A sync marker at the front opens a new
stream with nothing of the last one left. A wait that is over lets the stream go on; a WAITON or PARTIAL that lasts
too long fails it. An error that another device signals, an abort, and a source range that fails its check fail the
stream with their code; GO with a good range begins to read it. START sets its sector free: the cells take their
words and the flip-flops their INIT value. Elsewhere each changes nothing. (10_blocking_configuration.md) -/
def Obligations.StreamEventsAndStart : Prop :=
  ∀ (x : BitVec 16) (n : Fin 8) (high : Bool) (w : Who) (v : BitVec 32) (s : State),
    (s.chip.get CF_CTL_SRC pgCF ≠ 1 ∨ (s.chip.rst.phase ≠ .mainup ∧ s.chip.rst.phase ≠ .ready) → exec (.cfgPortWord x) s = .next s) ∧
    (s.chip.get CF_CTL_SRC pgCF = 1 → s.chip.rst.phase = .mainup ∨ s.chip.rst.phase = .ready → ∀ op, op = (s.chip.cfState == 1 ||
        s.chip.cfState == 2 || s.chip.cfState == 5) →
      (s.chip.stepsRun = false → Completes (.cfgPortWord x) s fun t => s.device t ∧
        t.chip = { s.chip with stream := { s.chip.stream with lostWords := op || s.chip.stream.lostWords } }) ∧
      (s.chip.stepsRun = true → op = true → 2048 ≤ s.chip.stream.buf.length → Completes (.cfgPortWord x) s fun t => s.device t ∧
        s.chip.streamFailed t.chip 0x0A 0 ((s.chip.get CF_SEQ_NEXT pgCF + 65535) % 65536) ∧ s.chip.fieldsKept t.chip streamFields) ∧
      (s.chip.stepsRun = true → op = true → s.chip.stream.buf.length < 2048 → Completes (.cfgPortWord x) s fun t => s.device t ∧
        t.chip = { s.chip with stream := { s.chip.stream with
          buf := s.chip.stream.buf ++ [BitVec.ofNat 8 x.toNat, BitVec.ofNat 8 (x.toNat / 256)]
          waitLow := decide (1022 ≤ s.chip.stream.buf.length) || (decide (510 ≤ s.chip.stream.buf.length) && s.chip.stream.waitLow) } }) ∧
      (s.chip.stepsRun = true → op = false → Completes (.cfgPortWord x) s fun t => s.device t ∧
        (s.chip.stream.buf.take 4 ≠ syncMarker → t.chip.stream.buf = if x = 0xA5C3 then [0xC3, 0xA5]
          else if s.chip.stream.buf = [0xC3, 0xA5] ∧ x = 0x3C5A then syncMarker else []) ∧
        (s.chip.stream.buf.take 4 = syncMarker → t.chip.stream.buf =
          s.chip.stream.buf ++ [BitVec.ofNat 8 x.toNat, BitVec.ofNat 8 (x.toNat / 256)]) ∧
        t.chip = { s.chip with stream := { s.chip.stream with buf := t.chip.stream.buf, waitLow := t.chip.stream.waitLow } })) ∧
    (∀ ok, ok = (s.chip.cfUp && (s.chip.cfState == 0 || s.chip.cfState == 3 || s.chip.cfState == 4 ||
        (s.chip.cfState == 1 && s.chip.stream.wait == .none)) && !s.chip.flt.failed && s.chip.stream.buf.take 4 == syncMarker) →
      (ok = false → exec .syncMarker s = .next s) ∧
      (ok = true → Completes .syncMarker s fun t => s.device t ∧ t.chip.cfState = 1 ∧ t.chip.get CF_SEQ_NEXT pgCF = 0 ∧
        t.chip.get CF_FRCNT_COUNT pgCF = 0 ∧ t.chip.get CF_STS_AUTHOK pgCF = 0 ∧ t.chip.get CF_STS_PEND pgCF = 0 ∧
        t.chip.get CF_STS_PARTIAL pgCF = 0 ∧ t.chip.get CF_STS_DONEREL pgCF = 0 ∧
        t.chip.stream = { buf := s.chip.stream.buf.drop 4, waitLow := t.chip.stream.waitLow, lostWords := s.chip.stream.lostWords,
                          srcLeft := s.chip.stream.srcLeft, srcAddr := s.chip.stream.srcAddr, srcKidx := s.chip.stream.srcKidx,
                          srcBusy := s.chip.stream.srcBusy, doneIn := s.chip.stream.doneIn } ∧
        s.chip.fieldsKept t.chip ([CF_STS_AUTHOK.key pgCF 0, CF_STS_PEND.key pgCF 0, CF_STS_PARTIAL.key pgCF 0,
          CF_STS_DONEREL.key pgCF 0] ++ frameFields) ∧
        t.chip = { s.chip with regs := t.chip.regs, stream := t.chip.stream })) ∧
    (∀ ok, ok = (s.chip.cfUp && s.chip.get CF_CTL_SRC pgCF == 1 && (s.chip.cfState == 1 || s.chip.cfState == 2)) →
      (ok = false → exec .remoteError s = .next s) ∧
      (ok = true → Completes .remoteError s fun t => s.device t ∧ t.chip.stream.errIn = true ∧
        s.chip.streamFailed t.chip 0x0D 0 ((s.chip.get CF_SEQ_NEXT pgCF + 65535) % 65536) false ∧
        s.chip.fieldsKept t.chip streamFields)) ∧
    ((∀ k, s.chip.stream.wait ≠ .delay k) ∨ s.chip.cfUp = false → exec .delayExpire s = .next s) ∧
    (∀ k, s.chip.stream.wait = .delay k → s.chip.cfUp = true → Completes .delayExpire s fun t => s.device t ∧
      t.chip.stream.wait = .none ∧ s.chip.fieldsKept t.chip [CF_STS_STATE.key pgCF 0]) ∧
    ((∀ m, s.chip.stream.wait ≠ .waiton m) ∨ s.chip.cfUp = false → exec .waitonTimeout s = .next s) ∧
    (∀ m, s.chip.stream.wait = .waiton m → s.chip.cfUp = true →
      ((∀ d < 80, m.testBit d = true → s.chip.domOn d = true) → exec .waitonTimeout s = .next s ∧
        Completes .cmdWaiton s fun t => s.device t ∧ t.chip.stream.wait = .none ∧ s.chip.fieldsKept t.chip [CF_STS_STATE.key pgCF 0]) ∧
      ((∃ d < 80, m.testBit d = true ∧ s.chip.domOn d = false) → Completes .waitonTimeout s fun t => s.device t ∧
        s.chip.streamFailed t.chip 0x0B 0 ((s.chip.get CF_SEQ_NEXT pgCF + 65535) % 65536) ∧ s.chip.fieldsKept t.chip streamFields)) ∧
    (s.chip.stream.wait ≠ .partialStop ∨ s.chip.cfUp = false → exec .partialTimeout s = .next s) ∧
    (s.chip.stream.wait = .partialStop → s.chip.cfUp = true →
      ((∀ g < 64, s.chip.stream.groups.testBit g = true → s.chip.running (pgEG g) = false) → exec .partialTimeout s = .next s ∧
        Completes .cmdPartial s fun t => s.device t ∧ t.chip.stream.wait = .none ∧ t.chip.get CF_STS_PARTIAL pgCF = 1 ∧
          ∀ r < 128, s.chip.stream.regions.testBit r = true → t.chip.regionFenced r = true ∧ r ∈ t.chip.fab.regHeld) ∧
      ((∃ g < 64, s.chip.stream.groups.testBit g = true ∧ s.chip.running (pgEG g) = true) → Completes .partialTimeout s fun t =>
        s.device t ∧ s.chip.streamFailed t.chip 0x0B 0 ((s.chip.get CF_SEQ_NEXT pgCF + 65535) % 65536) ∧
        s.chip.fieldsKept t.chip streamFields)) ∧
    (∀ hit, hit = (s.chip.cfState == 2 && s.chip.stepsRun && (high || !s.chip.bit CF_CTL_DONESYNC pgCF)) →
      (hit = false → Completes (.startSector n high) s fun t => s.device t ∧
        t.chip = { s.chip with stream := { s.chip.stream with doneIn := high } }) ∧
      (hit = true → n.val ∈ s.chip.stream.toStart → s.chip.domOn (64 + n.val) = true →
        (s.chip.get FB_GCLKEN_EN (pgFB n.val)).testBit 0 = true → Completes (.startSector n high) s fun t => s.device t ∧
          t.chip.stream.toStart = s.chip.stream.toStart.filter (· != n.val) ∧
          t.chip.cfState = (if t.chip.stream.toStart = [] then 3 else 2) ∧
          (s.chip.get CF_STS_PARTIAL pgCF ≠ 1 → t.chip.get FB_STATE_STARTED (pgFB n.val) = 1 ∧
            (∀ u < 480, cellSector u = n.val → t.chip.ioWord u = s.chip.cfgCell u) ∧
            (∀ l m, m < 16 → l ∈ s.chip.usedTiles → l / 2048 = n.val →
              ¬(1 ≤ bitsOf (s.chip.mcWord l m) 16 14 ∧ bitsOf (s.chip.mcWord l m) 16 14 ≤ 5) →
              t.chip.fab.now.qOf l m = (s.chip.mcWord l m).testBit 18) ∧
            s.chip.fieldsKept t.chip [FB_STATE_STARTED.key (pgFB n.val) 0, CF_STS_STATE.key pgCF 0]) ∧
          (s.chip.get CF_STS_PARTIAL pgCF = 1 → ∀ r < 16, s.chip.stream.regions.testBit (16 * n.val + r) = true →
            t.chip.regionFenced (16 * n.val + r) = false ∧ 16 * n.val + r ∉ t.chip.fab.regHeld)) ∧
      (hit = true → n.val ∉ s.chip.stream.toStart → s.chip.stream.toStart ≠ [] → Completes (.startSector n high) s fun t => s.device t ∧
        t.chip = { s.chip with stream := { s.chip.stream with doneIn := high } })) ∧
    (s.reaches w pgCF CF_CTL_ABORT.off → (∀ a b c, s.chip.stream.wait ≠ .loadjli a b c true) →
      Completes (.streamAbort w v) s fun t => s.performed t ∧
        (s.chip.cfState = 1 ∨ s.chip.cfState = 2 ∨ s.chip.cfState = 5 →
          s.chip.streamFailed t.chip 0x0C 0 ((s.chip.get CF_SEQ_NEXT pgCF + 65535) % 65536)) ∧
        (s.chip.cfState ≠ 1 → s.chip.cfState ≠ 2 → s.chip.cfState ≠ 5 → s.chip.onlyRegs t.chip ∧
          s.chip.fieldsKept t.chip [CF_CTL_DONESYNC.key pgCF 0, CF_CTL_SRC.key pgCF 0, CF_CTL_ABORT.key pgCF 0, PG_STS_WIGN.key pgCF 0])) ∧
    (∀ addr len k e, s.reaches w pgCF CF_SRCCTL_GO.off → addr = s.chip.get CF_SRCADDRH_ADDR pgCF * 2 ^ 32 + s.chip.get CF_SRCADDRL_ADDR pgCF * 8 →
      len = s.chip.get CF_SRCLEN_LEN pgCF + 1 → k = bitsOf v.toNat 15 8 → e = s.chip.bufferCheck2 60 0 k addr len false →
      ((s.chip.get CF_CTL_SRC pgCF ≠ 0 ∨ s.chip.accepts pgCF = false ∨ ((s.chip.cfState = 1 ∨ s.chip.cfState = 2) ∧
          (s.chip.stream.srcBusy = true ∨ 0 < s.chip.stream.srcLeft))) → Completes (.streamSourceGo w v) s fun t => s.performed t ∧
        t.chip.get PG_STS_WIGN pgCF = 1 ∧ s.chip.onlyRegs t.chip ∧
        s.chip.fieldsKept t.chip [CF_SRCCTL_KIDX.key pgCF 0, CF_SRCCTL_GO.key pgCF 0, PG_STS_WIGN.key pgCF 0]) ∧
      (s.chip.get CF_CTL_SRC pgCF = 0 → s.chip.accepts pgCF = true → (s.chip.cfState ≠ 1 ∧ s.chip.cfState ≠ 2) ∨
          (s.chip.stream.srcBusy = false ∧ s.chip.stream.srcLeft = 0) →
        (e ≠ 0 → Completes (.streamSourceGo w v) s fun t => s.performed t ∧
          s.chip.streamFailed t.chip 0x0E e ((s.chip.get CF_SEQ_NEXT pgCF + 65535) % 65536)) ∧
        (e = 0 → Completes (.streamSourceGo w v) s fun t => s.performed t ∧ t.chip.stream.srcLeft = len ∧ t.chip.stream.srcAddr = addr ∧
          t.chip.stream.srcKidx = k ∧ t.chip.cfState = (if s.chip.cfState = 5 then 1 else s.chip.cfState) ∧
          (s.chip.running pgCF = true → s.chip.stream.srcBusy = false → s.chip.stream.buf.length + 64 ≤ 2048 → t.chip.stream.srcBusy = true ∧
            ∃ r ∈ t.chip.net.want, r.asker = .cfgSource ∧ r.op = .read ∧ r.addr = addr - addr % 64 ∧ r.kidx = k) ∧
          s.chip.fieldsKept t.chip [CF_SRCCTL_KIDX.key pgCF 0, CF_SRCCTL_GO.key pgCF 0, CF_STS_STATE.key pgCF 0, PG_STS_WIGN.key pgCF 0] ∧
          t.chip = { s.chip with regs := t.chip.regs, stream := t.chip.stream, net := { s.chip.net with want := t.chip.net.want } })))

/-- A scanned frame has its single-bit errors corrected, counted and reported; an uncorrectable word is recorded,
reported, and stops the sector; the scan moves on to the next frame that is not skipped. The engine scan begins with
the next enabled engine that the pouncer holds, or with the one it must scan again; a priority scan begins with the
first that waits. A scan that finds its signature table bad is counted and reported and has no result; one that
finds every region as it should be ends; a mismatch is reported, and what may not be detached is reloaded or left,
as the policy says. A reload that verifies is reported and asks for the rejoin; one that does not is counted and
reported. A missing heartbeat restarts the pouncer, and a corrected copy is counted. While the pouncer does not run,
nothing happens. (11_scrubbing.md) -/
def Obligations.ScrubbingActs : Prop :=
  ∀ (s : State),
    (s.chip.scrubUp = false → exec .scrubFrame s = .next s ∧ exec .engineScanStart s = .next s ∧ exec .engineScanComplete s = .next s ∧
      exec .reloadComplete s = .next s ∧ exec .heartbeatMiss s = .next s ∧
      (∀ e es, s.chip.scrub.prio = e :: es → exec .priorityScanStart s = .next s)) ∧
    (s.chip.accepts pgSC = false ∨ s.chip.get SC_CTL_FABEN pgSC ≠ 1 ∨ s.chip.frameFrom 0 = none → exec .scrubFrame s = .next s) ∧
    (∀ F, s.chip.scrubUp = true → s.chip.accepts pgSC = true → s.chip.get SC_CTL_FABEN pgSC = 1 →
      (s.chip.frameFrom (s.chip.get SC_POS_FRAME pgSC)).or (s.chip.frameFrom 0) = some F → Completes .scrubFrame s fun t => s.device t ∧
        (∀ k, Store.get 0 t.chip.fab.cfg k = if k / 64 = F then
            (match eccDecode (Store.get 0 s.chip.fab.cfg k) with | .fixed d => secded d | _ => Store.get 0 s.chip.fab.cfg k)
          else Store.get 0 s.chip.fab.cfg k) ∧
        (∀ G, s.chip.frameFrom (F + 1) = some G → t.chip.get SC_POS_FRAME pgSC = G ∧ t.chip.get SC_PASS_FAB pgSC = s.chip.get SC_PASS_FAB pgSC) ∧
        (s.chip.frameFrom (F + 1) = none → (∀ G, s.chip.frameFrom 0 = some G → t.chip.get SC_POS_FRAME pgSC = G) ∧
          t.chip.get SC_PASS_FAB pgSC = (s.chip.get SC_PASS_FAB pgSC + 1) % 65536) ∧
        ((∀ i < 64, ∃ d, eccDecode (Store.get 0 s.chip.fab.cfg (64 * F + i)) = .good d) → t.chip.flt = s.chip.flt ∧
          s.chip.fieldsKept t.chip [SC_POS_FRAME.key pgSC 0, SC_PASS_FAB.key pgSC 0]) ∧
        ((∃ i < 64, (eccDecode (Store.get 0 s.chip.fab.cfg (64 * F + i))).isFixed = true) → s.chip.mayReport pgSC 0 → t.chip.reported pgSC 0) ∧
        (∀ i < 64, (eccDecode (Store.get 0 s.chip.fab.cfg (64 * F + i))).isBad = true →
          (∀ j < 64, i < j → (eccDecode (Store.get 0 s.chip.fab.cfg (64 * F + j))).isBad = false) →
          t.chip.get SC_FUEADDR_VALID pgSC = 1 ∧ t.chip.get SC_FUEADDR_WORD pgSC = i ∧ t.chip.get SC_FUEADDR_FRAME pgSC = F % 2 ^ 17 ∧
          t.chip.get PG_CTL_RUN (pgFB (scanSector F)) = 0 ∧ t.chip.get PG_STS_RUNNING (pgFB (scanSector F)) = 0 ∧
          (s.chip.mayReport pgSC 1 → t.chip.reported pgSC 1)) ∧
        t.chip = { s.chip with
          regs := t.chip.regs, flt := t.chip.flt
          fab := { s.chip.fab with cfg := t.chip.fab.cfg, now := { s.chip.fab.now with port := t.chip.fab.now.port } } }) ∧
    (s.chip.mayScan = false → exec .engineScanStart s = .next s) ∧
    (s.chip.reloadState ≠ 0 → s.chip.scrub.redo = false → exec .engineScanStart s = .next s) ∧
    (s.chip.reloadState = 0 → s.chip.scrub.prio ≠ [] → exec .engineScanStart s = .next s) ∧
    (s.chip.reloadState = 0 → (∀ j < 512, ((s.chip.get SC_SCHEN_EN pgSC (j / 32)).testBit (j % 32) && s.chip.scanHolds j) = false) →
      exec .engineScanStart s = .next s) ∧
    (∀ e, s.chip.mayScan = true →
      ((s.chip.reloadState ≠ 0 ∧ s.chip.scrub.redo = true ∧ e = s.chip.reloadEng) ∨
        (s.chip.reloadState = 0 ∧ s.chip.scrub.prio = [] ∧ e < 512 ∧ s.chip.scrub.engine ≤ e ∧
          (s.chip.get SC_SCHEN_EN pgSC (e / 32)).testBit (e % 32) = true ∧ s.chip.scanHolds e = true ∧
          ∀ j < e, s.chip.scrub.engine ≤ j → ((s.chip.get SC_SCHEN_EN pgSC (j / 32)).testBit (j % 32) && s.chip.scanHolds j) = false) ∨
        (s.chip.reloadState = 0 ∧ s.chip.scrub.prio = [] ∧ e < 512 ∧
          (s.chip.get SC_SCHEN_EN pgSC (e / 32)).testBit (e % 32) = true ∧ s.chip.scanHolds e = true ∧
          ∀ j < 512, j < e ∨ s.chip.scrub.engine ≤ j → ((s.chip.get SC_SCHEN_EN pgSC (j / 32)).testBit (j % 32) && s.chip.scanHolds j) = false)) →
      Completes .engineScanStart s fun t => s.device t ∧ t.chip.get SC_POS_EVALID pgSC = 1 ∧ t.chip.get SC_POS_ENG pgSC = e % 512 ∧
        s.chip.fieldsKept t.chip [SC_POS_EVALID.key pgSC 0, SC_POS_ENG.key pgSC 0] ∧
        t.chip.scrub = { s.chip.scrub with gen := s.chip.scrub.gen + 1, lines := [], sigs := [], sigErr := false } ∧
        (s.chip.get SC_CTL_SIGSRC pgSC ≠ 1 → t.chip.net = s.chip.net) ∧
        (s.chip.get SC_CTL_SIGSRC pgSC = 1 → ∃ r, t.chip.net.want = s.chip.net.want ++ [r] ∧ r.asker = .pouncer (s.chip.scrub.gen + 1) ∧
          r.op = .read ∧ r.len = 36 ∧ r.addr = s.chip.get SC_SIGBASEH_ADDR pgSC * 2 ^ 32 + s.chip.get SC_SIGBASEL_ADDR pgSC * 2 ^ 21 + 4096 * e)) ∧
    (s.chip.scrub.prio = [] ∨ s.chip.mayScan = false ∨ s.chip.reloadState ≠ 0 → exec .priorityScanStart s = .next s) ∧
    (∀ e es, s.chip.scrub.prio = e :: es → s.chip.mayScan = true → s.chip.reloadState = 0 → ∀ ok, ok = (s.chip.detached e && s.chip.scanHolds e &&
        (s.chip.get SC_SCHEN_EN pgSC (e / 32)).testBit (e % 32)) → Completes .priorityScanStart s fun t => s.device t ∧
      t.chip.scrub.prio = es ∧ (ok = false → t.chip = { s.chip with scrub := { s.chip.scrub with prio := es } }) ∧
      (ok = true → t.chip.get SC_POS_EVALID pgSC = 1 ∧ t.chip.get SC_POS_ENG pgSC = e % 512 ∧ t.chip.scrub.prioScan = true ∧
        s.chip.fieldsKept t.chip [SC_POS_EVALID.key pgSC 0, SC_POS_ENG.key pgSC 0])) ∧
    (s.chip.get SC_POS_EVALID pgSC ≠ 1 ∨ (s.chip.get SC_CTL_SIGSRC pgSC = 1 ∧ s.chip.scrub.sigs.length < 36) →
      exec .engineScanComplete s = .next s) ∧
    (∀ e, s.chip.scrubUp = true → s.chip.get SC_POS_EVALID pgSC = 1 → e = s.chip.get SC_POS_ENG pgSC →
      (s.chip.get SC_CTL_SIGSRC pgSC ≠ 1 → (∃ i < 288, (eccDecode (s.chip.flashWord (0x10000 + 512 * e + i))).isBad = true) →
        Completes .engineScanComplete s fun t => s.device t ∧ t.chip.get SC_POS_EVALID pgSC = 0 ∧
          t.chip.get SC_EVCNT_SIGERR pgSC = satInc 255 (s.chip.get SC_EVCNT_SIGERR pgSC) % 256 ∧
          t.chip.get SC_RLSTS_STATE pgSC = s.chip.get SC_RLSTS_STATE pgSC ∧ (s.chip.mayReport pgSC 7 → t.chip.reported pgSC 7)) ∧
      ((s.chip.get SC_CTL_SIGSRC pgSC = 1 ∧ 36 ≤ s.chip.scrub.sigs.length) ∨ (s.chip.get SC_CTL_SIGSRC pgSC ≠ 1 ∧
          ∀ i < 288, (eccDecode (s.chip.flashWord (0x10000 + 512 * e + i))).isBad = false) → s.chip.scrub.redo = false →
        ((∀ r < 288, s.chip.mismatched e r = false) → s.chip.scrub.prioScan = false → Completes .engineScanComplete s fun t => s.device t ∧
          t.chip.get SC_POS_EVALID pgSC = 0 ∧ t.chip.get SC_RLSTS_STATE pgSC = s.chip.get SC_RLSTS_STATE pgSC ∧
          t.chip.net = s.chip.net ∧ t.chip.get SC_EVCNT_SIGERR pgSC = s.chip.get SC_EVCNT_SIGERR pgSC) ∧
        (∀ r, r < 288 → s.chip.mismatched e r = true → s.chip.mayDetach e = false → Completes .engineScanComplete s fun t => s.device t ∧
          t.chip.get SC_POS_EVALID pgSC = 0 ∧ (s.chip.mayReport pgSC 3 → t.chip.reported pgSC 3) ∧
          (2 ≤ s.chip.get SC_CTL_UNPOL pgSC → t.chip.get SC_RLSTS_STATE pgSC = 0 ∧ t.chip.scrub.todo = []) ∧
          (s.chip.get SC_CTL_UNPOL pgSC = 1 → t.chip.get SC_RLSTS_STATE pgSC = 2 ∧ t.chip.get SC_RLSTS_ENG pgSC = e % 512 ∧
            r ∈ t.chip.scrub.todo ∧ ∃ q ∈ t.chip.net.want, q.op = .read ∧ q.len = 64 ∧ q.asker = .pouncer t.chip.scrub.gen)))) ∧
    (s.chip.reloadState ≠ 3 → exec .reloadComplete s = .next s) ∧
    (∀ e, s.chip.scrubUp = true → s.chip.reloadState = 3 → e = s.chip.reloadEng →
      ((∀ r ∈ s.chip.scrub.wrote, s.chip.mismatched e r = false) → Completes .reloadComplete s fun t => s.device t ∧
        (s.chip.mayReport pgSC 4 → t.chip.reported pgSC 4) ∧
        (s.chip.detached e = true → s.chip.running (pgEG (e / 8)) = true → s.chip.run (pgEE e) = true →
          t.chip.get EE_PAIR_JOINPEND (pgEE e) = 1 ∧ t.chip.get SC_RLSTS_STATE pgSC = 4 ∧
          s.chip.fieldsKept t.chip [EE_PAIR_JOINPEND.key (pgEE e) 0, SC_RLSTS_STATE.key pgSC 0]) ∧
        ((s.chip.detached e && s.chip.running (pgEG (e / 8)) && s.chip.run (pgEE e)) = false → t.chip.get SC_RLSTS_STATE pgSC = 0 ∧
          t.chip.scrub.wrote = [] ∧ s.chip.fieldsKept t.chip [SC_RLSTS_STATE.key pgSC 0])) ∧
      (∀ r ∈ s.chip.scrub.wrote, s.chip.mismatched e r = true → Completes .reloadComplete s fun t => s.device t ∧
        t.chip.get SC_EVCNT_RELFAIL pgSC = satInc 255 (s.chip.get SC_EVCNT_RELFAIL pgSC) % 256 ∧ t.chip.get SC_RLSTS_STATE pgSC = 0 ∧
        (s.chip.mayReport pgSC 6 → t.chip.reported pgSC 6))) ∧
    (s.chip.scrubUp = true → Completes .heartbeatMiss s fun t => s.device t ∧ t.chip.get SC_POS_EVALID pgSC = 0 ∧
      t.chip.get SC_POS_FRAME pgSC = 0 ∧ t.chip.get SC_POS_ENG pgSC = 0 ∧
      t.chip.get SC_EVCNT_RESTART pgSC = satInc 255 (s.chip.get SC_EVCNT_RESTART pgSC) % 256 ∧
      t.chip.scrub = { s.chip.scrub with gen := s.chip.scrub.gen + 1, lines := [], engine := 0, prioScan := false,
                                         redo := decide (s.chip.reloadState ≠ 0) } ∧
      (s.chip.mayReport pgSC 9 → t.chip.reported pgSC 9) ∧
      s.chip.fieldsKept t.chip [SC_POS_EVALID.key pgSC 0, SC_POS_FRAME.key pgSC 0, SC_POS_ENG.key pgSC 0, SC_EVCNT_RESTART.key pgSC 0] ∧
      t.chip = { s.chip with regs := t.chip.regs, flt := t.chip.flt, scrub := t.chip.scrub }) ∧
    (s.chip.stepsRun = false → exec .tmrCorrection s = .next s) ∧
    (s.chip.stepsRun = true → Completes .tmrCorrection s fun t => s.device t ∧
      t.chip.get SC_EVCNT_TMR pgSC = satInc 255 (s.chip.get SC_EVCNT_TMR pgSC) % 256 ∧ (s.chip.mayReport pgSC 8 → t.chip.reported pgSC 8) ∧
      s.chip.fieldsKept t.chip [SC_EVCNT_TMR.key pgSC 0] ∧ s.chip.onlyRegsFaults t.chip)

/-- A request that its unit presents first behind its bridge, and that passes checks 1 to 4, enters the NI in parts,
each to one destination, which together cover its lines; one that fails leaves no part. A waiting part is sent under
its route entry with the lowest free tag when there is room, announced by an RSVREQ where reservations are on, and
given up where its entry cannot be used. A router passes the first head flit of an input on along its route, hands
it to the NI at its exit, and drops one whose header is bad; while a packet may not move nothing happens. RSP, LATE,
RSVREQ and RSVGNT are taken by their NI, and what waits for them goes on; a tag that gets no answer in time is lost,
counted and reported. (12_packet_network.md) -/
def Obligations.NetworkCarriesRequests : Prop :=
  ∀ (i : Nat) (n : Fin 32) (tag : Fin 256) (s : State),
    (s.chip.net.want[i]? = none → exec (.unitRequestIssue i) s = .next s) ∧
    (∀ r ni b, s.chip.net.want[i]? = some r → r.asker.place = (ni, b) →
      ((∃ q ∈ s.chip.net.want.take i, q.asker.place = (ni, b)) ∨ s.chip.askerMoves r.asker = false ∨
          (s.chip.get NC_BRG_FENCED (pgNI ni) b = 1 ∧ r.asker.domain < 80) → exec (.unitRequestIssue i) s = .next s) ∧
      ((∀ q ∈ s.chip.net.want.take i, q.asker.place ≠ (ni, b)) → s.chip.askerMoves r.asker = true →
        ¬(s.chip.get NC_BRG_FENCED (pgNI ni) b = 1 ∧ r.asker.domain < 80) → ∀ q : Req, q = s.chip.stamp r →
        (s.chip.niCheck q ≠ 0 → Completes (.unitRequestIssue i) s fun t => s.device t ∧ t.chip.net.flights = s.chip.net.flights ∧
          t.chip.net.packets = s.chip.net.packets ∧ t.chip.net.arrived = s.chip.net.arrived ∧ t.chip.net.next = s.chip.net.next) ∧
        (s.chip.niCheck q = 0 → (r.op = .read ∨ r.op = .write) → (∀ l < r.len, (s.chip.destOf ni (r.addr + 64 * l)).isSome = true) →
          Completes (.unitRequestIssue i) s fun t => s.device t ∧ t.chip.net.want = s.chip.net.want.eraseIdx i ∧
            (∃ new, t.chip.net.flights = s.chip.net.flights ++ new ∧
              (∀ f ∈ new, f.st = .waiting ∧ f.tag = none ∧ f.ni = ni ∧ s.chip.net.next ≤ f.id ∧ f.id < t.chip.net.next ∧
                f.req.op = r.op ∧ f.req.asker = r.asker ∧ f.req.kidx = q.kidx ∧ r.base ≤ f.req.base ∧ 0 < f.req.len ∧
                f.req.addr = r.addr + 64 * (f.req.base - r.base) ∧ f.req.lines = (r.lines.drop (f.req.base - r.base)).take f.req.len ∧
                ∀ l < f.req.len, s.chip.destOf ni (f.req.addr + 64 * l) = some (f.dstNi, f.bridge)) ∧
              ∀ l < r.len, ∃ f ∈ new, f.req.base ≤ r.base + l ∧ r.base + l < f.req.base + f.req.len) ∧
            t.chip = { s.chip with net := { s.chip.net with
              want := t.chip.net.want, flights := t.chip.net.flights, next := t.chip.net.next } }))) ∧
    (s.chip.net.flights[i]? = none → s.chip.noOwnerWaits → exec (.requestInject i) s = .next s) ∧
    (∀ f p rvar, s.chip.partAt i f → s.chip.noOwnerWaits → p = pgNI f.ni → rvar = s.chip.get NC_BRG_RVAR p f.req.asker.place.2 →
      (s.chip.askerMoves f.req.asker = false ∨ s.chip.accepts p = false ∨ (f.st ≠ .waiting ∧ f.st ≠ .granted) ∨
          (f.st = .waiting ∧ (s.chip.mustWait f = true ∨ s.chip.freeTag f.ni = none ∨ 2048 < s.chip.answerRoom f.ni + f.req.answerFlits)) →
        exec (.requestInject i) s = .next s) ∧
      (∀ tg, s.chip.askerMoves f.req.asker = true → s.chip.accepts p = true → f.dstNi ≠ f.ni →
        (f.st = .granted ∧ f.tag = some tg) ∨ (f.st = .waiting ∧ s.chip.mustWait f = false ∧ s.chip.freeTag f.ni = some tg ∧
          s.chip.answerRoom f.ni + f.req.answerFlits ≤ 2048 ∧ s.chip.get NC_MODE_RSV p ≠ 1) →
        (s.chip.routed f.ni f.dstNi rvar → Completes (.requestInject i) s fun t => s.device t ∧
          t.chip.net.flights = s.chip.net.flights.map (fun x => if x.id = f.id then { x with tag := some tg, st := .sent } else x) ∧
          (∃ q, t.chip.net.packets = s.chip.net.packets ++ [q] ∧ q.pt = .req ∧ q.ni = f.ni ∧ q.tag = tg ∧ q.dst = f.dstNi ∧
            q.bridge = f.bridge ∧ q.req = some f.req ∧ q.place = niRouter f.ni ∧ q.home = false ∧ q.dir = none ∧
            q.route = (s.chip.routeEntry f.ni (8 * (f.dstNi - 32) + rvar)).setWidth 48) ∧
          t.chip = { s.chip with net := { s.chip.net with flights := t.chip.net.flights, packets := t.chip.net.packets } }) ∧
        (¬s.chip.routed f.ni f.dstNi rvar → Completes (.requestInject i) s fun t => s.device t ∧
          t.chip.net.flights = s.chip.net.flights.filter (fun x => x.id != f.id) ∧ t.chip.net.packets = s.chip.net.packets)) ∧
      (∀ tg, s.chip.askerMoves f.req.asker = true → s.chip.accepts p = true → f.dstNi ≠ f.ni → f.st = .waiting →
        s.chip.mustWait f = false → s.chip.freeTag f.ni = some tg → s.chip.answerRoom f.ni + f.req.answerFlits ≤ 2048 →
        s.chip.get NC_MODE_RSV p = 1 → (∀ x ∈ s.chip.net.flights, x.ni = f.ni → x.dstNi = f.dstNi → x.vc = f.vc → x.st ≠ .announced) →
        s.chip.routed f.ni f.dstNi rvar → Completes (.requestInject i) s fun t => s.device t ∧
          t.chip.net.flights = s.chip.net.flights.map (fun x => if x.id = f.id then { x with tag := some tg, st := .announced } else x) ∧
          ∃ q, t.chip.net.packets = s.chip.net.packets ++ [q] ∧ q.pt = .rsvreq ∧ q.ni = f.ni ∧ q.tag = tg ∧ q.dst = f.dstNi ∧
            q.flits = f.req.flits)) ∧
    (∀ bad header fixed, s.chip.noOwnerWaits → (∀ p, s.chip.net.packets[i]? = some p → p.home = true ∨ s.chip.firstAt i p = false ∨
        (∃ x ∈ p.after, s.chip.inFlight x = true) ∨ s.chip.accepts (0x80 + p.place) = false) →
      exec (.routerHeadFlit i fixed bad header) s = .next s) ∧
    (∀ p out pg, s.chip.noOwnerWaits → s.chip.net.packets[i]? = some p → p.home = false → s.chip.firstAt i p = true →
      (∀ x ∈ p.after, s.chip.inFlight x = false) → pg = 0x80 + p.place → s.chip.accepts pg = true → out = turn p.dir (turnCode p.route 0) →
      (∀ d m, out = some d → routerNext p.place d = some m → (s.chip.get NC_RCTL_PORTEN pg).testBit d = true →
        Completes (.routerHeadFlit i 0 [] false) s fun t => s.device t ∧
          t.chip.net.packets = s.chip.net.packets.eraseIdx i ++ [{ p with
            place := m, dir := some d, lane := laneOn p.place d p.lane, poisoned := p.poisoned.eraseDups
            route := BitVec.ofNat 48 (p.route.toNat / 4 + 3 * 2 ^ 46) }] ∧
          s.chip.fieldsKept t.chip [NC_RCECNT_CE.key pg 0, NC_RCECNT_UE.key pg 0] ∧
          t.chip = { s.chip with regs := t.chip.regs, net := { s.chip.net with packets := t.chip.net.packets } }) ∧
      (∀ ni r, out = none → routerNi p.place = some ni → s.chip.hasRoom p.place p = true → s.chip.get NC_RCTL_LOCEN pg = 1 →
        p.pt = .req → p.req = some r → Completes (.routerHeadFlit i 0 [] false) s fun t => s.device t ∧
          t.chip.net.packets = s.chip.net.packets.eraseIdx i ∧
          ∃ a, t.chip.net.arrived = s.chip.net.arrived ++ [a] ∧ a.ni = p.ni ∧ a.tag = p.tag ∧ a.req = r ∧ a.dstNi = p.dst ∧
            a.bridge = p.bridge ∧ a.done = false ∧ a.codes = []) ∧
      (∀ ni, out = none → routerNi p.place = some ni → s.chip.get NC_RCTL_LOCEN pg = 1 → p.pt ≠ .req →
        Completes (.routerHeadFlit i 0 [] false) s fun t => s.device t ∧ t.chip.net.arrived = s.chip.net.arrived ∧
          ∃ q, t.chip.net.packets = s.chip.net.packets.eraseIdx i ++ [q] ∧ q.pt = p.pt ∧ q.home = true ∧ q.place = ni ∧ q.codes = p.codes ∧
            q.data = p.data) ∧
      ((out.isSome = true ∨ s.chip.hasRoom p.place p = true) → ∀ fixed bad, Completes (.routerHeadFlit i fixed bad true) s fun t => s.device t ∧
        t.chip.net.packets = s.chip.net.packets.eraseIdx i ∧ t.chip.get NC_RSTS_DROP pg = 1 ∧
        t.chip.get NC_RERRCNT_DROP pg = satInc 65535 (s.chip.get NC_RERRCNT_DROP pg) % 65536 ∧
        (s.chip.mayReport pg 4 → t.chip.reported pg 4) ∧ (s.chip.mayReport pg 1 → t.chip.reported pg 1))) ∧
    (∀ p, s.chip.net.packets[i]? = some p → p.home = true →
      (p.pt ≠ .rsp → exec (.rsp i) s = .next s) ∧ (p.pt ≠ .late → exec (.late i) s = .next s) ∧
      (p.pt ≠ .rsvreq → exec (.rsvreq i) s = .next s) ∧ (p.pt ≠ .rsvgnt → s.chip.noOwnerWaits → exec (.rsvgnt i) s = .next s) ∧
      (s.chip.flightOf p.ni p.tag = none → ∀ c, c = { s.chip with net := { s.chip.net with packets := s.chip.net.packets.eraseIdx i } } →
        (p.pt = .rsp → exec (.rsp i) s = .next { s with chip := c }) ∧ (p.pt = .late → exec (.late i) s = .next { s with chip := c })) ∧
      (∀ f, s.chip.flightOf p.ni p.tag = some f →
        (p.pt = .rsp → f.st = .sent → s.chip.askerMoves f.req.asker = true → Completes (.rsp i) s fun t => s.device t ∧
          t.chip.net.packets = s.chip.net.packets.eraseIdx i ∧ t.chip.net.arrived = s.chip.net.arrived ∧
          (f.req.spec = false → t.chip.net.flights = s.chip.net.flights.filter fun x => x.id != f.id) ∧
          (f.req.asker = .debug → f.req.op = .regrd → f.req.wide = false → p.poisonHead = false → p.poisoned = [] → p.codes = [0] →
            t.chip.get DB_CMDSTS_BUSY pgDB = 0 ∧ t.chip.get DB_CMDSTS_ERR pgDB = 0 ∧
            t.chip.get DB_DATA_DATA pgDB 0 = p.rdata.toNat % 2 ^ 32)) ∧
        (p.pt = .rsp → f.st = .lost ∨ f.st = .dropped → Completes (.rsp i) s fun t => s.device t ∧
          t.chip.net.packets = s.chip.net.packets.eraseIdx i ∧ t.chip.net.flights = s.chip.net.flights.filter (fun x => x.id != f.id) ∧
          t.chip = { s.chip with net := { s.chip.net with
            packets := t.chip.net.packets, flights := t.chip.net.flights, rteHeld := t.chip.net.rteHeld } }) ∧
        (p.pt = .late → f.st = .late → s.chip.askerMoves f.req.asker = true → Completes (.late i) s fun t => s.device t ∧
          t.chip.net.packets = s.chip.net.packets.eraseIdx i ∧
          t.chip.net.flights = s.chip.net.flights.filter (fun x => x.id != f.id) ∧ t.chip.mem = s.chip.mem) ∧
        (p.pt = .rsvgnt → f.st = .announced → s.chip.noOwnerWaits → Completes (.rsvgnt i) s fun t => s.device t ∧
          t.chip.net.packets = s.chip.net.packets.eraseIdx i ∧
          t.chip.net.flights = s.chip.net.flights.map (fun x => if x.id = f.id then { x with st := .granted } else x) ∧
          t.chip = { s.chip with net := { s.chip.net with packets := t.chip.net.packets, flights := t.chip.net.flights } })) ∧
      (p.pt = .rsvreq → p.poisonHead = false → s.chip.net.rsv = [] → p.vc < 4 → s.chip.routed p.dst p.ni p.rvar → Completes (.rsvreq i) s fun t =>
        s.device t ∧ (128 < s.chip.heldFlits p.dst p.vc + p.flits → t.chip.net.rsv = [p] ∧ t.chip.net.booked = s.chip.net.booked ∧
            t.chip.net.packets = s.chip.net.packets.eraseIdx i) ∧
          (s.chip.heldFlits p.dst p.vc + p.flits ≤ 128 → t.chip.net.rsv = [] ∧
            t.chip.net.booked = s.chip.net.booked ++ [(p.dst, p.vc, p.ni, p.tag, p.flits)] ∧
            ∃ q, t.chip.net.packets = s.chip.net.packets.eraseIdx i ++ [q] ∧ q.pt = .rsvgnt ∧ q.ni = p.ni ∧ q.tag = p.tag))) ∧
    (s.chip.noOwnerWaits → (∀ f, s.chip.flightOf (32 + n.val) tag.val = some f → s.chip.stepsRun = false ∨ (f.waits = false ∧ f.st ≠ .dropped)) →
      exec (.niTimeout n tag) s = .next s) ∧
    (∀ f, s.chip.noOwnerWaits → s.chip.flightOf (32 + n.val) tag.val = some f → s.chip.stepsRun = true → f.waits = true ∨ f.st = .dropped →
      Completes (.niTimeout n tag) s fun t => s.device t ∧
        t.chip.net.flights = s.chip.net.flights.map (fun x => if x.id = f.id then { x with st := .lost } else x) ∧
        t.chip.get NC_TOCNT_COUNT (pgNI (32 + n.val)) = satInc 65535 (s.chip.get NC_TOCNT_COUNT (pgNI (32 + n.val))) % 65536 ∧
        (s.chip.mayReport (pgNI (32 + n.val)) 0 → t.chip.reported (pgNI (32 + n.val)) 0) ∧
        (f.st = .dropped → s.chip.fieldsKept t.chip [NC_TOCNT_COUNT.key (pgNI (32 + n.val)) 0]))

/-- A request that has arrived is performed in its turn and answered: a scratchpad read with its lines, a scratchpad
write after the bytes that its mask names are stored and no other, a register read with what the register reads for
its master, a register write after it is made; a page that refuses it answers with the code, and a poisoned request
with ERR_ECC. A request of another operation, one already performed, or one held up behind another, stays. NC_RTECMD
with WR writes the entry it names when the route is legal and records the reason when it is not, RD shows the entry,
and both are ignored while a command is held back. FREELOST frees the lost tags of its NI and no other.
(12_packet_network.md, 13_scratchpad.md, 01_device_organisation.md) -/
def Obligations.NetworkPerformsRequests : Prop :=
  ∀ (i : Nat) (w : Who) (n : Fin 32) (index : BitVec 8) (order : Bool) (v : BitVec 32) (s : State), s.chip.noOwnerWaits →
    (∀ io ∈ [(Instr.read i, Op.read), (.write i, .write), (.regrd i, .regrd), (.regwr i, .regwr)],
      (∀ a, s.chip.net.arrived[i]? = some a → a.req.op ≠ io.2 ∨ a.done = true ∨ s.chip.heldUp i a = true) → exec io.1 s = .next s) ∧
    (∀ a, s.chip.net.arrived[i]? = some a → a.done = false → s.chip.heldUp i a = false →
      (a.poison = true → ∀ io ∈ [(Instr.read i, Op.read), (.write i, .write), (.regrd i, .regrd), (.regwr i, .regwr)], a.req.op = io.2 →
        Completes io.1 s fun t => s.device t ∧ a.goneFrom s.chip t.chip ∧ s.chip.sameRegs t.chip ∧ t.chip.sp = s.chip.sp ∧
          (s.chip.routed a.dstNi a.ni a.rvar → a.answeredIn t.chip (List.replicate a.lines errEcc) fun _ => True)) ∧
      (a.poison = false → regionOf a.req.addr = some .sp → ∀ first, first = (a.req.addr - spBase) / 64 →
        s.chip.meets a [pgSP 0] false = .served → s.chip.waitsInBank a = false →
        (s.chip.spServe a.banks ≠ 0 → ∀ io ∈ [(Instr.read i, Op.read), (.write i, .write)], a.req.op = io.2 → Completes io.1 s fun t =>
          s.device t ∧ a.goneFrom s.chip t.chip ∧ t.chip.sp = s.chip.sp ∧
            (s.chip.routed a.dstNi a.ni a.rvar → a.answeredIn t.chip (List.replicate a.lines (s.chip.spServe a.banks)) fun _ => True)) ∧
        (s.chip.spServe a.banks = 0 → a.req.op = .read → Completes (.read i) s fun t => s.device t ∧ a.goneFrom s.chip t.chip ∧
          t.chip.sp.word = s.chip.sp.word ∧
          (s.chip.routed a.dstNi a.ni a.rvar → a.answeredIn t.chip ((List.range a.req.len).map fun j =>
              if (List.range 8).any (fun k => (eccDecode (s.chip.spWord (8 * (first + j) + k))).isBad) then errEcc else 0) fun p =>
            ∀ j < a.req.len, p.codes[j]? = some 0 → ∀ b < 512, (p.data.getD j 0).getLsbD b =
              (eccDecode (s.chip.spWord (8 * (first + j) + b / 64))).data.getLsbD (b % 64))) ∧
        (s.chip.spServe a.banks = 0 → a.req.op = .write → Completes (.write i) s fun t => s.device t ∧ a.goneFrom s.chip t.chip ∧
          (∀ u, (∀ j < a.req.lines.length, u / 8 ≠ first + j) → t.chip.spWord u = s.chip.spWord u) ∧
          (∀ j x, a.req.lines[j]? = some x → j ∈ a.bad → ∀ k < 8, t.chip.spWord (8 * (first + j) + k) = s.chip.spWord (8 * (first + j) + k)) ∧
          (∀ j x, a.req.lines[j]? = some x → j ∉ a.bad →
            (∀ k < 8, (eccDecode (s.chip.spWord (8 * (first + j) + k))).isBad = false) →
            ∀ b < 512, (eccDecode (t.chip.spWord (8 * (first + j) + b / 64))).data.getLsbD (b % 64) =
              if x.mask.getLsbD (b / 8) then x.data.getLsbD b
              else (eccDecode (s.chip.spWord (8 * (first + j) + b / 64))).data.getLsbD (b % 64)))) ∧
      (a.poison = false → regionOf a.req.addr = some .reg → windowStore (a.req.addr - regBase) = none → s.chip.get GL_FRZSTS_STATE pgGL = 0 →
        ∀ pg off, pg = (a.req.addr - regBase) / 0x1000 → off = (a.req.addr - regBase) % 0x1000 →
        (∀ io ∈ [(Instr.regrd i, Op.regrd), (.regwr i, .regwr)], a.req.op = io.2 → ∀ code, code ≠ 0 →
          code = s.chip.pageCode a.req.asker.who pg off (a.req.op == .regwr) → Completes io.1 s fun t => s.device t ∧
            a.goneFrom s.chip t.chip ∧ s.chip.sameRegs t.chip ∧
            (s.chip.routed a.dstNi a.ni a.rvar → a.answeredIn t.chip [code] fun _ => True)) ∧
        (a.req.op = .regrd → s.chip.pageCode a.req.asker.who pg off false = 0 → ∀ r, r = s.chip.pageRead a.req.asker.who pg off (s.chip.peeks_ pg a.req.peek) →
          Completes (.regrd i) s fun t => s.device t ∧ a.goneFrom s.chip t.chip ∧ t.chip.regs = r.2.regs ∧
            (s.chip.routed a.dstNi a.ni a.rvar → a.answeredIn t.chip [0] fun p => p.rdata = BitVec.ofNat 64 r.1)) ∧
        (a.req.op = .regwr → s.chip.pageCode a.req.asker.who pg off true = 0 → plainPage pg = true → 0x40 ≤ off → off % 4 = 0 →
          Completes (.regwr i) s fun t => s.device t ∧ a.goneFrom s.chip t.chip ∧
            (∀ Fi ∈ fieldsAt pg off, t.chip.get Fi.1 pg Fi.2 = s.chip.fieldAfter pg (a.req.wdata.toNat % 2 ^ 32) Fi) ∧
            s.chip.fieldsKept t.chip (PG_STS_WIGN.key pg 0 :: (fieldsAt pg off).map fun Fi => Fi.1.key pg Fi.2) ∧
            (s.chip.routed a.dstNi a.ni a.rvar → a.answeredIn t.chip [0] fun _ => True)))) ∧
    (∀ pg, pg = pgNI (32 + n.val) → s.reaches w pg NC_RTECMD_INDEX.off →
      (s.chip.routeBusy (32 + n.val) = true → ∀ io ∈ [Instr.routeWrite w n index order, .routeRead w n index order],
        Completes io s fun t => s.performed t ∧ t.chip.get PG_STS_WIGN pg = 1 ∧ s.chip.fieldsKept t.chip [PG_STS_WIGN.key pg 0] ∧
          s.chip.onlyRegs t.chip) ∧
      (s.chip.routeBusy (32 + n.val) = false →
        (∀ r e, r = BitVec.ofNat 48 (s.chip.get NC_RTEL_ROUTE pg + s.chip.get NC_RTEH_ROUTE pg * 2 ^ 32) →
          e = routeErr (32 + n.val) (32 + index.toNat / 8) r → Completes (.routeWrite w n index order) s fun t => s.performed t ∧
            t.chip.get NC_RTECMD_INDEX pg = index.toNat ∧ t.chip.get NC_RTECMD_ERR pg = e ∧
            (∀ m j, 32 ≤ m → j < 256 → t.chip.routeEntry m j = if m = 32 + n.val ∧ j = index.toNat ∧ e = 0 then
              BitVec.ofNat 49 (r.toNat + s.chip.get NC_RTEH_VALID pg * 2 ^ 48) else s.chip.routeEntry m j) ∧
            (e = 0 → t.chip.routeBusy (32 + n.val) = (order && !(s.chip.onEntry (32 + n.val) index.toNat).isEmpty)) ∧
            t.chip = { s.chip with
              regs := t.chip.regs, net := { s.chip.net with routes := t.chip.net.routes, rteHeld := t.chip.net.rteHeld } }) ∧
        Completes (.routeRead w n index order) s fun t => s.performed t ∧ t.chip.get NC_RTECMD_INDEX pg = index.toNat ∧
          t.chip.get NC_RTEL_ROUTE pg = bitsOf (s.chip.routeEntry (32 + n.val) index.toNat).toNat 31 0 ∧
          t.chip.get NC_RTEH_ROUTE pg = bitsOf (s.chip.routeEntry (32 + n.val) index.toNat).toNat 47 32 ∧
          t.chip.get NC_RTEH_VALID pg = bitsOf (s.chip.routeEntry (32 + n.val) index.toNat).toNat 48 48 ∧ s.chip.onlyRegs t.chip)) ∧
    (s.reaches w (pgNI (32 + n.val)) NC_MODE_RSV.off → Completes (.freelost w n v) s fun t => s.performed t ∧
      t.chip.net.flights = s.chip.net.flights.filter (fun f => !(f.ni == 32 + n.val && f.st == .lost)) ∧
      t.chip.get NC_MODE_RSV (pgNI (32 + n.val)) = v.toNat % 2 ∧
      t.chip = { s.chip with
        regs := t.chip.regs, net := { s.chip.net with flights := t.chip.net.flights, rteHeld := t.chip.net.rteHeld } })

/-- A write of SP_OWNb that reaches SP page 1 while BUSY is 0 gives the bank its owner, unless the code is reserved, and
its DMAOK, and with CLR begins a clear; while BUSY is 1 it is dropped and WIGN is set. The end of a clear leaves
every word of the bank 0 and no word outside it changed. A bank enters retention, or serves again, as its SP_RET bit
says, and its SP_AWAKE bit alone moves. A word that was corrected in a read is written back once. GO starts a
channel that is not in RUN, which asks for its descriptor with KIDX; in RUN the GO is dropped and WIGN is set, and a
stopped page 2 starts nothing. (13_scratchpad.md) -/
def Obligations.ScratchpadBanksAndDma : Prop :=
  ∀ (w : Who) (b : Fin 128) (word : Fin 4194304) (ch : Fin 4) (v : BitVec 32) (s : State),
    (s.reaches w (pgSP 1) (SP_OWN_OWNER.off + SP_OWN_OWNER.stride * b.val) →
      (s.chip.get SP_OWN_BUSY (pgSP 1) b.val = 1 → Completes (.bankHandover w b v) s fun t => s.performed t ∧
        t.chip.get PG_STS_WIGN (pgSP 1) = 1 ∧ s.chip.fieldsKept t.chip [PG_STS_WIGN.key (pgSP 1) 0] ∧ s.chip.onlyRegs t.chip) ∧
      (s.chip.get SP_OWN_BUSY (pgSP 1) b.val ≠ 1 → Completes (.bankHandover w b v) s fun t => s.performed t ∧
        t.chip.get SP_OWN_OWNER (pgSP 1) b.val = (if v.toNat % 256 ≤ 0x4D ∨ (0x50 ≤ v.toNat % 256 ∧ v.toNat % 256 ≤ 0x53) ∨
          v.toNat % 256 = 0xFF then v.toNat % 256 else s.chip.get SP_OWN_OWNER (pgSP 1) b.val) ∧
        t.chip.get SP_OWN_DMAOK (pgSP 1) b.val = (if v.getLsbD 8 then 1 else 0) ∧
        t.chip.get SP_OWN_BUSY (pgSP 1) b.val = (if v.getLsbD 31 then 1 else s.chip.get SP_OWN_BUSY (pgSP 1) b.val) ∧
        s.chip.fieldsKept t.chip
          [SP_OWN_OWNER.key (pgSP 1) b.val, SP_OWN_DMAOK.key (pgSP 1) b.val, SP_OWN_BUSY.key (pgSP 1) b.val] ∧ s.chip.onlyRegs t.chip)) ∧
    (s.chip.get SP_OWN_BUSY (pgSP 1) b.val ≠ 1 → exec (.bankClearDone b) s = .next s) ∧
    (s.chip.get SP_OWN_BUSY (pgSP 1) b.val = 1 → Completes (.bankClearDone b) s fun t => s.device t ∧
      t.chip.get SP_OWN_BUSY (pgSP 1) b.val = 0 ∧ s.chip.fieldsKept t.chip [SP_OWN_BUSY.key (pgSP 1) b.val] ∧
      (∀ u, t.chip.spWord u = if u / 32768 = b.val then 0 else s.chip.spWord u) ∧
      t.chip = { s.chip with
        regs := t.chip.regs, sp := { s.chip.sp with word := t.chip.sp.word, fix := s.chip.sp.fix.filter fun u => u / 32768 != b.val } }) ∧
    (∀ ir ∈ [(Instr.bankRetention b, true), (.bankWake b, false)],
      (s.chip.domOn 78 = false ∨ (s.chip.get SP_RET_RET (pgSP 0) (b.val / 32)).testBit (b.val % 32) ≠ ir.2 → exec ir.1 s = .next s) ∧
      (s.chip.domOn 78 = true → (s.chip.get SP_RET_RET (pgSP 0) (b.val / 32)).testBit (b.val % 32) = ir.2 →
        Completes ir.1 s fun t => s.device t ∧
          (∀ j < 32, (t.chip.get SP_AWAKE_AWAKE (pgSP 0) (b.val / 32)).testBit j =
            if j = b.val % 32 then !ir.2 else (s.chip.get SP_AWAKE_AWAKE (pgSP 0) (b.val / 32)).testBit j) ∧
          s.chip.fieldsKept t.chip [SP_AWAKE_AWAKE.key (pgSP 0) (b.val / 32)] ∧ s.chip.onlyRegs t.chip)) ∧
    (word.val ∉ s.chip.sp.fix ∨ s.chip.domOn 78 = false → exec (.spCeWriteback word) s = .next s) ∧
    (word.val ∈ s.chip.sp.fix → s.chip.domOn 78 = true → Completes (.spCeWriteback word) s fun t => s.device t ∧
      (∀ u, u ∈ t.chip.sp.fix ↔ u ∈ s.chip.sp.fix ∧ u ≠ word.val) ∧
      (∀ u, u ≠ word.val → t.chip.spWord u = s.chip.spWord u) ∧
      (∀ d, eccDecode (s.chip.spWord word.val) = .fixed d → t.chip.spWord word.val = secded d) ∧
      ((∀ d, eccDecode (s.chip.spWord word.val) ≠ .fixed d) → t.chip.spWord word.val = s.chip.spWord word.val) ∧
      t.chip = { s.chip with sp := { s.chip.sp with word := t.chip.sp.word, fix := t.chip.sp.fix } }) ∧
    (s.reaches w (pgSP 2) (SP_DMACTL_GO.off + SP_DMACTL_GO.stride * ch.val) →
      ∀ kidx, kidx = SP_DMACTL_KIDX.key (pgSP 2) ch.val →
      (s.chip.get SP_DMASTS_STATE (pgSP 2) ch.val = 1 → Completes (.dmaGo w ch v) s fun t => s.performed t ∧
        t.chip.get SP_DMACTL_KIDX (pgSP 2) ch.val = v.toNat / 256 % 256 ∧ t.chip.get PG_STS_WIGN (pgSP 2) = 1 ∧
        s.chip.fieldsKept t.chip [kidx, PG_STS_WIGN.key (pgSP 2) 0] ∧ s.chip.onlyRegs t.chip) ∧
      (s.chip.get SP_DMASTS_STATE (pgSP 2) ch.val ≠ 1 → s.chip.accepts (pgSP 2) = false ∨ s.chip.works (pgSP 2) = false →
        Completes (.dmaGo w ch v) s fun t => s.performed t ∧ t.chip.get SP_DMACTL_KIDX (pgSP 2) ch.val = v.toNat / 256 % 256 ∧
          s.chip.fieldsKept t.chip [kidx] ∧ s.chip.onlyRegs t.chip) ∧
      (s.chip.get SP_DMASTS_STATE (pgSP 2) ch.val ≠ 1 → s.chip.accepts (pgSP 2) = true → s.chip.works (pgSP 2) = true →
        ∀ a, a = s.chip.get SP_DMADESCH_ADDR (pgSP 2) ch.val * 2 ^ 32 + s.chip.get SP_DMADESCL_ADDR (pgSP 2) ch.val * 32 →
        Completes (.dmaGo w ch v) s fun t => s.performed t ∧ t.chip.get SP_DMACTL_KIDX (pgSP 2) ch.val = v.toNat / 256 % 256 ∧
          t.chip.get SP_DMASTS_STATE (pgSP 2) ch.val = 1 ∧
          s.chip.fieldsKept t.chip [kidx, SP_DMASTS_STATE.key (pgSP 2) ch.val, SP_DMAREM_REM.key (pgSP 2) ch.val] ∧
          t.chip.dmaCh ch.val = { gen := (s.chip.dmaCh ch.val).gen + 1, fetching := true, rem := (s.chip.dmaCh ch.val).rem } ∧
          (∀ x, x ≠ ch.val → t.chip.dmaCh x = s.chip.dmaCh x) ∧
          (∃ r, t.chip.net.want = s.chip.net.want ++ [r] ∧ r.op = .read ∧ r.addr = a / 64 * 64 ∧ r.len = 1 ∧
            r.kidx = v.toNat / 256 % 256 ∧ r.asker = .dmaDesc ch.val ((s.chip.dmaCh ch.val).gen + 1)) ∧
          t.chip = { s.chip with
            regs := t.chip.regs, net := { s.chip.net with want := t.chip.net.want }, sp := { s.chip.sp with dma := t.chip.sp.dma } }))

/-- LOAD, NEWKEY and CLEAR of a slot that is in the state they need give it the staged key, a new key, or no key, and
move its state; on slot 0 they end with ERR 2, in another state with ERR 1. TREEKEY loads the tree key. Each command
clears the staging registers and changes no other slot; one given while BUSY is 1 is dropped and sets WIGN. GRPFREE
and GRPINIT end with ERR 3 on a range outside external memory and with ERR 4 on one under rekey, and otherwise begin
with the first group of their range. Rights are written, and a poison entry is cleared. SAVE writes a record under
the next number, and reports when a changed line cannot be written back. INIT needs the tree key, a running page and
a map, and writes the first counter lines. GO of a rekey saves a record, and the slot is then in REKEY with its
boundary at the start of the range; a GO that is not valid is dropped. (14_memory_ports_and_encryption.md) -/
def Obligations.KeysRecordsAndRekeys : Prop :=
  ∀ (w : Who) (m : Fin 2) (slot : BitVec 8) (rights : BitVec 16) (v : BitVec 32) (k : Fin 4) (n : Fin 16) (s : State)
      (ctl slots x : Nat), ctl = pgMC m.val 0 → slots = pgMC m.val 1 → x = slot.toNat →
    (s.reaches w ctl MC_KCMD_OP.off →
      (s.chip.get MC_KCMD_BUSY ctl = 1 → ∀ io ∈ [(Instr.keyLoad w m slot, 1, x), (.keyNewkey w m slot, 2, x), (.keyClear w m slot, 3, x),
          (.keyTreekey w m, 4, 0), (.keyGrpfree w m, 5, 0), (.keyGrpinit w m, 6, 0)],
        Completes io.1 s fun t => s.performed t ∧ t.chip.get PG_STS_WIGN ctl = 1 ∧ s.chip.onlyRegs t.chip ∧
          s.chip.fieldsKept t.chip [PG_STS_WIGN.key ctl 0, MC_KCMD_OP.key ctl 0, MC_KCMD_SLOT.key ctl 0]) ∧
      (s.chip.get MC_KCMD_BUSY ctl ≠ 1 →
        (∀ st, st = s.chip.get MC_KSLOT_STATE slots x →
          (∀ io ∈ [(Instr.keyLoad w m slot, 1, st = 0), (.keyNewkey w m slot, 2, st = 1), (.keyClear w m slot, 3, st ≠ 2)],
            (x = 0 ∨ ¬io.2.2 → Completes io.1 s fun t => s.performed t ∧ s.chip.onlyRegs t.chip ∧
              s.chip.keyEnded t.chip m.val io.2.1 x (if x = 0 then 2 else 1) [])) ∧
          (x ≠ 0 → st = 0 → Completes (.keyLoad w m slot) s fun t => s.performed t ∧
            s.chip.keyEnded t.chip m.val 1 x 0 [MC_KSLOT_STATE.key slots x] ∧ t.chip.get MC_KSLOT_STATE slots x = 1 ∧
            s.chip.slotTook t.chip m.val x { key := s.chip.stagedKey m.val, new := none }) ∧
          (x ≠ 0 → st = 1 → Completes (.keyNewkey w m slot) s fun t => s.performed t ∧ s.chip.keyEnded t.chip m.val 2 x 0 [] ∧
            s.chip.slotTook t.chip m.val x { key := ((s.chip.crypto m.val).slot x).key, new := some (s.chip.stagedKey m.val) }) ∧
          (x ≠ 0 → st ≠ 2 → Completes (.keyClear w m slot) s fun t => s.performed t ∧
            s.chip.keyEnded t.chip m.val 3 x 0 [MC_KSLOT_STATE.key slots x] ∧ t.chip.get MC_KSLOT_STATE slots x = 0 ∧
            s.chip.slotTook t.chip m.val x {})) ∧
        (∀ i < 8, (∀ j < 8, s.chip.get MC_KDATA_KEY ctl j < 2 ^ 32) →
          (s.chip.stagedKey m.val).toNat / 2 ^ (32 * i) % 2 ^ 32 = s.chip.get MC_KDATA_KEY ctl i) ∧
        Completes (.keyTreekey w m) s (fun t => s.performed t ∧ s.chip.keyEnded t.chip m.val 4 0 0 [MC_TREESTS_KEYOK.key ctl 0] ∧
          t.chip.get MC_TREESTS_KEYOK ctl = 1 ∧ s.chip.onlyEngine t.chip m.val ∧
          t.chip.crypto m.val = { s.chip.crypto m.val with treeKey := some (s.chip.stagedKey m.val) }) ∧
        (∀ a b, a = s.chip.get MC_RKSTARTH_ADDR ctl * 2 ^ 32 + s.chip.get MC_RKSTARTL_ADDR ctl * 4096 →
          b = a + 4096 * (s.chip.get MC_RKLEN_GROUPS ctl + 1) - 1 →
          ∀ io ∈ [(Instr.keyGrpfree w m, 5, false), (.keyGrpinit w m, 6, true)],
          (2 ^ 42 ≤ b → Completes io.1 s fun t => s.performed t ∧ s.chip.onlyRegs t.chip ∧ s.chip.keyEnded t.chip m.val io.2.1 0 3 []) ∧
          (∀ r, b < 2 ^ 42 → (s.chip.crypto m.val).rekey = some r → a ≤ r.last → r.first ≤ b →
            Completes io.1 s fun t => s.performed t ∧ s.chip.onlyRegs t.chip ∧ s.chip.keyEnded t.chip m.val io.2.1 0 4 []) ∧
          (∀ q g, b < 2 ^ 42 → (∀ r, (s.chip.crypto m.val).rekey = some r → r.last < a ∨ b < r.first) → s.chip.quietMemory →
            s.chip.portOf a = some q → q / 4 = m.val → g = s.chip.groupAt q a → s.chip.node q 8 (g / 8 ^ 8) = none →
            s.chip.poisonedGroup q g = false → s.chip.memLink q = true → s.chip.freePtag q ≠ none →
            Completes io.1 s fun t => s.performed t ∧ s.chip.keyEnded t.chip m.val io.2.1 0 0 [MC_KCMD_BUSY.key ctl 0] ∧
              t.chip.get MC_KCMD_BUSY ctl = 1 ∧
              t.chip.crypto m.val = { s.chip.crypto m.val with grp := some { init := io.2.2, next := a + 4096, last := b } } ∧
              s.chip.pmpAsked t.chip q (nodeAddr 8 (g / 8 ^ 8)) (.node s.chip.mem.nextOp 8 (g / 8 ^ 8))
                { id := 0, kind := .grp io.2.2, addr := a, port := q, slot := 0 } ∧
              t.chip = { s.chip with
                regs := t.chip.regs, mem := { s.chip.mem with crypto := t.chip.mem.crypto, ops := t.chip.mem.ops, nextOp := s.chip.mem.nextOp + 1, pmp := t.chip.mem.pmp, out := t.chip.mem.out } })))) ∧
    (s.reaches w slots (MC_KSLOT_RIGHTS.off + MC_KSLOT_RIGHTS.stride * x) → Completes (.keyRightsWrite w m slot rights) s fun t =>
      s.performed t ∧ t.chip.get MC_KSLOT_RIGHTS slots x = rights.toNat ∧
      s.chip.fieldsKept t.chip [MC_KSLOT_RIGHTS.key slots x] ∧ s.chip.onlyRegs t.chip) ∧
    (s.reaches w ctl (MC_PSNA_VALID.off + MC_PSNA_VALID.stride * n.val) → Completes (.poisonClear w m n) s fun t => s.performed t ∧
      t.chip.get MC_PSNA_VALID ctl n.val = 0 ∧ s.chip.fieldsKept t.chip [MC_PSNA_VALID.key ctl n.val] ∧ s.chip.onlyRegs t.chip) ∧
    (s.reaches w ctl MC_CTL_SAVE.off →
      (s.chip.savesAtOnce m.val → Completes (.stateSave w m v) s fun t => s.performed t ∧
        t.chip.get MC_CTL_PERSIST ctl = v.toNat % 2 ∧ s.chip.fieldsKept t.chip [MC_CTL_PERSIST.key ctl 0] ∧
        s.chip.recordSaved t.chip m.val (s.chip.crypto m.val).rekey ∧ t.chip.crypto m.val = { s.chip.crypto m.val with saving := false } ∧
        t.chip = { s.chip with
          regs := t.chip.regs, mem := { s.chip.mem with crypto := t.chip.mem.crypto, recs := t.chip.mem.recs } }) ∧
      (s.chip.mem.ops = [] → (∀ e < 2, e ≠ m.val → (s.chip.crypto e).saving = false) → (s.chip.crypto m.val).bg = [] →
        (s.chip.crypto m.val).begins = none → (∀ r ∈ s.chip.mem.pmp, r.dead = false → ∀ l i, r.use ≠ .back l i) →
        s.chip.dirtyLines m.val ≠ [] → (∀ d ∈ s.chip.dirtyLines m.val, d.2.1 ≤ 8 ∧ s.chip.memLink d.1 = false) →
        Completes (.stateSave w m v) s fun t => s.performed t ∧ t.chip.mem.recs = s.chip.mem.recs ∧
          t.chip.crypto m.val = { s.chip.crypto m.val with saving := false } ∧ (s.chip.mayReport ctl 11 → t.chip.reported ctl 11) ∧
          s.chip.fieldsKept t.chip [MC_CTL_PERSIST.key ctl 0] ∧
          t.chip = { s.chip with
            regs := t.chip.regs, flt := t.chip.flt, mem := { s.chip.mem with crypto := t.chip.mem.crypto } })) ∧
    (∀ q, q = 4 * m.val + k.val → s.reaches w ctl MC_TREECTL_INIT.off →
      ((s.chip.crypto m.val).treeKey = none ∨ s.chip.run (pgML q) = false ∨ s.chip.mem.maps.lookup q = none →
        Completes (.treeInit w m k) s fun t => s.performed t ∧ t.chip.get PG_STS_WIGN ctl = 1 ∧
          s.chip.fieldsKept t.chip [PG_STS_WIGN.key ctl 0] ∧ s.chip.onlyRegs t.chip) ∧
      ((s.chip.crypto m.val).treeKey ≠ none → s.chip.run (pgML q) = true → s.chip.mem.maps.lookup q ≠ none →
        (s.chip.treeState q = 1 → exec (.treeInit w m k) s = .next { s with code := 0 }) ∧
        (s.chip.treeState q ≠ 1 → s.chip.nodesAt q 0 ≠ 0 → Completes (.treeInit w m k) s fun t => s.performed t ∧
          (∀ l < 16, ∀ i < 2 ^ 27, t.chip.node q l i = none) ∧
          (∀ e, t.chip.crypto e = if e = m.val then { s.chip.crypto e with cache := (t.chip.crypto e).cache, bg := (t.chip.crypto e).bg }
            else s.chip.crypto e) ∧ s.chip.fieldsKept t.chip [MC_TREESTS_STATE.key ctl 0] ∧
          (∀ p, p / 4 = m.val → p ≠ q → t.chip.treeState p = s.chip.treeState p) ∧
          (s.chip.memLink q = false → t.chip.treeState q = 0 ∧ t.chip.mem.pmp = s.chip.mem.pmp) ∧
          (∀ tag, s.chip.memLink q = true → s.chip.freePtag q = some tag → t.chip.treeState q = 1 ∧
            t.chip.mem.pmp = s.chip.mem.pmp ++ [{
              port := q, tag := tag, type := 2, count := min 64 (s.chip.nodesAt q 0), use := .init 0 (min 64 (s.chip.nodesAt q 0)) }] ∧
            t.chip.mem.out.drop s.chip.mem.out.length = (pmpFlit 2 tag (min 64 (s.chip.nodesAt q 0)) 0x8000000000 ::
              pmpData ((List.range (min 64 (s.chip.nodesAt q 0))).map fun i =>
                storedLine 0 ((s.chip.nodeTag q 0 i 0 0).getD 0))).map fun f => (s.chip.get ML_CTL_LPORT (pgML q), f)) ∧
          t.chip = { s.chip with
            regs := t.chip.regs, mem := { s.chip.mem with crypto := t.chip.mem.crypto, pmp := t.chip.mem.pmp, out := t.chip.mem.out } }))) ∧
    (∀ a b y, s.reaches w ctl MC_RKCTL_GO.off → a = s.chip.get MC_RKSTARTH_ADDR ctl * 2 ^ 32 + s.chip.get MC_RKSTARTL_ADDR ctl * 4096 →
      b = a + 4096 * (s.chip.get MC_RKLEN_GROUPS ctl + 1) - 1 → y = v.toNat % 256 →
      ((s.chip.crypto m.val).rekey ≠ none ∨ (s.chip.crypto m.val).begins ≠ none ∨ y = 0 ∨ s.chip.get MC_KSLOT_STATE slots y ≠ 1 ∨
          ((s.chip.crypto m.val).slot y).new = none ∨ 2 ^ 42 ≤ b → Completes (.rekeyGo w m v) s fun t => s.performed t ∧
        t.chip.get PG_STS_WIGN ctl = 1 ∧ t.chip.get MC_RKCTL_SLOT ctl = y ∧ t.chip.get MC_RKCTL_RATE ctl = v.toNat / 2 ^ 16 % 64 ∧
        s.chip.fieldsKept t.chip [PG_STS_WIGN.key ctl 0, MC_RKCTL_SLOT.key ctl 0, MC_RKCTL_RATE.key ctl 0] ∧ s.chip.onlyRegs t.chip) ∧
      (∀ r : Rekey, r = { slot := y, first := a, last := b, bnd := a, sure := 0 } → (s.chip.crypto m.val).rekey = none →
        s.chip.savesAtOnce m.val → y ≠ 0 → s.chip.get MC_KSLOT_STATE slots y = 1 → ((s.chip.crypto m.val).slot y).new ≠ none → b < 2 ^ 42 →
        Completes (.rekeyGo w m v) s fun t => s.performed t ∧ s.chip.recordSaved t.chip m.val (some r) ∧
          t.chip.crypto m.val = { s.chip.crypto m.val with saving := false, rekey := some r } ∧
          t.chip.get MC_RKCTL_SLOT ctl = y ∧ t.chip.get MC_KSLOT_STATE slots y = 2 ∧ t.chip.get MC_RKSTS_STATE ctl = 1 ∧ t.chip.get MC_RKSTS_SLOT ctl = y ∧
          t.chip.get MC_RKBNDL_ADDR ctl = a / 64 % 2 ^ 26 ∧ t.chip.get MC_RKBNDH_ADDR ctl = a / 2 ^ 32 % 2 ^ 10 ∧
          s.chip.fieldsKept t.chip [MC_RKCTL_SLOT.key ctl 0, MC_RKCTL_RATE.key ctl 0, MC_KSLOT_STATE.key slots y, MC_RKSTS_STATE.key ctl 0,
            MC_RKSTS_SLOT.key ctl 0, MC_RKBNDL_ADDR.key ctl 0, MC_RKBNDH_ADDR.key ctl 0] ∧
          t.chip = { s.chip with
            regs := t.chip.regs, mem := { s.chip.mem with crypto := t.chip.mem.crypto, recs := t.chip.mem.recs } }))

/-- The rekey engine reads the line at its boundary and keeps it as its one operation; where the boundary lies on no
port of its engine it moves on to the next group, with a checkpoint at every MiB of the range, and at the end of the
range the new key is in use, GEN has risen and MC_RKDONE is reported. The oldest group under re-encryption reads its
next line. A PMP answer that matches no outstanding request is counted and discarded; one that comes late frees its
PTAG and does nothing else. RDATA of a plaintext line answers the line, or answers ERR_ECC and reports MC_UE where
it cannot be corrected; WACK answers a written line; INFO starts the port with its map, or refuses it. A request
that times out is reported, keeps its PTAG, and its line is answered with ERR_LINK. A copy of the root that
disagrees is reported; a vote without a value fails the port. (14_memory_ports_and_encryption.md) -/
def Obligations.MemoryLinesAndAnswers : Prop :=
  ∀ (m : Fin 2) (q : Fin 8) (tag : Fin 1024) (failed : Bool) (h : BitVec 512) (ds : List (BitVec 512)) (s : State)
      (ctl slots port tg : Nat), ctl = pgMC m.val 0 → slots = pgMC m.val 1 → port = pgML q.val → tg = bitsOf h.toNat 17 8 →
    ((s.chip.crypto m.val).rekey = none ∨ s.chip.works ctl = false ∨ s.chip.stepsRun = false ∨
        (∃ o ∈ s.chip.mem.ops, o.kind = .rekey ∧ o.port / 4 = m.val) → exec (.rekeyLine m) s = .next s) ∧
    (∀ r next log, (s.chip.crypto m.val).rekey = some r → s.chip.works ctl = true → s.chip.stepsRun = true →
      (∀ o ∈ s.chip.mem.ops, o.kind = .rekey → o.port / 4 ≠ m.val) → next = (r.bnd / 4096 + 1) * 4096 →
      log = (s.chip.mem.log.lookup m.val).getD [] →
      ((∀ p, s.chip.portOf r.bnd = some p → p / 4 ≠ m.val) → Completes (.rekeyLine m) s fun t => s.device t ∧
        t.chip.mem.log.lookup m.val = (if (next - r.first) / 2 ^ 20 = (r.bnd - r.first) / 2 ^ 20 then s.chip.mem.log.lookup m.val
          else some ((if 2048 ≤ log.length then [] else log) ++ [(r.slot, s.chip.get MC_KSLOT_GEN slots r.slot, next)])) ∧
        t.chip.get MC_RKBNDL_ADDR ctl = next / 64 % 2 ^ 26 ∧ t.chip.get MC_RKBNDH_ADDR ctl = next / 2 ^ 32 % 2 ^ 10 ∧
        (next ≤ r.last → t.chip.crypto m.val = { s.chip.crypto m.val with rekey := some { r with bnd := next } } ∧
          t.chip.get MC_RKSTS_STATE ctl = (if next < r.sure then 2 else 1) ∧ t.chip.flt = s.chip.flt ∧
          s.chip.fieldsKept t.chip
            [MC_RKBNDL_ADDR.key ctl 0, MC_RKBNDH_ADDR.key ctl 0, MC_RKSTS_SLOT.key ctl 0, MC_RKSTS_STATE.key ctl 0]) ∧
        (r.last < next → (t.chip.crypto m.val).rekey = none ∧
          (∀ x, (t.chip.crypto m.val).slot x = if x = r.slot then
            { key := ((s.chip.crypto m.val).slot r.slot).new.getD ((s.chip.crypto m.val).slot r.slot).key, new := none }
            else (s.chip.crypto m.val).slot x) ∧
          t.chip.get MC_KSLOT_STATE slots r.slot = 1 ∧
          t.chip.get MC_KSLOT_GEN slots r.slot = (s.chip.get MC_KSLOT_GEN slots r.slot + 1) % 256 ∧
          t.chip.get MC_RKSTS_STATE ctl = 0 ∧ (s.chip.mayReport ctl 9 → t.chip.reported ctl 9)) ∧
        t.chip = { s.chip with
          regs := t.chip.regs, flt := t.chip.flt, mem := { s.chip.mem with crypto := t.chip.mem.crypto, log := t.chip.mem.log } }) ∧
      (∀ p, s.chip.portOf r.bnd = some p → p / 4 = m.val → s.chip.quietMemory → (s.chip.crypto m.val).bg = [] →
        s.chip.poisonedGroup p (s.chip.groupAt p r.bnd) = false → s.chip.memLink p = true → s.chip.freePtag p ≠ none →
        Completes (.rekeyLine m) s fun t => s.device t ∧
          s.chip.pmpAsked t.chip p (s.chip.localOf p r.bnd) (.data s.chip.mem.nextOp)
            { id := 0, kind := .rekey, addr := r.bnd, port := p, slot := r.slot } ∧
          t.chip = { s.chip with mem := { s.chip.mem with
            ops := t.chip.mem.ops, nextOp := s.chip.mem.nextOp + 1, pmp := t.chip.mem.pmp, out := t.chip.mem.out } })) ∧
    ((s.chip.crypto m.val).bg = [] ∨ s.chip.works ctl = false ∨ s.chip.stepsRun = false ∨
        (∃ o ∈ s.chip.mem.ops, o.kind = .bg ∧ o.port / 4 = m.val) → exec (.bgReencryptLine m) s = .next s) ∧
    (∀ b i a, (s.chip.crypto m.val).bg.head? = some b → b.left.head? = some i → s.chip.works ctl = true → s.chip.stepsRun = true →
      a = s.chip.deviceOf b.port (4096 * b.group + 64 * i) → s.chip.quietMemory →
      s.chip.poisonedGroup b.port (s.chip.groupAt b.port a) = false → s.chip.memLink b.port = true → s.chip.freePtag b.port ≠ none →
      Completes (.bgReencryptLine m) s fun t => s.device t ∧
        s.chip.pmpAsked t.chip b.port (s.chip.localOf b.port a) (.data s.chip.mem.nextOp)
          { id := 0, kind := .bg, addr := a, port := b.port, slot := b.slot } ∧
        t.chip = { s.chip with mem := { s.chip.mem with
          ops := t.chip.mem.ops, nextOp := s.chip.mem.nextOp + 1, pmp := t.chip.mem.pmp, out := t.chip.mem.out } }) ∧
    (∀ io ∈ [(Instr.rdata q, 3, 1), (.wack q, 4, 2), (.info q, 6, 5)],
      (s.chip.stepsRun = false ∨ s.chip.portUse (s.chip.get ML_CTL_LPORT port) ≠ 2 ∨
          (∀ x l, (s.chip.portSt (s.chip.get ML_CTL_LPORT port)).inbox.head? = some (x :: l) → pmpType x ≠ io.2.1) →
        exec io.1 s = .next s) ∧
      (s.chip.answerAt q.val io.2.1 h ds →
        ((∀ r, s.chip.pmpOf q.val tg = some r → r.type ≠ io.2.2 ∨ (r.dead = true ∧ r.tillUp = true)) → Completes io.1 s fun t =>
          s.device t ∧ s.chip.answerTaken t.chip q.val ∧
          t.chip.get ML_ERRCNT_PROTO port = satInc 65535 (s.chip.get ML_ERRCNT_PROTO port) % 65536 ∧
          s.chip.fieldsKept t.chip [ML_ERRCNT_PROTO.key port 0] ∧ t.chip = { s.chip with regs := t.chip.regs, link := t.chip.link }) ∧
        (∀ r, s.chip.pmpOf q.val tg = some r → r.type = io.2.2 → r.dead = true → r.tillUp = false → Completes io.1 s fun t =>
          s.device t ∧ s.chip.answerTaken t.chip q.val ∧ t.chip = { s.chip with
            link := t.chip.link, mem := { s.chip.mem with pmp := s.chip.mem.pmp.filter fun x => !(x.port == q.val && x.tag == tg) } }))) ∧
    (∀ r, s.chip.pmpOf q.val tg = some r → r.dead = false →
      (∀ a o, s.chip.lineOf a o →
        (s.chip.answerAt q.val 3 h ds → r.type = 1 → r.use = .data o.id → o.kind = .read false → o.slot = 0 → o.ecc = false →
          a.req.op = .read → (s.chip.crypto (o.port / 4)).rekey = none → ∀ got, got = (if h.getLsbD 64 then none else
            lineDecode ((pmpLines (bitsOf h.toNat 23 18 + 1) ds).headD 0)) → Completes (.rdata q) s fun t => s.device t ∧
              s.chip.answerTaken t.chip q.val ∧ t.chip.mem.ops = [] ∧
              t.chip.mem.pmp = s.chip.mem.pmp.filter (fun x => !(x.port == q.val && x.tag == tg)) ∧
              (got = none → (s.chip.mayReport (mcOf q.val) 1 → t.chip.reported (mcOf q.val) 1) ∧
                (s.chip.routed a.dstNi a.ni a.rvar → a.answeredIn t.chip [errEcc] fun _ => True)) ∧
              (∀ x tag0 fixed, got = some (x, tag0, fixed) →
                (fixed = true → (s.chip.mayReport (mcOf q.val) 0 → t.chip.reported (mcOf q.val) 0) ∧
                  t.chip.get ML_ERRCNT_CE port = satInc 65535 (s.chip.get ML_ERRCNT_CE port) % 65536) ∧
                (s.chip.routed a.dstNi a.ni a.rvar → a.answeredIn t.chip [0] fun p => p.data = [x]))) ∧
        (s.chip.answerAt q.val 4 h ds → r.type = 2 → r.use = .store o.id → (∃ d k, o.kind = .write d k) →
          ∀ bad, bad = decide (bitsOf h.toNat 127 64 % 2 ^ r.count ≠ 0) → Completes (.wack q) s fun t => s.device t ∧
            s.chip.answerTaken t.chip q.val ∧ t.chip.mem.ops = [] ∧
            t.chip.mem.pmp = s.chip.mem.pmp.filter (fun x => !(x.port == q.val && x.tag == tg)) ∧
            (bad = true → o.dst ≠ 0 → s.chip.mayReport (mcOf q.val) 1 → t.chip.reported (mcOf q.val) 1) ∧
            (s.chip.routed a.dstNi a.ni a.rvar → a.answeredIn t.chip [if bad then errEcc else 0] fun _ => True))) ∧
      (s.chip.answerAt q.val 6 h ds → r.type = 5 → q.val ∈ s.chip.mem.starting → Completes (.info q) s fun t => s.device t ∧
        s.chip.answerTaken t.chip q.val ∧
        (s.chip.get ML_SIZE_GIB port ≤ bitsOf h.toNat 72 64 → h.getLsbD 80 = true → t.chip.get PG_STS_RUNNING port = 1 ∧
          s.chip.fieldsKept t.chip [PG_STS_RUNNING.key port 0] ∧ t.chip.flt = s.chip.flt ∧
          ∀ p, t.chip.mem.maps.lookup p = if p = q.val then (if s.chip.get ML_CTL_MAPEN port = 1 then
            some {
              base := s.chip.get ML_BASE_GIB port, size := s.chip.get ML_SIZE_GIB port + 1, ways := s.chip.get ML_CTL_WAYS port + 1, pos := s.chip.get ML_CTL_POS port } else none) else s.chip.mem.maps.lookup p) ∧
        (bitsOf h.toNat 72 64 < s.chip.get ML_SIZE_GIB port ∨ h.getLsbD 80 = false → t.chip.get PG_CTL_RUN port = 0 ∧
          t.chip.get ML_STS_CAPERR port = 1 ∧ (s.chip.mayReport port 2 → t.chip.reported port 2) ∧
          s.chip.fieldsKept t.chip [PG_CTL_RUN.key port 0, ML_STS_CAPERR.key port 0] ∧ t.chip.mem.maps = s.chip.mem.maps) ∧
        t.chip = { s.chip with
          regs := t.chip.regs, flt := t.chip.flt, link := t.chip.link, mem := { s.chip.mem with
            maps := t.chip.mem.maps, starting := s.chip.mem.starting.filter (· != q.val), pmp := s.chip.mem.pmp.filter fun x => !(x.port == q.val && x.tag == tg) } })) ∧
    (s.chip.stepsRun = false ∨ (∀ r, s.chip.pmpOf q.val tag.val = some r → r.dead = true) → exec (.pmpTimeout q tag) s = .next s) ∧
    (∀ r, s.chip.pmpOf q.val tag.val = some r → r.dead = false → s.chip.stepsRun = true → q.val ∉ s.chip.mem.starting →
      (∀ i a o, r.use = .data i ∨ r.use = .store i → s.chip.lineOf a o → o.id = i → (∃ d k, o.kind = .write d k) ∨ o.kind = .read false →
        Completes (.pmpTimeout q tag) s fun t => s.device t ∧ t.chip.mem.ops = [] ∧
          t.chip.mem.pmp = s.chip.mem.pmp.map (fun x => if x.port = q.val ∧ x.tag = tag.val then { x with dead := true } else x) ∧
          (s.chip.mayReport port 1 → t.chip.reported port 1) ∧
          (s.chip.routed a.dstNi a.ni a.rvar → a.answeredIn t.chip [errLink] fun _ => True)) ∧
      (∀ l i, r.use = .init l i → s.chip.quietMemory → Completes (.pmpTimeout q tag) s fun t => s.device t ∧ t.chip.treeState q.val = 0 ∧
        (s.chip.mayReport port 1 → t.chip.reported port 1) ∧ s.chip.fieldsKept t.chip [MC_TREESTS_STATE.key (mcOf q.val) 0] ∧
        t.chip = { s.chip with
          regs := t.chip.regs, flt := t.chip.flt, mem := { s.chip.mem with
            pmp := s.chip.mem.pmp.map fun x => if x.port = q.val ∧ x.tag = tag.val then { x with dead := true } else x } })) ∧
    (s.chip.domOn (76 + q.val / 4) = false ∨ s.chip.stepsRun = false → exec (.rootCopyVote q failed) s = .next s) ∧
    (s.chip.domOn (76 + q.val / 4) = true → s.chip.stepsRun = true →
      (Completes (.rootCopyVote q false) s fun t => s.device t ∧ (s.chip.mayReport (mcOf q.val) 6 → t.chip.reported (mcOf q.val) 6) ∧
        t.chip = { s.chip with flt := t.chip.flt }) ∧
      Completes (.rootCopyVote q true) s fun t => s.device t ∧ (s.chip.mayReport (mcOf q.val) 7 → t.chip.reported (mcOf q.val) 7) ∧
        t.chip.treeState q.val = 3 ∧ (∀ p, p / 4 = q.val / 4 → p ≠ q.val → t.chip.treeState p = s.chip.treeState p) ∧
        s.chip.fieldsKept t.chip [MC_TREESTS_STATE.key (mcOf q.val) 0] ∧ s.chip.onlyRegsFaults t.chip)

/-- A quad loop locks, and a lane gains lock, when the page works and REFCLK is qualified, and not otherwise; a port all
of whose lanes then hold lock leaves DOWN for LOCK. A lane that loses lock is marked and reported unless it is off
or the far end glides; a port that is UP sheds to the widest, then lowest, group of lanes still locked, or goes
DOWN. A power request moves the lane into its transition, or waits for the one in progress, and the end of a
transition reaches the requested state. A ring is enabled with its pointers at 0, or refused with a code. A received
line goes into the RX ring, or is dropped and counted where there is no room. EN starts a port whose configuration
is good and sets CFGERR on another. (15_serial_lanes_links_host_port.md) -/
def Obligations.LanesAndRings : Prop :=
  ∀ (q : Fin 16) (l : Fin 64) (w : Who) (r : BitVec 2) (tx : Bool) (d : BitVec 512) (s : State) (pg k : Nat), pg = pgLN (l.val / 4) →
      k = l.val % 4 →
    ((s.chip.running (pgLN q.val) && s.chip.domOn (domOf (pgLN q.val)) && s.chip.get CK_STS_REFST pgCK == 2 &&
        !(quadLanes q.val).all s.chip.laneDark) = false → exec (.quadLoopLock q) s = .next s) ∧
    (s.chip.running (pgLN q.val) = true → s.chip.domOn (domOf (pgLN q.val)) = true → s.chip.get CK_STS_REFST pgCK = 2 →
      (∃ x < 4, s.chip.laneDark (4 * q.val + x) = false) → Completes (.quadLoopLock q) s fun t => s.device t ∧
        t.chip.get LN_QSTS_LOCKED (pgLN q.val) = 1 ∧ s.chip.fieldsKept t.chip [LN_QSTS_LOCKED.key (pgLN q.val) 0] ∧
        s.chip.onlyRegs t.chip) ∧
    (s.chip.laneWorks l.val = false ∨ s.chip.get CK_STS_REFST pgCK ≠ 2 → exec (.laneLock l) s = .next s) ∧
    (s.chip.laneWorks l.val = true → s.chip.get CK_STS_REFST pgCK = 2 → Completes (.laneLock l) s fun t => s.device t ∧
      t.chip.get LN_LSTS_LOCK pg k = 1 ∧
      (∀ p < 16, (p ∈ s.chip.portsOn l.val → s.chip.portState p = 0 → s.chip.get LN_PCTL_EN (pgLN p) = 1 → s.chip.portRuns p = true →
          (∀ x ∈ s.chip.portLanes p, t.chip.laneLock x = true) → s.chip.portUse p ≠ 0 → t.chip.portState p = 1 ∧
            t.chip.get LN_PSTS_CURBASE (pgLN p) = s.chip.get LN_PCFG_BASE (pgLN p) % 64 ∧
            t.chip.get LN_PSTS_CURW (pgLN p) = s.chip.get LN_PCFG_WIDTH (pgLN p) % 4) ∧
        (p ∉ s.chip.portsOn l.val ∨ s.chip.portState p ≠ 0 ∨ s.chip.get LN_PCTL_EN (pgLN p) ≠ 1 ∨ s.chip.portRuns p = false ∨
          (∃ x ∈ s.chip.portLanes p, t.chip.laneLock x = false) ∨ s.chip.portUse p = 0 →
          t.chip.portState p = s.chip.portState p)) ∧
      s.chip.fieldsKept t.chip (LN_LSTS_LOCK.key pg k :: (List.range 16).flatMap fun p =>
        [LN_PSTS_STATE.key (pgLN p) 0, LN_PSTS_CURBASE.key (pgLN p) 0, LN_PSTS_CURW.key (pgLN p) 0]) ∧ s.chip.onlyRegs t.chip) ∧
    (s.chip.laneLock l.val = false → exec (.laneLockLoss l) s = .next s) ∧
    (s.chip.laneLock l.val = true →
      ((∃ p ∈ s.chip.portsOn l.val, (s.chip.portSt p).farGlide = true) → Completes (.laneLockLoss l) s fun t => s.device t ∧
        t.chip.get LN_LSTS_LOCK pg k = 0 ∧ s.chip.fieldsKept t.chip [LN_LSTS_LOCK.key pg k] ∧
        (∀ x, t.chip.laneSt x = if x = l.val then { s.chip.laneSt x with mark := true } else s.chip.laneSt x) ∧
        t.chip = { s.chip with regs := t.chip.regs, link := { s.chip.link with lane := t.chip.link.lane } }) ∧
      ((∀ p ∈ s.chip.portsOn l.val, (s.chip.portSt p).farGlide = false ∧ (s.chip.portState p = 0 ∨
          (s.chip.portState p = 3 ∧ l.val ∉ s.chip.portNow p))) → Completes (.laneLockLoss l) s fun t => s.device t ∧
        t.chip.get LN_LSTS_LOCK pg k = 0 ∧
        t.chip.get LN_LSTS_LOSS pg k = (if s.chip.get LN_LPWR_STATE pg k < 2 ∧ s.chip.get LN_LCFG_MODE pg k ≠ 0 then 1
          else s.chip.get LN_LSTS_LOSS pg k) ∧
        (s.chip.get LN_LPWR_STATE pg k < 2 → s.chip.get LN_LCFG_MODE pg k ≠ 0 → s.chip.mayReport pg 2 → t.chip.reported pg 2) ∧
        s.chip.fieldsKept t.chip [LN_LSTS_LOCK.key pg k, LN_LSTS_LOSS.key pg k] ∧
        (∀ x, t.chip.laneSt x = if x = l.val then { s.chip.laneSt x with mark := true } else s.chip.laneSt x) ∧
        t.chip = { s.chip with regs := t.chip.regs, flt := t.chip.flt, link := { s.chip.link with lane := t.chip.link.lane } }) ∧
      (∀ p cur wd, s.chip.portsOn l.val = [p] → (s.chip.portSt p).farGlide = false → cur = s.chip.get LN_PSTS_CURBASE (pgLN p) →
        wd = s.chip.get LN_PSTS_CURW (pgLN p) →
        (s.chip.portState p = 3 → l.val ∈ s.chip.portNow p → Completes (.laneLockLoss l) s fun t => s.device t ∧
          (∀ e i, t.chip.lockedGroup cur wd e i → (∀ e' i', t.chip.lockedGroup cur wd e' i' → e' < e ∨ (e' = e ∧ i ≤ i')) →
            t.chip.get LN_LSTS_LOCK pg k = 0 ∧ t.chip.get LN_PSTS_CURW (pgLN p) = e % 4 ∧
            t.chip.get LN_PSTS_CURBASE (pgLN p) = (cur + i * 2 ^ e) % 64 ∧
            t.chip.get LN_PSTS_SHED (pgLN p) = 1 ∧ t.chip.portState p = 3 ∧ (s.chip.mayReport (pgLN p) 6 → t.chip.reported (pgLN p) 6) ∧
            t.chip.portSt p = { s.chip.portSt p with shedding := true, ctype := 4 } ∧
            s.chip.fieldsKept t.chip [LN_LSTS_LOCK.key pg k, LN_LSTS_LOSS.key pg k, LN_PSTS_CURW.key (pgLN p) 0,
              LN_PSTS_CURBASE.key (pgLN p) 0, LN_PSTS_SHED.key (pgLN p) 0]) ∧
          ((∀ e i, ¬t.chip.lockedGroup cur wd e i) → s.chip.portUse p = 3 → t.chip.get LN_LSTS_LOCK pg k = 0 ∧ t.chip.portState p = 0 ∧ (t.chip.portSt p).sent = [] ∧
            (t.chip.portSt p).queue = [] ∧ (s.chip.stepsRun = true → s.chip.mayReport (pgLN p) 5 → t.chip.reported (pgLN p) 5))) ∧
        (s.chip.portState p = 1 ∨ s.chip.portState p = 2 → Completes (.laneLockLoss l) s fun t => s.device t ∧
          t.chip.get LN_LSTS_LOCK pg k = 0 ∧ t.chip.portState p = 0 ∧
          s.chip.fieldsKept t.chip [LN_LSTS_LOCK.key pg k, LN_LSTS_LOSS.key pg k, LN_PSTS_STATE.key (pgLN p) 0]))) ∧
    (s.reaches w pg (LN_LPWR_REQ.off + LN_LPWR_REQ.stride * k) →
      (r = 3 → exec (.lanePowerRequest w l r) s = .next { s with code := 0 }) ∧
      (∀ now goal, r ≠ 3 → now = s.chip.get LN_LPWR_STATE pg k →
        goal = (if (∃ p ∈ s.chip.portsOn l.val, s.chip.get LN_PCFG_AUTOGLIDE (pgLN p) = 1) ∧ r ≠ 2 then (if now = 2 then 0 else now)
          else r.toNat) →
        (now = 3 ∨ now = goal → Completes (.lanePowerRequest w l r) s fun t => s.performed t ∧ t.chip.get LN_LPWR_REQ pg k = r.toNat ∧
          s.chip.fieldsKept t.chip [LN_LPWR_REQ.key pg k] ∧ s.chip.onlyRegs t.chip) ∧
        (now ≠ 3 → now ≠ goal → goal ≠ 2 ∨ s.chip.portsOn l.val = [] → Completes (.lanePowerRequest w l r) s fun t => s.performed t ∧
          t.chip.get LN_LPWR_REQ pg k = r.toNat ∧ t.chip.get LN_LPWR_STATE pg k = 3 ∧
          t.chip.laneLock l.val = (decide (goal ≠ 2) && s.chip.laneLock l.val) ∧
          s.chip.fieldsKept t.chip [LN_LPWR_REQ.key pg k, LN_LPWR_STATE.key pg k, LN_LSTS_LOCK.key pg k] ∧
          (∀ x, t.chip.laneSt x = if x = l.val then { s.chip.laneSt x with target := goal } else s.chip.laneSt x) ∧
          t.chip = { s.chip with regs := t.chip.regs, link := { s.chip.link with lane := t.chip.link.lane } }))) ∧
    (s.chip.get LN_LPWR_STATE pg k ≠ 3 → exec (.lanePowerDone l) s = .next s) ∧
    (∀ goal req, s.chip.get LN_LPWR_STATE pg k = 3 → s.chip.portsOn l.val = [] → goal = (s.chip.laneSt l.val).target → goal < 3 →
      req = s.chip.get LN_LPWR_REQ pg k → Completes (.lanePowerDone l) s fun t => s.device t ∧
        t.chip.get LN_LPWR_STATE pg k = (if req = goal then goal else 3) ∧
        t.chip.get LN_QSTS_LOCKED pg = (if (s.chip.get LN_LCFG_MODE pg k = 0 ∨ goal = 2) ∧
            ((quadLanes (l.val / 4)).all fun x => x == l.val || s.chip.laneDark x) = true then 0 else s.chip.get LN_QSTS_LOCKED pg) ∧
        (∀ x, t.chip.laneSt x = if x = l.val ∧ req ≠ goal then { s.chip.laneSt x with target := req } else s.chip.laneSt x) ∧
        s.chip.fieldsKept t.chip [LN_LPWR_STATE.key pg k, LN_QSTS_LOCKED.key pg 0, LN_LSTS_LOCK.key pg k] ∧
        t.chip.laneLock l.val = (decide (req = goal ∨ req ≠ 2) && s.chip.laneLock l.val) ∧
        t.chip = { s.chip with regs := t.chip.regs, link := { s.chip.link with lane := t.chip.link.lane } }) ∧
    (∀ EN PTR OWN : Fld, EN = (if tx then LN_RINGCTL_TXEN else LN_RINGCTL_RXEN) → PTR = (if tx then LN_TXRP_PTR else LN_RXWP_PTR) →
      OWN = (if tx then LN_TXWP_PTR else LN_RXRP_PTR) → s.reaches w pg (LN_RINGCTL_TXEN.off + LN_RINGCTL_TXEN.stride * k) →
      (s.chip.get EN pg k = 1 → exec (.ringEnable w l tx) s = .next { s with code := 0 }) ∧
      (∀ code, s.chip.get EN pg k ≠ 1 → code = s.chip.bufferCheck 58 (s.chip.ringAt l.val tx) (64 * s.chip.ringLines l.val tx) →
        Completes (.ringEnable w l tx) s fun t => s.performed t ∧
          (code ≠ 0 → t.chip.get EN pg k = 0 ∧ t.chip.get LN_RINGCTL_ERR pg k = code % 256 ∧ (s.chip.mayReport pg 4 → t.chip.reported pg 4) ∧
            s.chip.fieldsKept t.chip [EN.key pg k, LN_RINGCTL_ERR.key pg k]) ∧
          (code = 0 → t.chip.get EN pg k = 1 ∧ t.chip.get PTR pg k = 0 ∧ t.chip.get OWN pg k = 0 ∧ t.chip.flt = s.chip.flt ∧
            s.chip.fieldsKept t.chip [EN.key pg k, PTR.key pg k, OWN.key pg k]) ∧
          (∀ x, t.chip.laneSt x = if x = l.val then (if tx then { s.chip.laneSt x with tx := [], txGen := (s.chip.laneSt x).txGen + 1 }
            else { s.chip.laneSt x with rx := [], rxGen := (s.chip.laneSt x).rxGen + 1 }) else s.chip.laneSt x) ∧
          t.chip = { s.chip with regs := t.chip.regs, flt := t.chip.flt, link := { s.chip.link with lane := t.chip.link.lane } })) ∧
    (s.chip.laneWorks l.val = false ∨ s.chip.laneLock l.val = false ∨ s.chip.get LN_LCFG_MODE pg k < 2 ∨ s.chip.accepts pg = false →
      exec (.rxLine l d) s = .next s) ∧
    (∀ x, s.chip.laneWorks l.val = true → s.chip.laneLock l.val = true → 2 ≤ s.chip.get LN_LCFG_MODE pg k → s.chip.accepts pg = true →
      x = s.chip.laneSt l.val →
      Completes (.rxLine l d) s fun t => s.device t ∧ (∀ y, y ≠ l.val → t.chip.laneSt y = s.chip.laneSt y) ∧
        (s.chip.get LN_RINGCTL_RXEN pg k = 0 → t.chip.laneSt l.val = { x with mark := false } ∧
          t.chip = { s.chip with link := { s.chip.link with lane := t.chip.link.lane } }) ∧
        (s.chip.get LN_RINGCTL_RXEN pg k = 1 → s.chip.rxFree l.val = 0 ∨ 8 ≤ x.rx.length →
          t.chip.laneSt l.val = { x with mark := false, ovf := true } ∧
          t.chip.get LN_RXDROP_COUNT pg k = satInc (2 ^ 32 - 1) (s.chip.get LN_RXDROP_COUNT pg k) % 2 ^ 32 ∧
          (x.ovf = false → s.chip.mayReport pg 3 → t.chip.reported pg 3) ∧ (x.ovf = true → t.chip.flt = s.chip.flt) ∧
          s.chip.fieldsKept t.chip [LN_RXDROP_COUNT.key pg k] ∧ t.chip.net = s.chip.net) ∧
        (∀ slot, s.chip.get LN_RINGCTL_RXEN pg k = 1 → s.chip.rxFree l.val ≠ 0 → x.rx.length < 8 → slot = s.chip.rxSlot l.val →
          t.chip.laneSt l.val = { x with mark := false, rx := x.rx ++ [(slot, false)] } ∧ s.chip.sameRegs t.chip ∧
          ∃ y, t.chip.net.want = s.chip.net.want ++ [y] ∧ y.asker = .ringRx l.val slot x.rxGen ∧ y.op = .write ∧
            y.addr = s.chip.ringAt l.val false + 64 * slot ∧ y.len = 1 ∧
            y.lines = [{ data := rxLine (s.chip.get LN_LCFG_MODE pg k) x.mark d, mask := BitVec.allOnes 64 }])) ∧
    (s.reaches w (pgLN q.val) LN_PCTL_EN.off →
      (s.chip.get LN_PCTL_EN (pgLN q.val) = 1 → exec (.portEnable w q) s = .next { s with code := 0 }) ∧
      (s.chip.get LN_PCTL_EN (pgLN q.val) ≠ 1 → Completes (.portEnable w q) s fun t => s.performed t ∧
        t.chip.get LN_PCTL_EN (pgLN q.val) = 1 ∧
        (∀ up, up = (s.chip.running (pgLN q.val) && s.chip.accepts (pgLN q.val) && !(s.chip.portSt q.val).started &&
            s.chip.portUse q.val != 0) →
          (up = false → s.chip.fieldsKept t.chip [LN_PCTL_EN.key (pgLN q.val) 0] ∧ s.chip.onlyRegs t.chip) ∧
          (up = true → s.chip.portConfig q.val = false → t.chip.get LN_PSTS_CFGERR (pgLN q.val) = 1 ∧
            s.chip.fieldsKept t.chip [LN_PCTL_EN.key (pgLN q.val) 0, LN_PSTS_CFGERR.key (pgLN q.val) 0] ∧ s.chip.onlyRegs t.chip) ∧
          (up = true → s.chip.portConfig q.val = true → s.chip.portIs t.chip q.val { s.chip.portSt q.val with started := true } ∧
            t.chip.portState q.val = (if s.chip.portState q.val = 0 ∧ s.chip.portRuns q.val = true ∧
              (∀ x ∈ s.chip.portLanes q.val, s.chip.laneLock x = true) then 1 else s.chip.portState q.val) ∧
            s.chip.fieldsKept t.chip [LN_PCTL_EN.key (pgLN q.val) 0, LN_PSTS_STATE.key (pgLN q.val) 0,
              LN_PSTS_CURBASE.key (pgLN q.val) 0, LN_PSTS_CURW.key (pgLN q.val) 0]))))

/-- A port whose lanes hold lock takes what it receives; one that is not at work, or is not UP for a flit, takes
nothing. A flit with a bad CRC is counted and everything is discarded until the retransmission; the flit that
follows in SEQ reaches the consumer its USE names, and any other is ignored. A control block that fails its check is
counted on its lane; one of another type than the command names does nothing. The first control block that arrives
whole ends LOCK. In an UP port a block gives ACKSEQ and LIMIT. NAK, an applied SHED, SHEDACK and the timeout count
one replay where a flit is not acknowledged. ANNOUNCE takes the far device; the eighth in a row that agrees brings
the port UP, and one that an UP port receives takes it DOWN. GLIDE is noted; an idle port with AUTOGLIDE puts its
lanes into Glide. REWIDEN returns a port all of whose lanes are locked to ANNOUNCE at its configured width.
(15_serial_lanes_links_host_port.md) -/
def Obligations.LinkPortsExchange : Prop :=
  ∀ (p : Fin 16) (w : Who) (b : BitVec 64) (f : BitVec 576) (v : BitVec 32) (s : State) (pg : Nat) (x : PortSt), pg = pgLN p.val →
      x = s.chip.portSt p.val → s.chip.portStill p.val →
    (s.chip.portHears p.val = false ∨ s.chip.portState p.val ≠ 3 → Completes (.linkFlit p f) s fun t => s.device t ∧
      s.chip.portOnly t.chip p.val x) ∧
    (s.chip.portHears p.val = false → ∀ io ∈ controlBlocks p b, Completes io.1 s fun t => s.device t ∧ s.chip.portOnly t.chip p.val x) ∧
    (s.chip.portHears p.val = true → s.chip.portState p.val = 3 →
      ∀ seq ch pay, seq = f.toNat % 256 → ch = bitsOf f.toNat 9 8 → pay = f.extractLsb' 64 512 →
      (flitCrc f ≠ bitsOf f.toNat 63 32 → Completes (.linkFlit p f) s fun t => s.device t ∧
        t.chip.get LN_PERRCNT_CRC pg = satInc 65535 (s.chip.get LN_PERRCNT_CRC pg) % 65536 ∧
        s.chip.fieldsKept t.chip [LN_PERRCNT_CRC.key pg 0] ∧ t.chip.flt = s.chip.flt ∧
        s.chip.portIs t.chip p.val { x with farGlide := false, skip := true, ctype := 1 }) ∧
      (flitCrc f = bitsOf f.toNat 63 32 → ch = 0 ∨ seq ≠ (x.rseq + 1) % 256 ∨ s.chip.portTakes p.val = false →
        Completes (.linkFlit p f) s fun t => s.device t ∧ s.chip.portOnly t.chip p.val { x with farGlide := false }) ∧
      (∀ y : PortSt, flitCrc f = bitsOf f.toNat 63 32 → ch ≠ 0 → seq = (x.rseq + 1) % 256 → s.chip.portTakes p.val = true →
        y = { x with farGlide := false, rseq := seq, skip := false, ctype := if x.ctype = 1 then 0 else x.ctype } →
        (ch ≠ s.chip.portUse p.val → Completes (.linkFlit p f) s fun t => s.device t ∧ s.chip.portOnly t.chip p.val y) ∧
        (ch = 1 → s.chip.portUse p.val = 1 → Completes (.linkFlit p f) s fun t => s.device t ∧
          s.chip.portOnly t.chip p.val { y with inbox := x.inbox ++ [[pay]] }) ∧
        (∀ hd, ch = 2 → s.chip.portUse p.val = 2 → (x.part ++ [pay]).head? = some hd →
          (x.part.length + 1 < pmpFlits hd → Completes (.linkFlit p f) s fun t => s.device t ∧
            s.chip.portOnly t.chip p.val { y with part := x.part ++ [pay] }) ∧
          (pmpFlits hd ≤ x.part.length + 1 → pmpType hd = 3 ∨ pmpType hd = 4 ∨ pmpType hd = 6 →
            Completes (.linkFlit p f) s fun t => s.device t ∧
              s.chip.portOnly t.chip p.val { y with part := [], inbox := x.inbox ++ [x.part ++ [pay]] })) ∧
        (∀ l, ch = 3 → s.chip.portUse p.val = 3 → l = s.chip.get LN_PCFG_BASE pg → Completes (.linkFlit p f) s fun t => s.device t ∧
          t.chip.portSt p.val = y ∧ s.chip.sameRegs t.chip ∧
          ∃ q, t.chip.net.want = s.chip.net.want ++ [q] ∧ q.op = .write ∧
            q.addr = s.chip.ringAt l false + 64 * s.chip.rxSlot l ∧ q.lines = [{ data := pay, mask := BitVec.allOnes 64 }]))) ∧
    (s.chip.portHears p.val = true → ctlOk b = false → ∀ io ∈ controlBlocks p b,
      ∀ l, l = (s.chip.portNow p.val).getD ((10 * bitsOf b.toNat 11 8 + 9) % (s.chip.portNow p.val).length) 0 →
      Completes io.1 s fun t => s.device t ∧
        t.chip.laneGet LN_LERR_COUNT l = satInc (2 ^ 32 - 1) (s.chip.laneGet LN_LERR_COUNT l) % 2 ^ 32 ∧
        s.chip.fieldsKept t.chip [LN_LERR_COUNT.key (lanePg l) (l % 4)] ∧ t.chip.flt = s.chip.flt ∧ s.chip.portIs t.chip p.val x) ∧
    (s.chip.portHears p.val = true → ctlOk b = true → ∀ io ∈ controlBlocks p b, b.toNat % 256 ≠ io.2 →
      Completes io.1 s fun t => s.device t ∧ s.chip.portOnly t.chip p.val x) ∧
    (s.chip.portHears p.val = true → ctlOk b = true →
      (s.chip.portState p.val ≠ 3 → ∀ io ∈ controlBlocks p b, io.2 ≠ 2 → x.shedding = false → b.toNat % 256 = io.2 →
        Completes io.1 s fun t => s.device t ∧ t.chip.get LN_PSTS_STATE pg = (if s.chip.portState p.val = 1 then 2 else s.chip.portState p.val) ∧
          s.chip.fieldsKept t.chip [LN_PSTS_STATE.key pg 0] ∧ t.chip.flt = s.chip.flt ∧ s.chip.portIs t.chip p.val
            { x with ann := 0, farGlide := false, ctype := if s.chip.portState p.val = 1 then 2 else x.ctype }) ∧
      (∀ ann, s.chip.portState p.val ≠ 3 → b.toNat % 256 = 2 → ann = (if s.chip.portState p.val = 1 then 0 else x.ann) →
        ∀ ct, ct = (if s.chip.portState p.val = 1 then 2 else x.ctype) →
        ∀ agrees, agrees = decide (bitsOf b.toNat 33 32 = s.chip.get LN_PSTS_CURW pg ∧ bitsOf b.toNat 44 43 = s.chip.portUse p.val) →
        (agrees = false ∨ ann + 1 < 8 → Completes (.announce p b) s fun t => s.device t ∧ t.chip.get LN_PSTS_RDEV pg = bitsOf b.toNat 42 37 ∧
          t.chip.get LN_PSTS_STATE pg = (if s.chip.portState p.val = 1 then 2 else s.chip.portState p.val) ∧
          s.chip.fieldsKept t.chip [LN_PSTS_STATE.key pg 0, LN_PSTS_RDEV.key pg 0] ∧ t.chip.flt = s.chip.flt ∧
          s.chip.portIs t.chip p.val (if agrees then { x with ann := ann + 1, ctype := ct }
            else { x with ann := 0, farGlide := false, ctype := ct })) ∧
        (agrees = true → 8 ≤ ann + 1 → s.chip.portUse p.val = 1 ∨ s.chip.portUse p.val = 3 → Completes (.announce p b) s fun t =>
          s.device t ∧ t.chip.get LN_PSTS_RDEV pg = bitsOf b.toNat 42 37 ∧ t.chip.portState p.val = 3 ∧
          s.chip.fieldsKept t.chip [LN_PSTS_STATE.key pg 0, LN_PSTS_RDEV.key pg 0] ∧ t.chip.flt = s.chip.flt ∧
          s.chip.portIs t.chip p.val { started := true, limit := bitsOf b.toNat 31 24, inbox := x.inbox })) ∧
      (∀ y : PortSt, s.chip.portState p.val = 3 → y = x.credited b →
        (b.toNat % 256 = 0 → Completes (.ack p b) s fun t => s.device t ∧ s.chip.portOnly t.chip p.val y) ∧
        (b.toNat % 256 = 1 → y.replays < 7 → Completes (.nak p b) s fun t => s.device t ∧ t.chip.flt = s.chip.flt ∧
          s.chip.portIs t.chip p.val y.resent ∧ s.chip.replayed t.chip p.val y []) ∧
        (b.toNat % 256 = 2 → s.chip.portUse p.val = 3 → Completes (.announce p b) s fun t => s.device t ∧
          t.chip.get LN_PSTS_RDEV pg = bitsOf b.toNat 42 37 ∧
          t.chip.portState p.val = (if s.chip.get LN_PCTL_EN pg = 1 ∧ (∀ l ∈ s.chip.portLanes p.val, s.chip.laneLock l = true) then 1 else 0) ∧
          (t.chip.portSt p.val).sent = [] ∧ (t.chip.portSt p.val).part = [] ∧ (s.chip.mayReport pg 5 → t.chip.reported pg 5)) ∧
        (b.toNat % 256 = 3 → Completes (.glide p b) s fun t => s.device t ∧ s.chip.portOnly t.chip p.val { y with farGlide := true }) ∧
        (∀ wd ofs, b.toNat % 256 = 4 → wd = bitsOf b.toNat 33 32 → ofs = bitsOf b.toNat 36 34 → y.replays < 7 →
          ∀ fits, fits = decide (wd < s.chip.get LN_PCFG_WIDTH pg ∧ ofs % 2 ^ wd = 0 ∧ ofs + 2 ^ wd ≤ 2 ^ s.chip.get LN_PCFG_WIDTH pg) →
          (fits = false → Completes (.shed p b) s fun t => s.device t ∧ s.chip.portOnly t.chip p.val y) ∧
          (fits = true → Completes (.shed p b) s fun t => s.device t ∧ t.chip.get LN_PSTS_CURW pg = wd ∧
            t.chip.get LN_PSTS_CURBASE pg = (s.chip.get LN_PCFG_BASE pg + ofs) % 64 ∧ t.chip.get LN_PSTS_SHED pg = 1 ∧
            (s.chip.mayReport pg 6 → t.chip.reported pg 6) ∧ s.chip.portIs t.chip p.val { y with ctype := 5 }.resent ∧
            s.chip.replayed t.chip p.val y [LN_PSTS_CURW.key pg 0, LN_PSTS_CURBASE.key pg 0, LN_PSTS_SHED.key pg 0])) ∧
        (b.toNat % 256 = 5 → y.replays < 7 →
          (x.shedding = false → Completes (.shedack p b) s fun t => s.device t ∧ s.chip.portOnly t.chip p.val y) ∧
          (x.shedding = true → Completes (.shedack p b) s fun t => s.device t ∧ t.chip.flt = s.chip.flt ∧
            s.chip.portIs t.chip p.val { y with shedding := false, ctype := 0 }.resent ∧ s.chip.replayed t.chip p.val y [])))) ∧
    (s.chip.portState p.val ≠ 3 ∨ s.chip.stepsRun = false → Completes (.linkReplayTimeout p) s fun t => s.device t ∧
      s.chip.portOnly t.chip p.val x) ∧
    (s.chip.portState p.val = 3 → s.chip.stepsRun = true → x.replays < 7 → Completes (.linkReplayTimeout p) s fun t => s.device t ∧
      t.chip.flt = s.chip.flt ∧ s.chip.portIs t.chip p.val x.resent ∧ s.chip.replayed t.chip p.val x []) ∧
    (∀ idle, idle = (s.chip.portState p.val == 3 && s.chip.bit LN_PCFG_AUTOGLIDE pg && x.sent.isEmpty && !x.gliding && s.chip.stepsRun) →
      (idle = false → Completes (.glideIdleTimeout p) s fun t => s.device t ∧ s.chip.portOnly t.chip p.val x) ∧
      (idle = true → Completes (.glideIdleTimeout p) s fun t => s.device t ∧ t.chip.flt = s.chip.flt ∧
        s.chip.portIs t.chip p.val { x with gliding := true, ctype := 3 } ∧
        (∀ l ∈ s.chip.portNow p.val, t.chip.laneGet LN_LPWR_STATE l = if s.chip.laneGet LN_LPWR_STATE l = 0 then 1
          else s.chip.laneGet LN_LPWR_STATE l) ∧
        s.chip.fieldsKept t.chip ((s.chip.portNow p.val).map fun l => LN_LPWR_STATE.key (lanePg l) (l % 4)))) ∧
    (s.reaches w pg LN_PCTL_EN.off → s.chip.get LN_PCTL_EN pg = v.toNat % 2 →
      (s.chip.portState p.val ≠ 3 ∨ (∃ l ∈ s.chip.portLanes p.val, s.chip.laneLock l = false) →
        exec (.rewiden w p v) s = .next { s with code := 0 }) ∧
      (s.chip.portState p.val = 3 → (∀ l ∈ s.chip.portLanes p.val, s.chip.laneLock l = true) → s.chip.portUse p.val = 3 →
        Completes (.rewiden w p v) s fun t => s.performed t ∧ t.chip.portState p.val = 2 ∧
          t.chip.get LN_PSTS_CURBASE pg = s.chip.get LN_PCFG_BASE pg % 64 ∧ t.chip.get LN_PSTS_CURW pg = s.chip.get LN_PCFG_WIDTH pg % 4 ∧
          (s.chip.stepsRun = true → s.chip.mayReport pg 5 → t.chip.reported pg 5) ∧
          s.chip.fieldsKept t.chip [LN_PSTS_STATE.key pg 0, LN_PSTS_CURBASE.key pg 0, LN_PSTS_CURW.key pg 0] ∧
          s.chip.portIs t.chip p.val { x with
            ann := 0, gliding := false, farGlide := false, shedding := false, replays := 0, ctype := 2, queue := [], sent := [], part := [] }))

/-- Requests that arrive while the link is down, or during a Function Level Reset, do nothing. A request that no BAR
serves, and a poisoned write, is answered and shown by AER as Table 15-11 says. A BAR0 request in one of the two
forms of R437 asks for its register accesses, the second of a pair after the first; any other form fails with
ERR_ALIGN. A BAR2 write asks for its lines under their byte enables, a read for at most 64 lines at a time; one that
reaches beyond device space fails with ERR_DECODE, and one that a stopped page meets with ERR_STOPPED. A failure is
logged, counted and reported. A configuration write changes the writable bits of its lanes and no other. A forced
vector is sent, or is left pending under a mask. The link is up when training completes; PERST_N, a hot reset, a
Function Level Reset and the loss of the link reset the host port. (15_serial_lanes_links_host_port.md) -/
def Obligations.HostPortServes : Prop :=
  ∀ (form : HostForm) (write : Bool) (off : BitVec 28) (dw : Nat) (be : BitVec 8) (data : BitVec 64) (boff len : Nat)
      (bytes : List (BitVec 8 × Bool)) (w : Who) (high : Bool) (v : BitVec 32) (width speed : BitVec 4) (type1 : Bool) (n : BitVec 10)
      (cbe : BitVec 4) (cdata : BitVec 32) (s : State),
    (s.chip.hostUp = false ∨ s.chip.link.host.flr = true → ∀ i ∈ [Instr.bar0Request form write off dw be data,
      .bar2Request form write boff len bytes, .hostConfigRequest type1 write n cbe cdata], exec i s = .next s) ∧
    (s.chip.hostUp = true → s.chip.link.host.flr = false →
      (∀ i ∈ [Instr.bar0Request form write off dw be data, .bar2Request form write boff len bytes],
        (form.odd write = true ∨ s.chip.hostD3 = true → Completes i s fun t => s.device t ∧
          s.chip.hostTold t.chip (if write ∧ (form = .poisoned ∨ form = .noBar ∨ form = .locked ∨ form = .memory) then .posted else .unsupported) ∧
          s.chip.aerShown t.chip (if form = .poisoned ∧ write then 12 else 20) ∧
          t.chip = { s.chip with link := { s.chip.link with host := t.chip.link.host } })) ∧
      (form.odd write = false → s.chip.hostD3 = false → s.chip.link.host.reqs = [] →
        (∀ a id : Nat, ∀ op : Op, a = off.toNat / 4 * 4 → id = s.chip.link.host.next → op = (if write then .regwr else .regrd) →
          (dw = 1 → be = 0xF → Completes (.bar0Request form write off dw be data) s fun t => s.device t ∧
            s.chip.hostAsked t.chip false write
              [{ asker := .host id, op := op, addr := regBase + a, wdata := BitVec.ofNat 64 (data.toNat % 2 ^ 32) }] []) ∧
          (dw = 2 → be = 0xFF → a % 8 = 0 → windowStore a = some .sched → Completes (.bar0Request form write off dw be data) s fun t =>
            s.device t ∧ s.chip.hostAsked t.chip false write
              [{ asker := .host id, op := op, addr := regBase + a, wide := true, wdata := data }] []) ∧
          (dw = 2 → be = 0xFF → a % 8 = 0 → windowStore a ≠ some .sched → Completes (.bar0Request form write off dw be data) s fun t =>
            s.device t ∧ s.chip.hostAsked t.chip false write
              [{ asker := .host id, op := op, addr := regBase + a, wdata := BitVec.ofNat 64 (data.toNat % 2 ^ 32) }]
              [{ asker := .host id, op := op, addr := regBase + a + 4, wdata := BitVec.ofNat 64 (data.toNat / 2 ^ 32) }]) ∧
          (¬(dw = 1 ∧ be = 0xF) → ¬(dw = 2 ∧ be = 0xFF ∧ a % 8 = 0) → Completes (.bar0Request form write off dw be data) s fun t =>
            s.device t ∧ s.chip.hostFailed t.chip false write (regBase + a) errAlign (4 * dw))) ∧
        (∀ a m id : Nat, a = s.chip.get HP_WIN_BASE pgHP * 2 ^ 30 + boff → m = (if write then bytes.length else len) →
          id = s.chip.link.host.next →
          (m = 0 → Completes (.bar2Request form write boff len bytes) s fun t => s.device t ∧
            s.chip.hostTold t.chip (if write then .posted else .success []) ∧
            t.chip = { s.chip with link := { s.chip.link with host := t.chip.link.host } }) ∧
          (m ≠ 0 → 2 ^ 44 < a + m → Completes (.bar2Request form write boff len bytes) s fun t => s.device t ∧
            s.chip.hostFailed t.chip true write a errDecode m) ∧
          (m ≠ 0 → a + m ≤ 2 ^ 44 → s.chip.accepts pgHP = false ∨ s.chip.works pgHP = false →
            Completes (.bar2Request form write boff len bytes) s fun t => s.device t ∧
              s.chip.hostFailed t.chip true write a errStopped m) ∧
          (m ≠ 0 → a + m ≤ 2 ^ 44 → s.chip.accepts pgHP = true → s.chip.works pgHP = true → write = true →
            Completes (.bar2Request form write boff len bytes) s fun t => s.device t ∧
              ∃ r : Req, s.chip.hostAsked t.chip true write [r] [] ∧ r.asker = .host id ∧ r.op = .write ∧ r.addr = a / 64 * 64 ∧
                r.len = (a % 64 + m + 63) / 64 ∧ r.lines.length = r.len ∧
                ∀ i < 64 * r.len, ∃ x, r.lines[i / 64]? = some x ∧
                  (i < a % 64 ∨ a % 64 + m ≤ i → x.mask.getLsbD (i % 64) = false) ∧
                  ∀ b e, a % 64 ≤ i → bytes[i - a % 64]? = some (b, e) →
                    x.mask.getLsbD (i % 64) = e ∧ x.data.extractLsb' (8 * (i % 64)) 8 = b) ∧
          (m ≠ 0 → a + m ≤ 2 ^ 44 → s.chip.accepts pgHP = true → s.chip.works pgHP = true → write = false → m ≤ 4096 →
            ∀ ls, ls = (a % 64 + m + 63) / 64 → Completes (.bar2Request form write boff len bytes) s fun t => s.device t ∧
              s.chip.hostAsked t.chip true write ((List.range ((ls + 63) / 64)).map fun i =>
                { asker := .host id, op := .read, addr := a / 64 * 64 + 4096 * i, len := min 64 (ls - 64 * i),
                  whole := min 64 (ls - 64 * i) }) []))) ∧
      (type1 = true → Completes (.hostConfigRequest type1 write n cbe cdata) s fun t => s.device t ∧ s.chip.hostTold t.chip .unsupported ∧
        s.chip.aerShown t.chip 20 ∧ t.chip = { s.chip with link := { s.chip.link with host := t.chip.link.host } }) ∧
      (type1 = false → write = false → Completes (.hostConfigRequest type1 write n cbe cdata) s fun t => s.device t ∧
        s.chip.hostTold t.chip (.success (natLe 4 (s.chip.cfgRead n.toNat))) ∧ t.chip.link.host.cfg = s.chip.link.host.cfg ∧
        t.chip = { s.chip with link := { s.chip.link with host := t.chip.link.host } }) ∧
      (type1 = false → write = true → (∀ x < 64, s.chip.msixPend x = false) →
        ¬(n.toNat = cfgDevCtl ∧ cbe.getLsbD 1 = true ∧ cdata.getLsbD 15 = true) →
        Completes (.hostConfigRequest type1 write n cbe cdata) s fun t => s.device t ∧ s.chip.hostTold t.chip (.success []) ∧
          (∀ k, k ≠ n.toNat → t.chip.cfgHeld k = s.chip.cfgHeld k) ∧
          (∀ j < 32, (t.chip.cfgHeld n.toNat).testBit j = if cbe.getLsbD (j / 8) = false then (s.chip.cfgHeld n.toNat).testBit j
            else if (cfgMask n.toNat).testBit j then cdata.getLsbD j && !(cfgW1c n.toNat).testBit j
            else (s.chip.cfgHeld n.toNat).testBit j && !(cdata.getLsbD j && (cfgW1c n.toNat).testBit j)) ∧
          t.chip = { s.chip with link := { s.chip.link with host := t.chip.link.host } }) ∧
      (type1 = false → write = true → n.toNat = cfgDevCtl → cbe.getLsbD 1 = true → cdata.getLsbD 15 = true →
        Completes (.hostConfigRequest type1 write n cbe cdata) s fun t => s.device t ∧ t.chip.link.host.reqs = [] ∧
          t.chip.link.host.cfg = [] ∧ t.chip.link.host.flr = s.chip.hostPending)) ∧
    (s.reaches w pgHP (if high then HP_MSIFRCH_FRC.off else HP_MSIFRCL_FRC.off) →
      (s.chip.pin.perst = true → exec (.msixForce w high v) s = .next { s with code := 0 }) ∧
      (s.chip.pin.perst = false → Completes (.msixForce w high v) s fun t => s.performed t ∧
        (∀ x < 64, t.chip.msixPend x = (s.chip.msixPend x || (v.getLsbD (x % 32) && decide (x / 32 = b2n high) && !s.chip.msixOpen x))) ∧
        t.chip.link.host.msgs = (((List.range 32).filter fun i => v.getLsbD i && s.chip.msixOpen (i + 32 * b2n high)).reverse.map fun i =>
          (i + 32 * b2n high, BitVec.ofNat 64 (s.chip.get MSIX_ADDRL_ADDR pgHP (i + 32 * b2n high) * 4 +
            s.chip.get MSIX_ADDRH_ADDR pgHP (i + 32 * b2n high) * 2 ^ 32), BitVec.ofNat 32 (s.chip.get MSIX_DATA_DATA pgHP (i + 32 * b2n high)))) ++
          s.chip.link.host.msgs ∧
        s.chip.fieldsKept t.chip [MSIX_PBA_PEND.key pgHP (b2n high)] ∧
        t.chip = { s.chip with
          regs := t.chip.regs, link := { s.chip.link with host := { s.chip.link.host with msgs := t.chip.link.host.msgs } } })) ∧
    (∀ trains, trains = (s.chip.domOn 79 && !s.chip.pin.perst && s.chip.bit CK_LOOPSTS_HOST pgCK &&
        decide (width = 1 ∨ width = 2 ∨ width = 4 ∨ width = 8) && decide (1 ≤ speed.toNat ∧ speed.toNat ≤ 4)) →
      (trains = false → exec (.hostLinkUp width speed) s = .next s) ∧
      (trains = true → Completes (.hostLinkUp width speed) s fun t => s.device t ∧ t.chip.get HP_LINK_DLUP pgHP = 1 ∧
        t.chip.get HP_LINK_WIDTH pgHP = width.toNat ∧ t.chip.get HP_LINK_SPEED pgHP = speed.toNat ∧ s.chip.onlyRegs t.chip ∧
        s.chip.fieldsKept t.chip [HP_LINK_DLUP.key pgHP 0, HP_LINK_WIDTH.key pgHP 0, HP_LINK_SPEED.key pgHP 0])) ∧
    (Completes .perst s fun t => s.device t ∧ t.chip.pin = { s.chip.pin with perst := true } ∧
      (s.chip.domOn 79 = false → t.chip = { s.chip with pin := t.chip.pin }) ∧
      (s.chip.domOn 79 = true → s.chip.hostCleared t.chip ∧ t.chip.get HP_LINK_DLUP pgHP = 0 ∧ t.chip.get HP_LINK_WIDTH pgHP = 0 ∧
        t.chip.get HP_LINK_SPEED pgHP = 0 ∧ t.chip.link.host.flr = false ∧
        t.chip = { s.chip with regs := t.chip.regs, peeks := t.chip.peeks, link := t.chip.link, pin := t.chip.pin })) ∧
    (s.chip.hostUp = false → exec .hotReset s = .next s ∧ exec .functionLevelReset s = .next s) ∧
    (s.chip.hostUp = true → ∀ io ∈ [(Instr.hotReset, false), (.functionLevelReset, s.chip.hostPending)], Completes io.1 s fun t =>
      s.device t ∧ s.chip.hostCleared t.chip ∧ t.chip.get HP_LINK_DLUP pgHP = 1 ∧
      t.chip.get HP_LINK_WIDTH pgHP = s.chip.get HP_LINK_WIDTH pgHP % 16 ∧
      t.chip.get HP_LINK_SPEED pgHP = s.chip.get HP_LINK_SPEED pgHP % 16 ∧ t.chip.link.host.flr = io.2 ∧
      t.chip = { s.chip with regs := t.chip.regs, peeks := t.chip.peeks, link := t.chip.link }) ∧
    (s.chip.get HP_LINK_DLUP pgHP ≠ 1 → exec .hostLinkDown s = .next s) ∧
    (s.chip.get HP_LINK_DLUP pgHP = 1 → Completes .hostLinkDown s fun t => s.device t ∧ s.chip.hostCleared t.chip ∧
      t.chip.get HP_LINK_DLUP pgHP = 0 ∧ t.chip.link.host.flr = false ∧
      (s.chip.pin.perst = false → s.chip.mayReport pgHP 0 → t.chip.reported pgHP 0) ∧
      t.chip = { s.chip with regs := t.chip.regs, peeks := t.chip.peeks, link := t.chip.link, flt := t.chip.flt }) ∧
    (Completes .perstNRelease s fun t => s.device t ∧ t.chip = { s.chip with pin := { s.chip.pin with perst := false } })

/-- For every master, every page and every offset at which no register stands, outside the read window of the event
recorder: a read that the checks of R34 let through gives 0x0000_0000 and changes nothing, with the peek attribute
or without it; a write that they let through changes nothing, and neither returns an error. (R15) -/
def Obligations.UnassignedOffsetsReadZero : Prop :=
  ∀ (w : Who) (pg off : Nat) (peek : Bool) (v : BitVec 32) (s : State), fieldsAt pg off = [] → ¬(pg = pgEV ∧ 0x800 ≤ off) →
    (s.chip.regReach w pg off false = 0 → exec (.rcRead w pg off peek) s = .next { s with code := 0, rdata := 0 }) ∧
    (s.reaches w pg off → exec (.registerWrite w pg off v) s = .next { s with code := 0 })
end

