-- ==== Sys2Proof/Laws/Exec.lean ====
section
/-! SUPPORT. What the ways in which a command reaches the device can do. -/
namespace Sys2Proof.Machine

/-- An event always answers, and changes the device alone. -/
theorem State.go_eq (s : State) (f : Chip → Chip) : s.go f = .next { s with chip := f s.chip } := rfl

/-- A register write that reaches its register is performed. -/
theorem State.through_reached (s : State) (w : Who) (pg off : Nat) (f : Chip → Nat × Chip) (h : s.reaches w pg off) :
    s.through w pg off f = .next { s with chip := (f s.chip).2, code := (f s.chip).1 } := if_pos h

/-- A register write that a check refuses changes the answer alone. -/
theorem State.through_refused (s : State) (w : Who) (pg off : Nat) (f : Chip → Nat × Chip)
    (h : s.chip.regReach w pg off true ≠ 0) :
    s.through w pg off f = .next { s with code := s.chip.regReach w pg off true } := if_neg h

/-- A register write always answers; it changes the device and the answer alone. -/
theorem State.through_cases (s : State) (w : Who) (pg off : Nat) (f : Chip → Nat × Chip) :
    ∃ d k, s.through w pg off f = .next { s with chip := d, code := k } := by
  unfold State.through
  split
  · exact ⟨_, _, rfl⟩
  · exact ⟨s.chip, _, rfl⟩

/-- A completed command from its outcome. -/
theorem Completes.of_eq {i : Instr} {s t : State} {P : State → Prop} (h : exec i s = .next t) (p : P t) : Completes i s P :=
  ⟨t, h, p⟩

/-- A command that is performed where its register is reached. -/
theorem Completes.of_through {i : Instr} {s : State} {P : State → Prop} {w : Who} {pg off : Nat} (f : Chip → Nat × Chip)
    (e : exec i s = s.through w pg off f) (h : s.reaches w pg off) (p : P { s with chip := (f s.chip).2, code := (f s.chip).1 }) :
    Completes i s P := ⟨_, e.trans (State.through_reached s w pg off f h), p⟩

/-- A command that is an event. -/
theorem Completes.of_go {i : Instr} {s : State} {P : State → Prop} (f : Chip → Chip) (e : exec i s = s.go f)
    (p : P { s with chip := f s.chip }) : Completes i s P := ⟨_, e, p⟩

/-- A command that completes in two ways completes in both. -/
theorem Completes.and {i : Instr} {s : State} {P Q : State → Prop} (hp : Completes i s P) (hq : Completes i s Q) :
    Completes i s fun t => P t ∧ Q t := by
  obtain ⟨t, e, p⟩ := hp
  obtain ⟨u, f, q⟩ := hq
  rw [e] at f
  cases f
  exact ⟨t, e, p, q⟩

/-- A register write reaches its register or is refused, as any other write. -/
theorem State.writes_eq (s : State) (w : Who) (pg off v : Nat) :
    Host.Outcome.next (s.writes w pg off v) = s.through w pg off fun c => c.writeReg w pg off v := by
  unfold State.through
  split
  · rfl
  · simp [State.writes, Chip.writeReg, *]

/-- Every command that writes a register for a master goes through the checks of that access. -/
theorem exec_of_writeTarget (i : Instr) (s : State) {w : Who} {pg off : Nat} (h : writeTarget i = some (w, pg, off)) :
    ∃ f, exec i s = s.through w pg off f := by
  cases i <;> simp only [writeTarget, Option.some.injEq, Prod.mk.injEq, reduceCtorEq] at h <;> obtain ⟨rfl, rfl, rfl⟩ := h <;> first
    | exact ⟨_, State.writes_eq ..⟩
    | (simp only [exec,
        execRunSet, execRunClear, execStopReq, execSrst, execClkenClear, execClkenSet, execFaultForce,
        execFaultStickyClear, execPowerOnRequest, execPowerOffRequest, execRetentionRequest, execLoaderGo,
        execLoaderAbort, execLockstepArm, execLockstepSync, execLockstepStop, execLockstepDisarm,
        execPairDetach, execPairRejoin, execBatchEnable, execBatchDisable, execTraceEnable, execTraceDisable,
        execTraceFlush, execStreamSourceGo, execStreamAbort, execRouteWrite, execRouteRead, execFreelost,
        execBankHandover, execDmaGo, execKeyLoad, execKeyNewkey, execKeyClear, execKeyTreekey, execKeyGrpfree,
        execKeyGrpinit, execKeyRightsWrite, execStateSave, execTreeInit, execRekeyGo, execPoisonClear,
        execLanePowerRequest, execRingEnable, execPortEnable, execRewiden, execMsixForce, execFpllEnable,
        execFclkSwitch, execWarmResetRequest, execWatchdogControl, execWatchdogKick, execFaultAck,
        execChallenge, execVerify, execDrop, execDebugRequest, execHalt, execRelease, execStep,
        execSeqDebugHalt, execSeqDebugStep, execSeqDebugRelease, execFreezeRequest, execFlashRead,
        execFlashProgram, execFlashErase, execSoftwareRecord, execClearChallenge, execClearVerify,
        execRecorderClear, execUartEnable]
       exact ⟨_, rfl⟩)

/-- Every other command, those of the test access port and of its power apart, is an event of the device. -/
theorem exec_of_event (i : Instr) (s : State) (hw : writeTarget i = none) (hr : readTarget i = none)
    (ht : movesTap i = false) : ∃ f, exec i s = s.go f := by
  cases i <;> try (simp only [writeTarget, reduceCtorEq] at hw; done)
  all_goals try (simp only [readTarget, reduceCtorEq] at hr; done)
  all_goals try exact Bool.noConfusion (show true = false from ht)
  all_goals simp only [exec,
    execBramPortAccess, execBramWindowAccess, execBramWindowTimeout, execSliceHold, execSliceLoad,
    execSliceAccum, execSliceCasc, execSliceClear, execSliceLoady, execSliceAddy, execSeqEnable, execSeqNop,
    execSeqSlice, execSeqLoop, execSeqJump, execSeqSetar, execSeqWait, execSeqBscale, execSeqHalt,
    execSeqSetk, execSeqIllegal, execRefclkQualifyCount, execRefclkWindow, execLoopLock, execFpllLockLoss,
    execClockSwitchTimeout, execGateHandshake, execGateHandshakeTimeout, execClockSwitchDone,
    execRefclkWaitTimeout, execRefclkLoss, execHaltEffect, execRekeyLine, execBgReencryptLine, execRdata,
    execWack, execInfo, execPmpTimeout, execRootCopyVote, execLooseLapAdmit, execBudgetWord,
    execTraceFlitTimeout, execUartRecord, execRecordProgram, execRateWindowEnd, execRecordSearchDone,
    execTimewrap, execClearEraseDone, execClearAuthLapse, execLssync, execLsdata, execLsstop,
    execMacrocellClock, execFmpRequest, execFmpWriteBeat, execFmpResponseBeat, execFmpLateBeat,
    execBrokenPair, execPairRailsValid, execFaultReport, execFltpWidthExpire, execFltpHoldoffExpire,
    execFlashRefresh, execFlashCommandDone, execFreezePin, execFreezeBegin, execFreezeComplete, execThaw,
    execEpoch, execSensorReading, execSensorCalibration, execAgeingReading, execBiasApply, execBar0Request,
    execBar2Request, execHostLinkUp, execHostConfigRequest, execPerst, execHotReset, execFunctionLevelReset,
    execHostLinkDown, execPerstNRelease, execLoaderCheckPassDone, execLoaderWritePassDone, execQuadLoopLock,
    execLaneLock, execLaneLockLoss, execLanePowerDone, execRxLine, execLinkFlit, execAck, execNak,
    execAnnounce, execGlide, execShed, execShedack, execLinkReplayTimeout, execGlideIdleTimeout,
    execGroupStart, execPaceEdge, execPaceEvent, execResyncCapture, execPaceLate, execLapInputPhase,
    execComputeStep, execLapCommit, execReplayDecision, execLapOutputPhase, execLapComplete,
    execUnitRequestIssue, execRequestInject, execRouterHeadFlit, execRead, execWrite, execRegrd, execRegwr,
    execRsp, execLate, execRsvreq, execRsvgnt, execNiTimeout, execPowerOnSlotTaken, execPowerOnComplete,
    execPowerOffComplete, execFenceTimeout, execRailGood, execVccoLoss, execEmulationEnd, execVccoReturn,
    execOrderlyStopComplete, execFunctionStart, execBankClearDone, execBankRetention, execBankWake,
    execSpCeWriteback, execScrubFrame, execEngineScanStart, execEngineScanComplete, execPriorityScanStart,
    execReloadComplete, execHeartbeatMiss, execTmrCorrection, execI2cSetPointer, execI2cRegisterWrite,
    execI2cRegisterRead, execSpiWrite, execSpiRead, execI2cStretchTimeout, execI2cBusTimeout, execSpiTimeout,
    execResetN, execWarmResetRelease, execRouteRecordLoad, execDeviceReady, execWatchdogWarn,
    execWatchdogExpire, execCfgPortWord, execAuth, execCmdLoadjli, execStartSector, execSyncMarker, execTile,
    execSite, execBrdata, execIobank, execData, execRegw, execNop, execCmdEnd, execCmdPartial, execCmdClear,
    execCmdWaiton, execCmdDelay, execDelayExpire, execWaitonTimeout, execPartialTimeout, execRemoteError]
  all_goals exact ⟨_, rfl⟩


theorem State.ported.trans {s t u : State} (h : s.ported t) (k : t.ported u) : s.ported u := by
  unfold State.ported at *
  rw [k, h]

theorem State.tapSelect_ported (s : State) (a b d) : s.ported (s.tapSelect a b d) := by
  unfold State.tapSelect; split <;> rfl

theorem State.capture_ported (s : State) (pins) : s.ported (s.capture pins) := by
  unfold State.capture; split <;> simp [State.ported]

theorem State.tapExtest_ported (s : State) (pins) : s.ported (s.tapExtest pins) :=
  (s.tapSelect_ported ..).trans (State.capture_ported ..)

theorem State.tapSample_ported (s : State) (cells pins) : s.ported (s.tapSample cells pins) := by
  have h := (s.tapSelect_ported 0x02 0 0).trans (State.capture_ported _ pins)
  unfold State.tapSample
  dsimp only
  split
  · exact h.trans rfl
  · exact h

theorem State.dbaccUpdate_ported (s : State) (x) : s.ported (s.dbaccUpdate x) := by
  unfold State.dbaccUpdate
  dsimp only
  split
  · rfl
  · split <;> rfl

/-- A command of the test access port changes the device and the port alone. -/
theorem exec_of_tap (i : Instr) (s : State) (h : movesTap i = true) :
    ∃ t, exec i s = .next t ∧ s.ported t := by
  cases i <;> first
    | exact Bool.noConfusion (show false = true from h)
    | skip
  · exact ⟨_, rfl, rfl⟩
  · exact ⟨_, rfl, rfl⟩
  · exact ⟨_, rfl, s.tapExtest_ported ..⟩
  · exact ⟨_, rfl, s.tapSample_ported ..⟩
  · exact ⟨_, rfl, s.dbaccUpdate_ported ..⟩
  all_goals exact ⟨_, rfl, s.tapSelect_ported ..⟩

end Sys2Proof.Machine
end

