-- ==== Sys2Proof/Laws/State.lean ====
section
/-! SUPPORT. What each update of the device leaves alone, field by field; what a state update leaves of the state. -/
namespace Sys2Proof.Machine

variable (c : Chip) (s : State)

/-! `Chip.set` -/
@[simp] theorem Chip.set_stepping (F : Fld) (p v i : Nat) : (c.set F p v i).stepping = c.stepping := rfl
@[simp] theorem Chip.set_eng (F : Fld) (p v i : Nat) : (c.set F p v i).eng = c.eng := rfl
@[simp] theorem Chip.set_fab (F : Fld) (p v i : Nat) : (c.set F p v i).fab = c.fab := rfl
@[simp] theorem Chip.set_stream (F : Fld) (p v i : Nat) : (c.set F p v i).stream = c.stream := rfl
@[simp] theorem Chip.set_loader (F : Fld) (p v i : Nat) : (c.set F p v i).loader = c.loader := rfl
@[simp] theorem Chip.set_scrub (F : Fld) (p v i : Nat) : (c.set F p v i).scrub = c.scrub := rfl
@[simp] theorem Chip.set_net (F : Fld) (p v i : Nat) : (c.set F p v i).net = c.net := rfl
@[simp] theorem Chip.set_mem (F : Fld) (p v i : Nat) : (c.set F p v i).mem = c.mem := rfl
@[simp] theorem Chip.set_sp (F : Fld) (p v i : Nat) : (c.set F p v i).sp = c.sp := rfl
@[simp] theorem Chip.set_pow (F : Fld) (p v i : Nat) : (c.set F p v i).pow = c.pow := rfl
@[simp] theorem Chip.set_clk (F : Fld) (p v i : Nat) : (c.set F p v i).clk = c.clk := rfl
@[simp] theorem Chip.set_flt (F : Fld) (p v i : Nat) : (c.set F p v i).flt = c.flt := rfl
@[simp] theorem Chip.set_rst (F : Fld) (p v i : Nat) : (c.set F p v i).rst = c.rst := rfl
@[simp] theorem Chip.set_pin (F : Fld) (p v i : Nat) : (c.set F p v i).pin = c.pin := rfl
@[simp] theorem Chip.set_ev (F : Fld) (p v i : Nat) : (c.set F p v i).ev = c.ev := rfl
@[simp] theorem Chip.set_link (F : Fld) (p v i : Nat) : (c.set F p v i).link = c.link := rfl
@[simp] theorem Chip.set_peeks (F : Fld) (p v i : Nat) : (c.set F p v i).peeks = c.peeks := rfl
@[simp] theorem Chip.set_stopping (F : Fld) (p v i : Nat) : (c.set F p v i).stopping = c.stopping := rfl
@[simp] theorem Chip.set_free (F : Fld) (p v i : Nat) : (c.set F p v i).free = c.free := rfl

/-! `Chip.setB` -/
@[simp] theorem Chip.setB_stepping (F : Fld) (p : Nat) (b : Bool) (i : Nat) : (c.setB F p b i).stepping = c.stepping := rfl
@[simp] theorem Chip.setB_eng (F : Fld) (p : Nat) (b : Bool) (i : Nat) : (c.setB F p b i).eng = c.eng := rfl
@[simp] theorem Chip.setB_fab (F : Fld) (p : Nat) (b : Bool) (i : Nat) : (c.setB F p b i).fab = c.fab := rfl
@[simp] theorem Chip.setB_stream (F : Fld) (p : Nat) (b : Bool) (i : Nat) : (c.setB F p b i).stream = c.stream := rfl
@[simp] theorem Chip.setB_loader (F : Fld) (p : Nat) (b : Bool) (i : Nat) : (c.setB F p b i).loader = c.loader := rfl
@[simp] theorem Chip.setB_scrub (F : Fld) (p : Nat) (b : Bool) (i : Nat) : (c.setB F p b i).scrub = c.scrub := rfl
@[simp] theorem Chip.setB_net (F : Fld) (p : Nat) (b : Bool) (i : Nat) : (c.setB F p b i).net = c.net := rfl
@[simp] theorem Chip.setB_mem (F : Fld) (p : Nat) (b : Bool) (i : Nat) : (c.setB F p b i).mem = c.mem := rfl
@[simp] theorem Chip.setB_sp (F : Fld) (p : Nat) (b : Bool) (i : Nat) : (c.setB F p b i).sp = c.sp := rfl
@[simp] theorem Chip.setB_pow (F : Fld) (p : Nat) (b : Bool) (i : Nat) : (c.setB F p b i).pow = c.pow := rfl
@[simp] theorem Chip.setB_clk (F : Fld) (p : Nat) (b : Bool) (i : Nat) : (c.setB F p b i).clk = c.clk := rfl
@[simp] theorem Chip.setB_flt (F : Fld) (p : Nat) (b : Bool) (i : Nat) : (c.setB F p b i).flt = c.flt := rfl
@[simp] theorem Chip.setB_rst (F : Fld) (p : Nat) (b : Bool) (i : Nat) : (c.setB F p b i).rst = c.rst := rfl
@[simp] theorem Chip.setB_pin (F : Fld) (p : Nat) (b : Bool) (i : Nat) : (c.setB F p b i).pin = c.pin := rfl
@[simp] theorem Chip.setB_ev (F : Fld) (p : Nat) (b : Bool) (i : Nat) : (c.setB F p b i).ev = c.ev := rfl
@[simp] theorem Chip.setB_link (F : Fld) (p : Nat) (b : Bool) (i : Nat) : (c.setB F p b i).link = c.link := rfl
@[simp] theorem Chip.setB_peeks (F : Fld) (p : Nat) (b : Bool) (i : Nat) : (c.setB F p b i).peeks = c.peeks := rfl
@[simp] theorem Chip.setB_stopping (F : Fld) (p : Nat) (b : Bool) (i : Nat) : (c.setB F p b i).stopping = c.stopping := rfl
@[simp] theorem Chip.setB_free (F : Fld) (p : Nat) (b : Bool) (i : Nat) : (c.setB F p b i).free = c.free := rfl

/-! `Chip.count` -/
@[simp] theorem Chip.count_stepping (F : Fld) (p i : Nat) : (c.count F p i).stepping = c.stepping := rfl
@[simp] theorem Chip.count_eng (F : Fld) (p i : Nat) : (c.count F p i).eng = c.eng := rfl
@[simp] theorem Chip.count_fab (F : Fld) (p i : Nat) : (c.count F p i).fab = c.fab := rfl
@[simp] theorem Chip.count_stream (F : Fld) (p i : Nat) : (c.count F p i).stream = c.stream := rfl
@[simp] theorem Chip.count_loader (F : Fld) (p i : Nat) : (c.count F p i).loader = c.loader := rfl
@[simp] theorem Chip.count_scrub (F : Fld) (p i : Nat) : (c.count F p i).scrub = c.scrub := rfl
@[simp] theorem Chip.count_net (F : Fld) (p i : Nat) : (c.count F p i).net = c.net := rfl
@[simp] theorem Chip.count_mem (F : Fld) (p i : Nat) : (c.count F p i).mem = c.mem := rfl
@[simp] theorem Chip.count_sp (F : Fld) (p i : Nat) : (c.count F p i).sp = c.sp := rfl
@[simp] theorem Chip.count_pow (F : Fld) (p i : Nat) : (c.count F p i).pow = c.pow := rfl
@[simp] theorem Chip.count_clk (F : Fld) (p i : Nat) : (c.count F p i).clk = c.clk := rfl
@[simp] theorem Chip.count_flt (F : Fld) (p i : Nat) : (c.count F p i).flt = c.flt := rfl
@[simp] theorem Chip.count_rst (F : Fld) (p i : Nat) : (c.count F p i).rst = c.rst := rfl
@[simp] theorem Chip.count_pin (F : Fld) (p i : Nat) : (c.count F p i).pin = c.pin := rfl
@[simp] theorem Chip.count_ev (F : Fld) (p i : Nat) : (c.count F p i).ev = c.ev := rfl
@[simp] theorem Chip.count_link (F : Fld) (p i : Nat) : (c.count F p i).link = c.link := rfl
@[simp] theorem Chip.count_peeks (F : Fld) (p i : Nat) : (c.count F p i).peeks = c.peeks := rfl
@[simp] theorem Chip.count_stopping (F : Fld) (p i : Nat) : (c.count F p i).stopping = c.stopping := rfl
@[simp] theorem Chip.count_free (F : Fld) (p i : Nat) : (c.count F p i).free = c.free := rfl

/-! `Chip.orBits` -/
@[simp] theorem Chip.orBits_stepping (F : Fld) (p v i : Nat) : (c.orBits F p v i).stepping = c.stepping := rfl
@[simp] theorem Chip.orBits_eng (F : Fld) (p v i : Nat) : (c.orBits F p v i).eng = c.eng := rfl
@[simp] theorem Chip.orBits_fab (F : Fld) (p v i : Nat) : (c.orBits F p v i).fab = c.fab := rfl
@[simp] theorem Chip.orBits_stream (F : Fld) (p v i : Nat) : (c.orBits F p v i).stream = c.stream := rfl
@[simp] theorem Chip.orBits_loader (F : Fld) (p v i : Nat) : (c.orBits F p v i).loader = c.loader := rfl
@[simp] theorem Chip.orBits_scrub (F : Fld) (p v i : Nat) : (c.orBits F p v i).scrub = c.scrub := rfl
@[simp] theorem Chip.orBits_net (F : Fld) (p v i : Nat) : (c.orBits F p v i).net = c.net := rfl
@[simp] theorem Chip.orBits_mem (F : Fld) (p v i : Nat) : (c.orBits F p v i).mem = c.mem := rfl
@[simp] theorem Chip.orBits_sp (F : Fld) (p v i : Nat) : (c.orBits F p v i).sp = c.sp := rfl
@[simp] theorem Chip.orBits_pow (F : Fld) (p v i : Nat) : (c.orBits F p v i).pow = c.pow := rfl
@[simp] theorem Chip.orBits_clk (F : Fld) (p v i : Nat) : (c.orBits F p v i).clk = c.clk := rfl
@[simp] theorem Chip.orBits_flt (F : Fld) (p v i : Nat) : (c.orBits F p v i).flt = c.flt := rfl
@[simp] theorem Chip.orBits_rst (F : Fld) (p v i : Nat) : (c.orBits F p v i).rst = c.rst := rfl
@[simp] theorem Chip.orBits_pin (F : Fld) (p v i : Nat) : (c.orBits F p v i).pin = c.pin := rfl
@[simp] theorem Chip.orBits_ev (F : Fld) (p v i : Nat) : (c.orBits F p v i).ev = c.ev := rfl
@[simp] theorem Chip.orBits_link (F : Fld) (p v i : Nat) : (c.orBits F p v i).link = c.link := rfl
@[simp] theorem Chip.orBits_peeks (F : Fld) (p v i : Nat) : (c.orBits F p v i).peeks = c.peeks := rfl
@[simp] theorem Chip.orBits_stopping (F : Fld) (p v i : Nat) : (c.orBits F p v i).stopping = c.stopping := rfl
@[simp] theorem Chip.orBits_free (F : Fld) (p v i : Nat) : (c.orBits F p v i).free = c.free := rfl

/-! `Chip.wign` -/
@[simp] theorem Chip.wign_stepping (p : Nat) : (c.wign p).stepping = c.stepping := rfl
@[simp] theorem Chip.wign_eng (p : Nat) : (c.wign p).eng = c.eng := rfl
@[simp] theorem Chip.wign_fab (p : Nat) : (c.wign p).fab = c.fab := rfl
@[simp] theorem Chip.wign_stream (p : Nat) : (c.wign p).stream = c.stream := rfl
@[simp] theorem Chip.wign_loader (p : Nat) : (c.wign p).loader = c.loader := rfl
@[simp] theorem Chip.wign_scrub (p : Nat) : (c.wign p).scrub = c.scrub := rfl
@[simp] theorem Chip.wign_net (p : Nat) : (c.wign p).net = c.net := rfl
@[simp] theorem Chip.wign_mem (p : Nat) : (c.wign p).mem = c.mem := rfl
@[simp] theorem Chip.wign_sp (p : Nat) : (c.wign p).sp = c.sp := rfl
@[simp] theorem Chip.wign_pow (p : Nat) : (c.wign p).pow = c.pow := rfl
@[simp] theorem Chip.wign_clk (p : Nat) : (c.wign p).clk = c.clk := rfl
@[simp] theorem Chip.wign_flt (p : Nat) : (c.wign p).flt = c.flt := rfl
@[simp] theorem Chip.wign_rst (p : Nat) : (c.wign p).rst = c.rst := rfl
@[simp] theorem Chip.wign_pin (p : Nat) : (c.wign p).pin = c.pin := rfl
@[simp] theorem Chip.wign_ev (p : Nat) : (c.wign p).ev = c.ev := rfl
@[simp] theorem Chip.wign_link (p : Nat) : (c.wign p).link = c.link := rfl
@[simp] theorem Chip.wign_peeks (p : Nat) : (c.wign p).peeks = c.peeks := rfl
@[simp] theorem Chip.wign_stopping (p : Nat) : (c.wign p).stopping = c.stopping := rfl
@[simp] theorem Chip.wign_free (p : Nat) : (c.wign p).free = c.free := rfl

/-! `Chip.clearBlock` -/
@[simp] theorem Chip.clearBlock_stepping (p : Nat) : (c.clearBlock p).stepping = c.stepping := rfl
@[simp] theorem Chip.clearBlock_eng (p : Nat) : (c.clearBlock p).eng = c.eng := rfl
@[simp] theorem Chip.clearBlock_fab (p : Nat) : (c.clearBlock p).fab = c.fab := rfl
@[simp] theorem Chip.clearBlock_stream (p : Nat) : (c.clearBlock p).stream = c.stream := rfl
@[simp] theorem Chip.clearBlock_loader (p : Nat) : (c.clearBlock p).loader = c.loader := rfl
@[simp] theorem Chip.clearBlock_scrub (p : Nat) : (c.clearBlock p).scrub = c.scrub := rfl
@[simp] theorem Chip.clearBlock_net (p : Nat) : (c.clearBlock p).net = c.net := rfl
@[simp] theorem Chip.clearBlock_mem (p : Nat) : (c.clearBlock p).mem = c.mem := rfl
@[simp] theorem Chip.clearBlock_sp (p : Nat) : (c.clearBlock p).sp = c.sp := rfl
@[simp] theorem Chip.clearBlock_pow (p : Nat) : (c.clearBlock p).pow = c.pow := rfl
@[simp] theorem Chip.clearBlock_clk (p : Nat) : (c.clearBlock p).clk = c.clk := rfl
@[simp] theorem Chip.clearBlock_flt (p : Nat) : (c.clearBlock p).flt = c.flt := rfl
@[simp] theorem Chip.clearBlock_rst (p : Nat) : (c.clearBlock p).rst = c.rst := rfl
@[simp] theorem Chip.clearBlock_pin (p : Nat) : (c.clearBlock p).pin = c.pin := rfl
@[simp] theorem Chip.clearBlock_ev (p : Nat) : (c.clearBlock p).ev = c.ev := rfl
@[simp] theorem Chip.clearBlock_link (p : Nat) : (c.clearBlock p).link = c.link := rfl
@[simp] theorem Chip.clearBlock_stopping (p : Nat) : (c.clearBlock p).stopping = c.stopping := rfl
@[simp] theorem Chip.clearBlock_free (p : Nat) : (c.clearBlock p).free = c.free := rfl

/-! `Chip.setDom` -/
@[simp] theorem Chip.setDom_stepping (d : Nat) (x : DomSt) : (c.setDom d x).stepping = c.stepping := rfl
@[simp] theorem Chip.setDom_regs (d : Nat) (x : DomSt) : (c.setDom d x).regs = c.regs := rfl
@[simp] theorem Chip.setDom_eng (d : Nat) (x : DomSt) : (c.setDom d x).eng = c.eng := rfl
@[simp] theorem Chip.setDom_fab (d : Nat) (x : DomSt) : (c.setDom d x).fab = c.fab := rfl
@[simp] theorem Chip.setDom_stream (d : Nat) (x : DomSt) : (c.setDom d x).stream = c.stream := rfl
@[simp] theorem Chip.setDom_loader (d : Nat) (x : DomSt) : (c.setDom d x).loader = c.loader := rfl
@[simp] theorem Chip.setDom_scrub (d : Nat) (x : DomSt) : (c.setDom d x).scrub = c.scrub := rfl
@[simp] theorem Chip.setDom_net (d : Nat) (x : DomSt) : (c.setDom d x).net = c.net := rfl
@[simp] theorem Chip.setDom_mem (d : Nat) (x : DomSt) : (c.setDom d x).mem = c.mem := rfl
@[simp] theorem Chip.setDom_sp (d : Nat) (x : DomSt) : (c.setDom d x).sp = c.sp := rfl
@[simp] theorem Chip.setDom_clk (d : Nat) (x : DomSt) : (c.setDom d x).clk = c.clk := rfl
@[simp] theorem Chip.setDom_flt (d : Nat) (x : DomSt) : (c.setDom d x).flt = c.flt := rfl
@[simp] theorem Chip.setDom_rst (d : Nat) (x : DomSt) : (c.setDom d x).rst = c.rst := rfl
@[simp] theorem Chip.setDom_pin (d : Nat) (x : DomSt) : (c.setDom d x).pin = c.pin := rfl
@[simp] theorem Chip.setDom_ev (d : Nat) (x : DomSt) : (c.setDom d x).ev = c.ev := rfl
@[simp] theorem Chip.setDom_link (d : Nat) (x : DomSt) : (c.setDom d x).link = c.link := rfl
@[simp] theorem Chip.setDom_peeks (d : Nat) (x : DomSt) : (c.setDom d x).peeks = c.peeks := rfl
@[simp] theorem Chip.setDom_stopping (d : Nat) (x : DomSt) : (c.setDom d x).stopping = c.stopping := rfl
@[simp] theorem Chip.setDom_free (d : Nat) (x : DomSt) : (c.setDom d x).free = c.free := rfl

/-! `Chip.setGate` -/
@[simp] theorem Chip.setGate_stepping (p : Nat) (x : GateSt) : (c.setGate p x).stepping = c.stepping := rfl
@[simp] theorem Chip.setGate_regs (p : Nat) (x : GateSt) : (c.setGate p x).regs = c.regs := rfl
@[simp] theorem Chip.setGate_eng (p : Nat) (x : GateSt) : (c.setGate p x).eng = c.eng := rfl
@[simp] theorem Chip.setGate_fab (p : Nat) (x : GateSt) : (c.setGate p x).fab = c.fab := rfl
@[simp] theorem Chip.setGate_stream (p : Nat) (x : GateSt) : (c.setGate p x).stream = c.stream := rfl
@[simp] theorem Chip.setGate_loader (p : Nat) (x : GateSt) : (c.setGate p x).loader = c.loader := rfl
@[simp] theorem Chip.setGate_scrub (p : Nat) (x : GateSt) : (c.setGate p x).scrub = c.scrub := rfl
@[simp] theorem Chip.setGate_net (p : Nat) (x : GateSt) : (c.setGate p x).net = c.net := rfl
@[simp] theorem Chip.setGate_mem (p : Nat) (x : GateSt) : (c.setGate p x).mem = c.mem := rfl
@[simp] theorem Chip.setGate_sp (p : Nat) (x : GateSt) : (c.setGate p x).sp = c.sp := rfl
@[simp] theorem Chip.setGate_pow (p : Nat) (x : GateSt) : (c.setGate p x).pow = c.pow := rfl
@[simp] theorem Chip.setGate_flt (p : Nat) (x : GateSt) : (c.setGate p x).flt = c.flt := rfl
@[simp] theorem Chip.setGate_rst (p : Nat) (x : GateSt) : (c.setGate p x).rst = c.rst := rfl
@[simp] theorem Chip.setGate_pin (p : Nat) (x : GateSt) : (c.setGate p x).pin = c.pin := rfl
@[simp] theorem Chip.setGate_ev (p : Nat) (x : GateSt) : (c.setGate p x).ev = c.ev := rfl
@[simp] theorem Chip.setGate_link (p : Nat) (x : GateSt) : (c.setGate p x).link = c.link := rfl
@[simp] theorem Chip.setGate_peeks (p : Nat) (x : GateSt) : (c.setGate p x).peeks = c.peeks := rfl
@[simp] theorem Chip.setGate_stopping (p : Nat) (x : GateSt) : (c.setGate p x).stopping = c.stopping := rfl
@[simp] theorem Chip.setGate_free (p : Nat) (x : GateSt) : (c.setGate p x).free = c.free := rfl

/-! `Chip.report` -/
@[simp] theorem Chip.report_stepping (p b : Nat) (f : Bool) : (c.report p b f).stepping = c.stepping := by unfold Chip.report; split <;> rfl
@[simp] theorem Chip.report_regs (p b : Nat) (f : Bool) : (c.report p b f).regs = c.regs := by unfold Chip.report; split <;> rfl
@[simp] theorem Chip.report_eng (p b : Nat) (f : Bool) : (c.report p b f).eng = c.eng := by unfold Chip.report; split <;> rfl
@[simp] theorem Chip.report_fab (p b : Nat) (f : Bool) : (c.report p b f).fab = c.fab := by unfold Chip.report; split <;> rfl
@[simp] theorem Chip.report_stream (p b : Nat) (f : Bool) : (c.report p b f).stream = c.stream := by unfold Chip.report; split <;> rfl
@[simp] theorem Chip.report_loader (p b : Nat) (f : Bool) : (c.report p b f).loader = c.loader := by unfold Chip.report; split <;> rfl
@[simp] theorem Chip.report_scrub (p b : Nat) (f : Bool) : (c.report p b f).scrub = c.scrub := by unfold Chip.report; split <;> rfl
@[simp] theorem Chip.report_net (p b : Nat) (f : Bool) : (c.report p b f).net = c.net := by unfold Chip.report; split <;> rfl
@[simp] theorem Chip.report_mem (p b : Nat) (f : Bool) : (c.report p b f).mem = c.mem := by unfold Chip.report; split <;> rfl
@[simp] theorem Chip.report_sp (p b : Nat) (f : Bool) : (c.report p b f).sp = c.sp := by unfold Chip.report; split <;> rfl
@[simp] theorem Chip.report_pow (p b : Nat) (f : Bool) : (c.report p b f).pow = c.pow := by unfold Chip.report; split <;> rfl
@[simp] theorem Chip.report_clk (p b : Nat) (f : Bool) : (c.report p b f).clk = c.clk := by unfold Chip.report; split <;> rfl
@[simp] theorem Chip.report_rst (p b : Nat) (f : Bool) : (c.report p b f).rst = c.rst := by unfold Chip.report; split <;> rfl
@[simp] theorem Chip.report_pin (p b : Nat) (f : Bool) : (c.report p b f).pin = c.pin := by unfold Chip.report; split <;> rfl
@[simp] theorem Chip.report_ev (p b : Nat) (f : Bool) : (c.report p b f).ev = c.ev := by unfold Chip.report; split <;> rfl
@[simp] theorem Chip.report_link (p b : Nat) (f : Bool) : (c.report p b f).link = c.link := by unfold Chip.report; split <;> rfl
@[simp] theorem Chip.report_peeks (p b : Nat) (f : Bool) : (c.report p b f).peeks = c.peeks := by unfold Chip.report; split <;> rfl
@[simp] theorem Chip.report_stopping (p b : Nat) (f : Bool) : (c.report p b f).stopping = c.stopping := by unfold Chip.report; split <;> rfl
@[simp] theorem Chip.report_free (p b : Nat) (f : Bool) : (c.report p b f).free = c.free := by unfold Chip.report; split <;> rfl

/-! `Chip.ask` -/
@[simp] theorem Chip.ask_stepping (r : Req) : (c.ask r).stepping = c.stepping := rfl
@[simp] theorem Chip.ask_regs (r : Req) : (c.ask r).regs = c.regs := rfl
@[simp] theorem Chip.ask_eng (r : Req) : (c.ask r).eng = c.eng := rfl
@[simp] theorem Chip.ask_fab (r : Req) : (c.ask r).fab = c.fab := rfl
@[simp] theorem Chip.ask_stream (r : Req) : (c.ask r).stream = c.stream := rfl
@[simp] theorem Chip.ask_loader (r : Req) : (c.ask r).loader = c.loader := rfl
@[simp] theorem Chip.ask_scrub (r : Req) : (c.ask r).scrub = c.scrub := rfl
@[simp] theorem Chip.ask_mem (r : Req) : (c.ask r).mem = c.mem := rfl
@[simp] theorem Chip.ask_sp (r : Req) : (c.ask r).sp = c.sp := rfl
@[simp] theorem Chip.ask_pow (r : Req) : (c.ask r).pow = c.pow := rfl
@[simp] theorem Chip.ask_clk (r : Req) : (c.ask r).clk = c.clk := rfl
@[simp] theorem Chip.ask_flt (r : Req) : (c.ask r).flt = c.flt := rfl
@[simp] theorem Chip.ask_rst (r : Req) : (c.ask r).rst = c.rst := rfl
@[simp] theorem Chip.ask_pin (r : Req) : (c.ask r).pin = c.pin := rfl
@[simp] theorem Chip.ask_ev (r : Req) : (c.ask r).ev = c.ev := rfl
@[simp] theorem Chip.ask_link (r : Req) : (c.ask r).link = c.link := rfl
@[simp] theorem Chip.ask_peeks (r : Req) : (c.ask r).peeks = c.peeks := rfl
@[simp] theorem Chip.ask_stopping (r : Req) : (c.ask r).stopping = c.stopping := rfl
@[simp] theorem Chip.ask_free (r : Req) : (c.ask r).free = c.free := rfl

/-! `Chip.setStopping` -/
@[simp] theorem Chip.setStopping_stepping (p : Nat) (b : Bool) : (c.setStopping p b).stepping = c.stepping := rfl
@[simp] theorem Chip.setStopping_regs (p : Nat) (b : Bool) : (c.setStopping p b).regs = c.regs := rfl
@[simp] theorem Chip.setStopping_eng (p : Nat) (b : Bool) : (c.setStopping p b).eng = c.eng := rfl
@[simp] theorem Chip.setStopping_fab (p : Nat) (b : Bool) : (c.setStopping p b).fab = c.fab := rfl
@[simp] theorem Chip.setStopping_stream (p : Nat) (b : Bool) : (c.setStopping p b).stream = c.stream := rfl
@[simp] theorem Chip.setStopping_loader (p : Nat) (b : Bool) : (c.setStopping p b).loader = c.loader := rfl
@[simp] theorem Chip.setStopping_scrub (p : Nat) (b : Bool) : (c.setStopping p b).scrub = c.scrub := rfl
@[simp] theorem Chip.setStopping_net (p : Nat) (b : Bool) : (c.setStopping p b).net = c.net := rfl
@[simp] theorem Chip.setStopping_mem (p : Nat) (b : Bool) : (c.setStopping p b).mem = c.mem := rfl
@[simp] theorem Chip.setStopping_sp (p : Nat) (b : Bool) : (c.setStopping p b).sp = c.sp := rfl
@[simp] theorem Chip.setStopping_pow (p : Nat) (b : Bool) : (c.setStopping p b).pow = c.pow := rfl
@[simp] theorem Chip.setStopping_clk (p : Nat) (b : Bool) : (c.setStopping p b).clk = c.clk := rfl
@[simp] theorem Chip.setStopping_flt (p : Nat) (b : Bool) : (c.setStopping p b).flt = c.flt := rfl
@[simp] theorem Chip.setStopping_rst (p : Nat) (b : Bool) : (c.setStopping p b).rst = c.rst := rfl
@[simp] theorem Chip.setStopping_pin (p : Nat) (b : Bool) : (c.setStopping p b).pin = c.pin := rfl
@[simp] theorem Chip.setStopping_ev (p : Nat) (b : Bool) : (c.setStopping p b).ev = c.ev := rfl
@[simp] theorem Chip.setStopping_link (p : Nat) (b : Bool) : (c.setStopping p b).link = c.link := rfl
@[simp] theorem Chip.setStopping_peeks (p : Nat) (b : Bool) : (c.setStopping p b).peeks = c.peeks := rfl
@[simp] theorem Chip.setStopping_free (p : Nat) (b : Bool) : (c.setStopping p b).free = c.free := rfl

/-! `Chip.setGrp` -/
@[simp] theorem Chip.setGrp_stepping (g : Nat) (x : GroupSt) : (c.setGrp g x).stepping = c.stepping := rfl
@[simp] theorem Chip.setGrp_regs (g : Nat) (x : GroupSt) : (c.setGrp g x).regs = c.regs := rfl
@[simp] theorem Chip.setGrp_fab (g : Nat) (x : GroupSt) : (c.setGrp g x).fab = c.fab := rfl
@[simp] theorem Chip.setGrp_stream (g : Nat) (x : GroupSt) : (c.setGrp g x).stream = c.stream := rfl
@[simp] theorem Chip.setGrp_loader (g : Nat) (x : GroupSt) : (c.setGrp g x).loader = c.loader := rfl
@[simp] theorem Chip.setGrp_scrub (g : Nat) (x : GroupSt) : (c.setGrp g x).scrub = c.scrub := rfl
@[simp] theorem Chip.setGrp_net (g : Nat) (x : GroupSt) : (c.setGrp g x).net = c.net := rfl
@[simp] theorem Chip.setGrp_mem (g : Nat) (x : GroupSt) : (c.setGrp g x).mem = c.mem := rfl
@[simp] theorem Chip.setGrp_sp (g : Nat) (x : GroupSt) : (c.setGrp g x).sp = c.sp := rfl
@[simp] theorem Chip.setGrp_pow (g : Nat) (x : GroupSt) : (c.setGrp g x).pow = c.pow := rfl
@[simp] theorem Chip.setGrp_clk (g : Nat) (x : GroupSt) : (c.setGrp g x).clk = c.clk := rfl
@[simp] theorem Chip.setGrp_flt (g : Nat) (x : GroupSt) : (c.setGrp g x).flt = c.flt := rfl
@[simp] theorem Chip.setGrp_rst (g : Nat) (x : GroupSt) : (c.setGrp g x).rst = c.rst := rfl
@[simp] theorem Chip.setGrp_pin (g : Nat) (x : GroupSt) : (c.setGrp g x).pin = c.pin := rfl
@[simp] theorem Chip.setGrp_ev (g : Nat) (x : GroupSt) : (c.setGrp g x).ev = c.ev := rfl
@[simp] theorem Chip.setGrp_link (g : Nat) (x : GroupSt) : (c.setGrp g x).link = c.link := rfl
@[simp] theorem Chip.setGrp_peeks (g : Nat) (x : GroupSt) : (c.setGrp g x).peeks = c.peeks := rfl
@[simp] theorem Chip.setGrp_stopping (g : Nat) (x : GroupSt) : (c.setGrp g x).stopping = c.stopping := rfl
@[simp] theorem Chip.setGrp_free (g : Nat) (x : GroupSt) : (c.setGrp g x).free = c.free := rfl

/-! `Chip.setLane` -/
@[simp] theorem Chip.setLane_stepping (l : Nat) (x : LaneSt) : (c.setLane l x).stepping = c.stepping := rfl
@[simp] theorem Chip.setLane_regs (l : Nat) (x : LaneSt) : (c.setLane l x).regs = c.regs := rfl
@[simp] theorem Chip.setLane_eng (l : Nat) (x : LaneSt) : (c.setLane l x).eng = c.eng := rfl
@[simp] theorem Chip.setLane_fab (l : Nat) (x : LaneSt) : (c.setLane l x).fab = c.fab := rfl
@[simp] theorem Chip.setLane_stream (l : Nat) (x : LaneSt) : (c.setLane l x).stream = c.stream := rfl
@[simp] theorem Chip.setLane_loader (l : Nat) (x : LaneSt) : (c.setLane l x).loader = c.loader := rfl
@[simp] theorem Chip.setLane_scrub (l : Nat) (x : LaneSt) : (c.setLane l x).scrub = c.scrub := rfl
@[simp] theorem Chip.setLane_net (l : Nat) (x : LaneSt) : (c.setLane l x).net = c.net := rfl
@[simp] theorem Chip.setLane_mem (l : Nat) (x : LaneSt) : (c.setLane l x).mem = c.mem := rfl
@[simp] theorem Chip.setLane_sp (l : Nat) (x : LaneSt) : (c.setLane l x).sp = c.sp := rfl
@[simp] theorem Chip.setLane_pow (l : Nat) (x : LaneSt) : (c.setLane l x).pow = c.pow := rfl
@[simp] theorem Chip.setLane_clk (l : Nat) (x : LaneSt) : (c.setLane l x).clk = c.clk := rfl
@[simp] theorem Chip.setLane_flt (l : Nat) (x : LaneSt) : (c.setLane l x).flt = c.flt := rfl
@[simp] theorem Chip.setLane_rst (l : Nat) (x : LaneSt) : (c.setLane l x).rst = c.rst := rfl
@[simp] theorem Chip.setLane_pin (l : Nat) (x : LaneSt) : (c.setLane l x).pin = c.pin := rfl
@[simp] theorem Chip.setLane_ev (l : Nat) (x : LaneSt) : (c.setLane l x).ev = c.ev := rfl
@[simp] theorem Chip.setLane_peeks (l : Nat) (x : LaneSt) : (c.setLane l x).peeks = c.peeks := rfl
@[simp] theorem Chip.setLane_stopping (l : Nat) (x : LaneSt) : (c.setLane l x).stopping = c.stopping := rfl
@[simp] theorem Chip.setLane_free (l : Nat) (x : LaneSt) : (c.setLane l x).free = c.free := rfl

/-! `Chip.setPort` -/
@[simp] theorem Chip.setPort_stepping (p : Nat) (x : PortSt) : (c.setPort p x).stepping = c.stepping := rfl
@[simp] theorem Chip.setPort_regs (p : Nat) (x : PortSt) : (c.setPort p x).regs = c.regs := rfl
@[simp] theorem Chip.setPort_eng (p : Nat) (x : PortSt) : (c.setPort p x).eng = c.eng := rfl
@[simp] theorem Chip.setPort_fab (p : Nat) (x : PortSt) : (c.setPort p x).fab = c.fab := rfl
@[simp] theorem Chip.setPort_stream (p : Nat) (x : PortSt) : (c.setPort p x).stream = c.stream := rfl
@[simp] theorem Chip.setPort_loader (p : Nat) (x : PortSt) : (c.setPort p x).loader = c.loader := rfl
@[simp] theorem Chip.setPort_scrub (p : Nat) (x : PortSt) : (c.setPort p x).scrub = c.scrub := rfl
@[simp] theorem Chip.setPort_net (p : Nat) (x : PortSt) : (c.setPort p x).net = c.net := rfl
@[simp] theorem Chip.setPort_mem (p : Nat) (x : PortSt) : (c.setPort p x).mem = c.mem := rfl
@[simp] theorem Chip.setPort_sp (p : Nat) (x : PortSt) : (c.setPort p x).sp = c.sp := rfl
@[simp] theorem Chip.setPort_pow (p : Nat) (x : PortSt) : (c.setPort p x).pow = c.pow := rfl
@[simp] theorem Chip.setPort_clk (p : Nat) (x : PortSt) : (c.setPort p x).clk = c.clk := rfl
@[simp] theorem Chip.setPort_flt (p : Nat) (x : PortSt) : (c.setPort p x).flt = c.flt := rfl
@[simp] theorem Chip.setPort_rst (p : Nat) (x : PortSt) : (c.setPort p x).rst = c.rst := rfl
@[simp] theorem Chip.setPort_pin (p : Nat) (x : PortSt) : (c.setPort p x).pin = c.pin := rfl
@[simp] theorem Chip.setPort_ev (p : Nat) (x : PortSt) : (c.setPort p x).ev = c.ev := rfl
@[simp] theorem Chip.setPort_peeks (p : Nat) (x : PortSt) : (c.setPort p x).peeks = c.peeks := rfl
@[simp] theorem Chip.setPort_stopping (p : Nat) (x : PortSt) : (c.setPort p x).stopping = c.stopping := rfl
@[simp] theorem Chip.setPort_free (p : Nat) (x : PortSt) : (c.setPort p x).free = c.free := rfl

/-! `Chip.setSeq` -/
@[simp] theorem Chip.setSeq_stepping (n : Nat) (x : SeqSt) : (c.setSeq n x).stepping = c.stepping := rfl
@[simp] theorem Chip.setSeq_regs (n : Nat) (x : SeqSt) : (c.setSeq n x).regs = c.regs := rfl
@[simp] theorem Chip.setSeq_eng (n : Nat) (x : SeqSt) : (c.setSeq n x).eng = c.eng := rfl
@[simp] theorem Chip.setSeq_stream (n : Nat) (x : SeqSt) : (c.setSeq n x).stream = c.stream := rfl
@[simp] theorem Chip.setSeq_loader (n : Nat) (x : SeqSt) : (c.setSeq n x).loader = c.loader := rfl
@[simp] theorem Chip.setSeq_scrub (n : Nat) (x : SeqSt) : (c.setSeq n x).scrub = c.scrub := rfl
@[simp] theorem Chip.setSeq_net (n : Nat) (x : SeqSt) : (c.setSeq n x).net = c.net := rfl
@[simp] theorem Chip.setSeq_mem (n : Nat) (x : SeqSt) : (c.setSeq n x).mem = c.mem := rfl
@[simp] theorem Chip.setSeq_sp (n : Nat) (x : SeqSt) : (c.setSeq n x).sp = c.sp := rfl
@[simp] theorem Chip.setSeq_pow (n : Nat) (x : SeqSt) : (c.setSeq n x).pow = c.pow := rfl
@[simp] theorem Chip.setSeq_clk (n : Nat) (x : SeqSt) : (c.setSeq n x).clk = c.clk := rfl
@[simp] theorem Chip.setSeq_flt (n : Nat) (x : SeqSt) : (c.setSeq n x).flt = c.flt := rfl
@[simp] theorem Chip.setSeq_rst (n : Nat) (x : SeqSt) : (c.setSeq n x).rst = c.rst := rfl
@[simp] theorem Chip.setSeq_pin (n : Nat) (x : SeqSt) : (c.setSeq n x).pin = c.pin := rfl
@[simp] theorem Chip.setSeq_ev (n : Nat) (x : SeqSt) : (c.setSeq n x).ev = c.ev := rfl
@[simp] theorem Chip.setSeq_link (n : Nat) (x : SeqSt) : (c.setSeq n x).link = c.link := rfl
@[simp] theorem Chip.setSeq_peeks (n : Nat) (x : SeqSt) : (c.setSeq n x).peeks = c.peeks := rfl
@[simp] theorem Chip.setSeq_stopping (n : Nat) (x : SeqSt) : (c.setSeq n x).stopping = c.stopping := rfl
@[simp] theorem Chip.setSeq_free (n : Nat) (x : SeqSt) : (c.setSeq n x).free = c.free := rfl

/-! `Chip.setCrypto` -/
@[simp] theorem Chip.setCrypto_stepping (m : Nat) (x : CryptoSt) : (c.setCrypto m x).stepping = c.stepping := rfl
@[simp] theorem Chip.setCrypto_regs (m : Nat) (x : CryptoSt) : (c.setCrypto m x).regs = c.regs := rfl
@[simp] theorem Chip.setCrypto_eng (m : Nat) (x : CryptoSt) : (c.setCrypto m x).eng = c.eng := rfl
@[simp] theorem Chip.setCrypto_fab (m : Nat) (x : CryptoSt) : (c.setCrypto m x).fab = c.fab := rfl
@[simp] theorem Chip.setCrypto_stream (m : Nat) (x : CryptoSt) : (c.setCrypto m x).stream = c.stream := rfl
@[simp] theorem Chip.setCrypto_loader (m : Nat) (x : CryptoSt) : (c.setCrypto m x).loader = c.loader := rfl
@[simp] theorem Chip.setCrypto_scrub (m : Nat) (x : CryptoSt) : (c.setCrypto m x).scrub = c.scrub := rfl
@[simp] theorem Chip.setCrypto_net (m : Nat) (x : CryptoSt) : (c.setCrypto m x).net = c.net := rfl
@[simp] theorem Chip.setCrypto_sp (m : Nat) (x : CryptoSt) : (c.setCrypto m x).sp = c.sp := rfl
@[simp] theorem Chip.setCrypto_pow (m : Nat) (x : CryptoSt) : (c.setCrypto m x).pow = c.pow := rfl
@[simp] theorem Chip.setCrypto_clk (m : Nat) (x : CryptoSt) : (c.setCrypto m x).clk = c.clk := rfl
@[simp] theorem Chip.setCrypto_flt (m : Nat) (x : CryptoSt) : (c.setCrypto m x).flt = c.flt := rfl
@[simp] theorem Chip.setCrypto_rst (m : Nat) (x : CryptoSt) : (c.setCrypto m x).rst = c.rst := rfl
@[simp] theorem Chip.setCrypto_pin (m : Nat) (x : CryptoSt) : (c.setCrypto m x).pin = c.pin := rfl
@[simp] theorem Chip.setCrypto_ev (m : Nat) (x : CryptoSt) : (c.setCrypto m x).ev = c.ev := rfl
@[simp] theorem Chip.setCrypto_link (m : Nat) (x : CryptoSt) : (c.setCrypto m x).link = c.link := rfl
@[simp] theorem Chip.setCrypto_peeks (m : Nat) (x : CryptoSt) : (c.setCrypto m x).peeks = c.peeks := rfl
@[simp] theorem Chip.setCrypto_stopping (m : Nat) (x : CryptoSt) : (c.setCrypto m x).stopping = c.stopping := rfl
@[simp] theorem Chip.setCrypto_free (m : Nat) (x : CryptoSt) : (c.setCrypto m x).free = c.free := rfl

/-! `Chip.setWait` -/
@[simp] theorem Chip.setWait_stepping (x : StreamWait) : (c.setWait x).stepping = c.stepping := rfl
@[simp] theorem Chip.setWait_regs (x : StreamWait) : (c.setWait x).regs = c.regs := rfl
@[simp] theorem Chip.setWait_eng (x : StreamWait) : (c.setWait x).eng = c.eng := rfl
@[simp] theorem Chip.setWait_fab (x : StreamWait) : (c.setWait x).fab = c.fab := rfl
@[simp] theorem Chip.setWait_loader (x : StreamWait) : (c.setWait x).loader = c.loader := rfl
@[simp] theorem Chip.setWait_scrub (x : StreamWait) : (c.setWait x).scrub = c.scrub := rfl
@[simp] theorem Chip.setWait_net (x : StreamWait) : (c.setWait x).net = c.net := rfl
@[simp] theorem Chip.setWait_mem (x : StreamWait) : (c.setWait x).mem = c.mem := rfl
@[simp] theorem Chip.setWait_sp (x : StreamWait) : (c.setWait x).sp = c.sp := rfl
@[simp] theorem Chip.setWait_pow (x : StreamWait) : (c.setWait x).pow = c.pow := rfl
@[simp] theorem Chip.setWait_clk (x : StreamWait) : (c.setWait x).clk = c.clk := rfl
@[simp] theorem Chip.setWait_flt (x : StreamWait) : (c.setWait x).flt = c.flt := rfl
@[simp] theorem Chip.setWait_rst (x : StreamWait) : (c.setWait x).rst = c.rst := rfl
@[simp] theorem Chip.setWait_pin (x : StreamWait) : (c.setWait x).pin = c.pin := rfl
@[simp] theorem Chip.setWait_ev (x : StreamWait) : (c.setWait x).ev = c.ev := rfl
@[simp] theorem Chip.setWait_link (x : StreamWait) : (c.setWait x).link = c.link := rfl
@[simp] theorem Chip.setWait_peeks (x : StreamWait) : (c.setWait x).peeks = c.peeks := rfl
@[simp] theorem Chip.setWait_stopping (x : StreamWait) : (c.setWait x).stopping = c.stopping := rfl
@[simp] theorem Chip.setWait_free (x : StreamWait) : (c.setWait x).free = c.free := rfl

/-! A report that depends on a condition -/
@[simp] theorem Chip.reportIf_stepping (p : Bool) (pg b : Nat) : (c.reportIf p pg b).stepping = c.stepping := by cases p <;> simp [Chip.reportIf]
@[simp] theorem Chip.reportIf_regs (p : Bool) (pg b : Nat) : (c.reportIf p pg b).regs = c.regs := by cases p <;> simp [Chip.reportIf]
@[simp] theorem Chip.reportIf_eng (p : Bool) (pg b : Nat) : (c.reportIf p pg b).eng = c.eng := by cases p <;> simp [Chip.reportIf]
@[simp] theorem Chip.reportIf_fab (p : Bool) (pg b : Nat) : (c.reportIf p pg b).fab = c.fab := by cases p <;> simp [Chip.reportIf]
@[simp] theorem Chip.reportIf_stream (p : Bool) (pg b : Nat) : (c.reportIf p pg b).stream = c.stream := by cases p <;> simp [Chip.reportIf]
@[simp] theorem Chip.reportIf_loader (p : Bool) (pg b : Nat) : (c.reportIf p pg b).loader = c.loader := by cases p <;> simp [Chip.reportIf]
@[simp] theorem Chip.reportIf_scrub (p : Bool) (pg b : Nat) : (c.reportIf p pg b).scrub = c.scrub := by cases p <;> simp [Chip.reportIf]
@[simp] theorem Chip.reportIf_net (p : Bool) (pg b : Nat) : (c.reportIf p pg b).net = c.net := by cases p <;> simp [Chip.reportIf]
@[simp] theorem Chip.reportIf_mem (p : Bool) (pg b : Nat) : (c.reportIf p pg b).mem = c.mem := by cases p <;> simp [Chip.reportIf]
@[simp] theorem Chip.reportIf_sp (p : Bool) (pg b : Nat) : (c.reportIf p pg b).sp = c.sp := by cases p <;> simp [Chip.reportIf]
@[simp] theorem Chip.reportIf_pow (p : Bool) (pg b : Nat) : (c.reportIf p pg b).pow = c.pow := by cases p <;> simp [Chip.reportIf]
@[simp] theorem Chip.reportIf_clk (p : Bool) (pg b : Nat) : (c.reportIf p pg b).clk = c.clk := by cases p <;> simp [Chip.reportIf]
@[simp] theorem Chip.reportIf_rst (p : Bool) (pg b : Nat) : (c.reportIf p pg b).rst = c.rst := by cases p <;> simp [Chip.reportIf]
@[simp] theorem Chip.reportIf_pin (p : Bool) (pg b : Nat) : (c.reportIf p pg b).pin = c.pin := by cases p <;> simp [Chip.reportIf]
@[simp] theorem Chip.reportIf_ev (p : Bool) (pg b : Nat) : (c.reportIf p pg b).ev = c.ev := by cases p <;> simp [Chip.reportIf]
@[simp] theorem Chip.reportIf_link (p : Bool) (pg b : Nat) : (c.reportIf p pg b).link = c.link := by cases p <;> simp [Chip.reportIf]
@[simp] theorem Chip.reportIf_peeks (p : Bool) (pg b : Nat) : (c.reportIf p pg b).peeks = c.peeks := by cases p <;> simp [Chip.reportIf]
@[simp] theorem Chip.reportIf_stopping (p : Bool) (pg b : Nat) : (c.reportIf p pg b).stopping = c.stopping := by cases p <;> simp [Chip.reportIf]
@[simp] theorem Chip.reportIf_free (p : Bool) (pg b : Nat) : (c.reportIf p pg b).free = c.free := by cases p <;> simp [Chip.reportIf]

/-! After reset -/

/-- The stores of data at reset are in canonical form: nothing is listed. -/
theorem State.reset_wf (d e : BitVec 72) (f : BitVec 12) (g : BitVec 512) :
    Store.wf (fun _ => d) State.reset.chip.eng.sched = true ∧ Store.wf (fun _ => d) State.reset.chip.eng.bank = true ∧
    Store.wf (fun _ => g) State.reset.chip.eng.ctl = true ∧ Store.wf (fun _ => f) State.reset.chip.eng.cmap = true ∧
    Store.wf (fun _ => e) State.reset.chip.fab.now.ram = true ∧ Store.wf (fun _ => e) State.reset.chip.sp.word = true ∧
    Store.wf (fun _ => e) State.reset.chip.ev.flash = true := ⟨rfl, rfl, rfl, rfl, rfl, rfl, rfl⟩

end Sys2Proof.Machine
end

