-- ==== Sys2Proof/Laws/Store.lean ====
section
/-! SUPPORT. The laws of sparse stores: a read after a write, and the canonical form. -/
namespace Sys2Proof.Machine

variable {α : Type}

@[simp] theorem Store.get_nil (d : α) (a : Nat) : Store.get d [] a = d := rfl

/-- An erased key reads as an unlisted one. -/
@[simp] theorem Store.get_erase_same (d : α) (m : List (Nat × α)) (a : Nat) :
    Store.get d (Store.erase m a) a = d := by
  induction m with
  | nil => rfl
  | cons p m ih =>
    obtain ⟨k, v⟩ := p
    by_cases h : k = a
    · simp [Store.erase, h, ih]
    · simp [Store.erase, Store.get, h, ih]

/-- Erasing a key leaves every other key alone. -/
theorem Store.get_erase_other (d : α) (m : List (Nat × α)) {a b : Nat} (h : b ≠ a) :
    Store.get d (Store.erase m a) b = Store.get d m b := by
  induction m with
  | nil => rfl
  | cons p m ih =>
    obtain ⟨k, v⟩ := p
    by_cases hk : k = a
    · subst hk
      simp [Store.erase, Store.get, ih, Ne.symm h]
    · simp [Store.erase, Store.get, hk, ih]

/-- An inserted pair is read back. -/
@[simp] theorem Store.get_insert_same (d : α) (m : List (Nat × α)) (a : Nat) (v : α) :
    Store.get d (Store.insert m a v) a = v := by
  induction m with
  | nil => simp [Store.insert, Store.get]
  | cons p m ih =>
    obtain ⟨k, w⟩ := p
    simp only [Store.insert]
    split
    · simp [Store.get]
    · split
      · simp [Store.get]
      · rename_i h1 h2
        simp [Store.get, Ne.symm h2, ih]

/-- Inserting a pair leaves every other key alone. -/
theorem Store.get_insert_other (d : α) (m : List (Nat × α)) {a b : Nat} (v : α) (h : b ≠ a) :
    Store.get d (Store.insert m a v) b = Store.get d m b := by
  induction m with
  | nil => simp [Store.insert, Store.get, Ne.symm h]
  | cons p m ih =>
    obtain ⟨k, w⟩ := p
    simp only [Store.insert]
    split
    · simp [Store.get, Ne.symm h]
    · split
      · rename_i h1 h2
        subst h2
        simp [Store.get, Ne.symm h]
      · simp [Store.get, ih]

/-- A read after a write to the same key. -/
@[simp] theorem Store.get_put_same [DecidableEq α] (d : α) (m : List (Nat × α)) (a : Nat) (v : α) :
    Store.get d (Store.put d m a v) a = v := by
  unfold Store.put
  split
  · rename_i h; rw [Store.get_erase_same, h]
  · exact Store.get_insert_same d m a v

/-- A write leaves every other key alone. -/
theorem Store.get_put_other [DecidableEq α] (d e : α) (m : List (Nat × α)) {a b : Nat} (v : α) (h : b ≠ a) :
    Store.get e (Store.put d m a v) b = Store.get e m b := by
  unfold Store.put
  split
  · exact Store.get_erase_other e m h
  · exact Store.get_insert_other e m v h

/-- The canonical form from a bound holds from every lower one. -/
theorem Store.wfFrom_mono [DecidableEq α] (d : Nat → α) {n k : Nat} (h : n ≤ k) (m : List (Nat × α))
    (w : Store.wfFrom d k m = true) : Store.wfFrom d n m = true := by
  cases m with
  | nil => rfl
  | cons p m =>
    obtain ⟨a, v⟩ := p
    simp only [Store.wfFrom, Bool.and_eq_true, decide_eq_true_eq] at w ⊢
    exact ⟨⟨by omega, w.1.2⟩, w.2⟩

/-- Erasing keeps the canonical form. -/
theorem Store.wfFrom_erase [DecidableEq α] (d : Nat → α) (a : Nat) (m : List (Nat × α)) (n : Nat)
    (w : Store.wfFrom d n m = true) : Store.wfFrom d n (Store.erase m a) = true := by
  induction m generalizing n with
  | nil => rfl
  | cons p m ih =>
    obtain ⟨k, v⟩ := p
    simp only [Store.wfFrom, Bool.and_eq_true, decide_eq_true_eq] at w
    by_cases h : k = a
    · simp only [Store.erase, h, if_true]
      exact ih n (Store.wfFrom_mono d (by omega) m w.2)
    · simp only [Store.erase, h, if_false, Store.wfFrom, Bool.and_eq_true, decide_eq_true_eq]
      exact ⟨w.1, ih _ w.2⟩

/-- Inserting a pair that differs from the default keeps the canonical form. -/
theorem Store.wfFrom_insert [DecidableEq α] (d : Nat → α) (a : Nat) (v : α) (m : List (Nat × α)) (n : Nat)
    (hn : n ≤ a) (hv : v ≠ d a) (w : Store.wfFrom d n m = true) : Store.wfFrom d n (Store.insert m a v) = true := by
  induction m generalizing n with
  | nil => simp [Store.insert, Store.wfFrom, hn, hv]
  | cons p m ih =>
    obtain ⟨k, u⟩ := p
    simp only [Store.wfFrom, Bool.and_eq_true, decide_eq_true_eq] at w
    simp only [Store.insert]
    split
    · rename_i h
      simp only [Store.wfFrom, Bool.and_eq_true, decide_eq_true_eq]
      exact ⟨⟨hn, hv⟩, ⟨by omega, w.1.2⟩, w.2⟩
    · split
      · rename_i h1 h2
        subst h2
        simp only [Store.wfFrom, Bool.and_eq_true, decide_eq_true_eq]
        exact ⟨⟨hn, hv⟩, w.2⟩
      · simp only [Store.wfFrom, Bool.and_eq_true, decide_eq_true_eq]
        exact ⟨w.1, ih _ (by omega) w.2⟩

/-- A write keeps the canonical form. -/
theorem Store.wf_put [DecidableEq α] (d : Nat → α) (a : Nat) (v : α) (m : List (Nat × α))
    (w : Store.wf d m = true) : Store.wf d (Store.put (d a) m a v) = true := by
  unfold Store.put
  split
  · exact Store.wfFrom_erase d a m 0 w
  · rename_i h; exact Store.wfFrom_insert d a v m 0 (Nat.zero_le a) h w

/-- What is left of a store in canonical form is in canonical form. -/
theorem Store.wfFrom_filter [DecidableEq α] (d : Nat → α) (p : Nat × α → Bool) (m : List (Nat × α)) (n : Nat)
    (w : Store.wfFrom d n m = true) : Store.wfFrom d n (m.filter p) = true := by
  induction m generalizing n with
  | nil => rfl
  | cons q m ih =>
    obtain ⟨k, v⟩ := q
    simp only [Store.wfFrom, Bool.and_eq_true, decide_eq_true_eq] at w
    rw [List.filter_cons]
    split
    · simp only [Store.wfFrom, Bool.and_eq_true, decide_eq_true_eq]
      exact ⟨w.1, ih _ w.2⟩
    · exact ih n (Store.wfFrom_mono d (by omega) m w.2)

/-- Dropping keys keeps the canonical form. -/
theorem Store.wf_drop [DecidableEq α] (d : Nat → α) (p : Nat → Bool) (m : List (Nat × α))
    (w : Store.wf d m = true) : Store.wf d (Store.drop p m) = true :=
  Store.wfFrom_filter d _ m 0 w

/-- A key that is not dropped reads as before. -/
theorem Store.get_drop_other (d : α) (p : Nat → Bool) (m : List (Nat × α)) {a : Nat} (h : p a = false) :
    Store.get d (Store.drop p m) a = Store.get d m a := by
  unfold Store.drop
  induction m with
  | nil => rfl
  | cons q m ih =>
    obtain ⟨k, v⟩ := q
    rw [List.filter_cons]
    split
    · simp only [Store.get, ih]
    · rename_i hk
      have : k ≠ a := by
        intro e; subst e; simp [h] at hk
      simp [Store.get, this, ih]

/-- A dropped key reads as an unlisted one. -/
theorem Store.get_drop_same (d : α) (p : Nat → Bool) (m : List (Nat × α)) {a : Nat} (h : p a = true) :
    Store.get d (Store.drop p m) a = d := by
  unfold Store.drop
  induction m with
  | nil => rfl
  | cons q m ih =>
    obtain ⟨k, v⟩ := q
    rw [List.filter_cons]
    split
    · rename_i hk
      have : k ≠ a := by
        intro e; subst e; simp [h] at hk
      simp [Store.get, this, ih]
    · exact ih

/-- Two stores in canonical form, the keys of the first below a bound and those of the second from it on, make one. -/
theorem Store.wfFrom_append [DecidableEq α] (d : Nat → α) (b : Nat) (xs ys : List (Nat × α)) (n : Nat) (hn : n ≤ b)
    (hx : Store.wfFrom d n xs = true) (hb : ∀ q ∈ xs, q.1 < b) (hy : Store.wfFrom d b ys = true) :
    Store.wfFrom d n (xs ++ ys) = true := by
  induction xs generalizing n with
  | nil => exact Store.wfFrom_mono d hn ys hy
  | cons q xs ih =>
    obtain ⟨k, v⟩ := q
    have hk := hb (k, v) (List.mem_cons_self ..)
    simp only [List.cons_append, Store.wfFrom, Bool.and_eq_true, decide_eq_true_eq] at hx ⊢
    exact ⟨hx.1, ih _ hk hx.2 fun q hq => hb q (List.mem_cons_of_mem _ hq)⟩

/-- A store whose keys all reach a bound is in canonical form from it. -/
theorem Store.wfFrom_raise [DecidableEq α] (d : Nat → α) (b : Nat) (m : List (Nat × α)) (n : Nat)
    (w : Store.wfFrom d n m = true) (hb : ∀ q ∈ m, b ≤ q.1) : Store.wfFrom d b m = true := by
  cases m with
  | nil => rfl
  | cons q m =>
    have hk := hb q (List.mem_cons_self ..)
    simp only [Store.wfFrom, Bool.and_eq_true, decide_eq_true_eq] at w ⊢
    exact ⟨⟨hk, w.1.2⟩, w.2⟩

/-- The pairs of values that follow one another, without the defaults, are in canonical form, and their keys lie in the
range that is written. -/
theorem Store.wfFrom_zip [DecidableEq α] (d : α) (vs : List α) (a : Nat) :
    Store.wfFrom (fun _ => d) a (((vs.zipIdx a).filter fun p => decide (p.1 ≠ d)).map fun p => (p.2, p.1)) = true ∧
    ∀ q ∈ ((vs.zipIdx a).filter fun p => decide (p.1 ≠ d)).map (fun p => (p.2, p.1)), q.1 < a + vs.length := by
  constructor
  · induction vs generalizing a with
    | nil => rfl
    | cons v vs ih =>
      rw [List.zipIdx_cons, List.filter_cons]
      split
      · rename_i h
        simp only [List.map_cons, Store.wfFrom, Bool.and_eq_true, decide_eq_true_eq]
        exact ⟨⟨Nat.le_refl a, by simpa using h⟩, ih (a + 1)⟩
      · exact Store.wfFrom_mono _ (Nat.le_succ a) _ (ih (a + 1))
  · intro q hq
    simp only [List.mem_map, List.mem_filter] at hq
    obtain ⟨p, ⟨hp, -⟩, rfl⟩ := hq
    exact List.snd_lt_add_of_mem_zipIdx hp

/-- A write of values that follow one another keeps the canonical form. -/
theorem Store.wf_load [DecidableEq α] (d : α) (m : List (Nat × α)) (a : Nat) (vs : List α)
    (w : Store.wf (fun _ => d) m = true) : Store.wf (fun _ => d) (Store.load d m a vs) = true := by
  have z := Store.wfFrom_zip d vs a
  have low := Store.wfFrom_filter (fun _ => d) (fun kv => decide (kv.1 < a)) m 0 w
  have high := Store.wfFrom_filter (fun _ => d) (fun kv => decide (a + vs.length ≤ kv.1)) m 0 w
  have high' := Store.wfFrom_raise _ (a + vs.length) _ 0 high fun q hq => by
    simpa using (List.mem_filter.mp hq).2
  unfold Store.wf Store.load
  rw [List.append_assoc]
  refine Store.wfFrom_append _ a _ _ 0 (Nat.zero_le a) low (fun q hq => ?_) ?_
  · simpa using (List.mem_filter.mp hq).2
  · exact Store.wfFrom_append _ (a + vs.length) _ _ a (Nat.le_add_right ..) z.1 z.2 high'

end Sys2Proof.Machine
end

