-- ==== Sys2Proof/Laws/Registers.lean ====
section
/-! SUPPORT. The laws of register fields: a read after a write, writes of other fields, and the updates that write no
field. -/
namespace Sys2Proof.Machine

/-- Two fields are apart at a page and instance each: their keys differ. -/
def apart (F : Fld) (p i : Nat) (G : Fld) (q j : Nat) : Prop := F.key p i ≠ G.key q j

variable (c : Chip)

/-- A field reads as it was written, cut to its width. -/
@[simp] theorem Chip.get_set_same (F : Fld) (p v i : Nat) : (c.set F p v i).get F p i = v % 2 ^ F.width := by
  simp [Chip.get, Chip.set]

/-- A write of a field leaves every field at another key alone. -/
theorem Chip.get_set_other (F G : Fld) (p q v i j : Nat) (h : G.key q j ≠ F.key p i) :
    (c.set F p v i).get G q j = c.get G q j := by
  simp only [Chip.get, Chip.set]
  exact Store.get_put_other _ _ _ _ h

/-- A write leaves every key but its own alone. -/
theorem Chip.regs_set_other (F : Fld) (p v i d k : Nat) (h : k ≠ F.key p i) :
    Store.get d (c.set F p v i).regs k = Store.get d c.regs k := Store.get_put_other _ _ _ _ h

/-- Fields read alike where the register stores are alike. -/
theorem Chip.get_of_regs {c d : Chip} (h : d.regs = c.regs) (F : Fld) (p i : Nat) : d.get F p i = c.get F p i := by
  simp [Chip.get, h]

theorem Chip.bit_of_regs {c d : Chip} (h : d.regs = c.regs) (F : Fld) (p i : Nat) : d.bit F p i = c.bit F p i := by
  simp [Chip.bit, Chip.get, h]

@[simp] theorem b2n_lt (b : Bool) : b2n b < 2 := by cases b <;> decide
@[simp] theorem b2n_mod (b : Bool) : b2n b % 2 = b2n b := by cases b <;> decide

@[simp] theorem Chip.get_report (F : Fld) (p i pg b : Nat) (f : Bool) : (c.report pg b f).get F p i = c.get F p i :=
  Chip.get_of_regs (by simp) F p i
@[simp] theorem Chip.get_reportIf (F : Fld) (p i pg b : Nat) (x : Bool) : (c.reportIf x pg b).get F p i = c.get F p i :=
  Chip.get_of_regs (by simp) F p i
@[simp] theorem Chip.get_setDom (F : Fld) (p i d : Nat) (x : DomSt) : (c.setDom d x).get F p i = c.get F p i :=
  Chip.get_of_regs (by simp) F p i
@[simp] theorem Chip.get_setGate (F : Fld) (p i d : Nat) (x : GateSt) : (c.setGate d x).get F p i = c.get F p i :=
  Chip.get_of_regs (by simp) F p i
@[simp] theorem Chip.get_ask (F : Fld) (p i : Nat) (r : Req) : (c.ask r).get F p i = c.get F p i :=
  Chip.get_of_regs (by simp) F p i
@[simp] theorem Chip.get_setStopping (F : Fld) (p i d : Nat) (x : Bool) : (c.setStopping d x).get F p i = c.get F p i :=
  Chip.get_of_regs (by simp) F p i
@[simp] theorem Chip.get_setGrp (F : Fld) (p i d : Nat) (x : GroupSt) : (c.setGrp d x).get F p i = c.get F p i :=
  Chip.get_of_regs (by simp) F p i
@[simp] theorem Chip.get_setLane (F : Fld) (p i d : Nat) (x : LaneSt) : (c.setLane d x).get F p i = c.get F p i :=
  Chip.get_of_regs (by simp) F p i
@[simp] theorem Chip.get_setPort (F : Fld) (p i d : Nat) (x : PortSt) : (c.setPort d x).get F p i = c.get F p i :=
  Chip.get_of_regs (by simp) F p i
@[simp] theorem Chip.get_setSeq (F : Fld) (p i d : Nat) (x : SeqSt) : (c.setSeq d x).get F p i = c.get F p i :=
  Chip.get_of_regs (by simp) F p i
@[simp] theorem Chip.get_setCrypto (F : Fld) (p i d : Nat) (x : CryptoSt) : (c.setCrypto d x).get F p i = c.get F p i :=
  Chip.get_of_regs (by simp) F p i
@[simp] theorem Chip.get_setWait (F : Fld) (p i : Nat) (x : StreamWait) : (c.setWait x).get F p i = c.get F p i :=
  Chip.get_of_regs (by simp) F p i

/-- A one-bit field reads as it was written. -/
theorem Chip.get_setB_same (F : Fld) (p i : Nat) (b : Bool) (h : F.width = 1) : (c.setB F p b i).get F p i = b2n b := by
  simp [Chip.setB, h]

theorem Chip.get_setB_other (F G : Fld) (p q i j : Nat) (b : Bool) (h : G.key q j ≠ F.key p i) :
    (c.setB F p b i).get G q j = c.get G q j := Chip.get_set_other c F G p q _ i j h

theorem Chip.get_count_other (F G : Fld) (p q i j : Nat) (h : G.key q j ≠ F.key p i) :
    (c.count F p i).get G q j = c.get G q j := Chip.get_set_other c F G p q _ i j h

theorem Chip.get_orBits_other (F G : Fld) (p q v i j : Nat) (h : G.key q j ≠ F.key p i) :
    (c.orBits F p v i).get G q j = c.get G q j := Chip.get_set_other c F G p q _ i j h

theorem Chip.get_wign_other (G : Fld) (p q j : Nat) (h : G.key q j ≠ PG_STS_WIGN.key p 0) :
    (c.wign p).get G q j = c.get G q j := Chip.get_set_other c PG_STS_WIGN G p q _ 0 j h

/-- A dropped write shows in WIGN (00, R18). -/
@[simp] theorem Chip.get_wign_same (p : Nat) : (c.wign p).get PG_STS_WIGN p = 1 := by
  simp [Chip.wign, Fld.width, PG_STS_WIGN]

/-- A write of a field keeps the canonical form of the register store, whatever unlisted keys read as. -/
theorem Chip.set_regs_wf (F : Fld) (p v i : Nat) (d : Nat → Nat) (hd : d (F.key p i) = F.resetAt p i)
    (w : Store.wf d c.regs = true) : Store.wf d (c.set F p v i).regs = true := by
  have h := Store.wf_put d (F.key p i) (v % 2 ^ F.width) c.regs w
  rw [hd] at h
  exact h

/-- Fields at different places of a page are apart, whatever their pages and instances. -/
theorem Fld.key_ne_code {F G : Fld} (hF : F.code < 0x20000) (hG : G.code < 0x20000) (h : F.code ≠ G.code) (p q i j : Nat) :
    F.key p i ≠ G.key q j := by
  unfold Fld.key
  omega

/-- Fields of different pages are apart. -/
theorem Fld.key_ne_page {F G : Fld} {p q : Nat} (hF : F.code < 0x20000) (hG : G.code < 0x20000) (hp : p < 0x10000)
    (hq : q < 0x10000) (h : p ≠ q) (i j : Nat) : F.key p i ≠ G.key q j := by
  unfold Fld.key
  omega

/-- Instances of a field are apart. -/
theorem Fld.key_ne_inst {F : Fld} {p q i j : Nat} (hp : p < 0x10000) (hq : q < 0x10000) (h : i ≠ j) : F.key p i ≠ F.key q j := by
  unfold Fld.key
  omega

/-- A write of a field at another place. -/
theorem Chip.get_set_code (F G : Fld) (p q v i j : Nat) (h : F.code < 0x20000 ∧ G.code < 0x20000 ∧ G.code ≠ F.code) :
    (c.set F p v i).get G q j = c.get G q j :=
  Chip.get_set_other c F G p q v i j (Fld.key_ne_code h.2.1 h.1 h.2.2 q p j i)

theorem Chip.get_setB_code (F G : Fld) (p q i j : Nat) (b : Bool) (h : F.code < 0x20000 ∧ G.code < 0x20000 ∧ G.code ≠ F.code) :
    (c.setB F p b i).get G q j = c.get G q j := Chip.get_set_code c F G p q _ i j h

theorem Chip.get_count_code (F G : Fld) (p q i j : Nat) (h : F.code < 0x20000 ∧ G.code < 0x20000 ∧ G.code ≠ F.code) :
    (c.count F p i).get G q j = c.get G q j := Chip.get_set_code c F G p q _ i j h

theorem Chip.get_orBits_code (F G : Fld) (p q v i j : Nat) (h : F.code < 0x20000 ∧ G.code < 0x20000 ∧ G.code ≠ F.code) :
    (c.orBits F p v i).get G q j = c.get G q j := Chip.get_set_code c F G p q _ i j h

theorem Chip.get_wign_code (G : Fld) (p q j : Nat) (h : G.code < 0x20000 ∧ G.code ≠ PG_STS_WIGN.code) :
    (c.wign p).get G q j = c.get G q j := Chip.get_set_code c PG_STS_WIGN G p q 1 0 j ⟨by decide, h.1, h.2⟩

/-- A field of a choice between two devices. -/
theorem Chip.get_ite (x : Prop) [Decidable x] (a b : Chip) (F : Fld) (p i : Nat) :
    (if x then a else b).get F p i = if x then a.get F p i else b.get F p i := by split <;> rfl

/-- A field that every step of a fold leaves alone. -/
theorem Chip.get_foldl {α : Type} (F : Fld) (p i : Nat) (f : Chip → α → Chip) (h : ∀ d x, (f d x).get F p i = d.get F p i)
    (xs : List α) (c : Chip) : (xs.foldl f c).get F p i = c.get F p i := by
  induction xs generalizing c with
  | nil => rfl
  | cons x xs ih => rw [List.foldl_cons, ih, h]

theorem Chip.get_each (F : Fld) (p i : Nat) (f : Chip → Nat → Chip) (h : ∀ d x, (f d x).get F p i = d.get F p i)
    (xs : List Nat) (c : Chip) : (c.each xs f).get F p i = c.get F p i := Chip.get_foldl F p i f h xs c

end Sys2Proof.Machine
end

