-- ==== Sys2Proof/Laws/Frames.lean ====
section
/-! SUPPORT. How what a device holds stays as it is through nested updates: a relation that composes. -/
namespace Sys2Proof.Machine

/-- A register field is the same in two devices, on every page and in every instance. -/
def KeepG (G : Fld) (c d : Chip) : Prop := ∀ q j, d.get G q j = c.get G q j

/-- A register field that reads 0 in the first of two devices reads 0 in the second, where its reset value is 0. -/
def Down (G : Fld) (c d : Chip) : Prop := ∀ q j, G.resetAt q j = 0 → c.get G q j = 0 → d.get G q j = 0

/-- A part of the state is the same in two devices. -/
def Keep {α : Type} (φ : Chip → α) (c d : Chip) : Prop := φ d = φ c

section fields
variable {G : Fld} {c d : Chip}

theorem KeepG.refl : KeepG G c c := fun _ _ => rfl

theorem KeepG.ite {x : Prop} [Decidable x] {a b : Chip} (ha : KeepG G c a) (hb : KeepG G c b) :
    KeepG G c (if x then a else b) := by split <;> assumption

theorem KeepG.of_regs (h : KeepG G c d) {e : Chip} (r : e.regs = d.regs) : KeepG G c e :=
  fun q j => (Chip.get_of_regs r G q j).trans (h q j)

theorem KeepG.mk (h : KeepG G c d) {x1 x3 x4 x5 x6 x7 x8 x9 x10 x11 x12 x13 x14 x15 x16 x17 x18 x19 x20} :
    KeepG G c (Chip.mk x1 d.regs x3 x4 x5 x6 x7 x8 x9 x10 x11 x12 x13 x14 x15 x16 x17 x18 x19 x20) := h.of_regs rfl

theorem KeepG.set {F : Fld} {p v i : Nat} (h : KeepG G c d) (n : F.code < 0x20000 ∧ G.code < 0x20000 ∧ G.code ≠ F.code) :
    KeepG G c (d.set F p v i) := fun q j => (Chip.get_set_code d F G p q v i j n).trans (h q j)

theorem KeepG.setB {F : Fld} {p i : Nat} {v : Bool} (h : KeepG G c d) (n : F.code < 0x20000 ∧ G.code < 0x20000 ∧ G.code ≠ F.code) :
    KeepG G c (d.setB F p v i) := h.set n

theorem KeepG.laneSet {F : Fld} {p v : Nat} (h : KeepG G c d) (n : F.code < 0x20000 ∧ G.code < 0x20000 ∧ G.code ≠ F.code) :
    KeepG G c (d.laneSet F p v) := h.set n

theorem KeepG.count {F : Fld} {p i : Nat} (h : KeepG G c d) (n : F.code < 0x20000 ∧ G.code < 0x20000 ∧ G.code ≠ F.code) :
    KeepG G c (d.count F p i) := h.set n

theorem KeepG.orBits {F : Fld} {p v i : Nat} (h : KeepG G c d) (n : F.code < 0x20000 ∧ G.code < 0x20000 ∧ G.code ≠ F.code) :
    KeepG G c (d.orBits F p v i) := h.set n

theorem KeepG.wign {p : Nat} (h : KeepG G c d) (n : G.code < 0x20000 ∧ G.code ≠ PG_STS_WIGN.code) : KeepG G c (d.wign p) :=
  h.set ⟨by decide, n⟩

theorem KeepG.report {p b : Nat} {f : Bool} (h : KeepG G c d) : KeepG G c (d.report p b f) := h.of_regs (by simp)
theorem KeepG.reportIf {x : Bool} {p b : Nat} (h : KeepG G c d) : KeepG G c (d.reportIf x p b) := h.of_regs (by simp)
theorem KeepG.ask {r : Req} (h : KeepG G c d) : KeepG G c (d.ask r) := h.of_regs (by simp)
theorem KeepG.setStopping {p : Nat} {b : Bool} (h : KeepG G c d) : KeepG G c (d.setStopping p b) := h.of_regs (by simp)
theorem KeepG.setGate {p : Nat} {x : GateSt} (h : KeepG G c d) : KeepG G c (d.setGate p x) := h.of_regs (by simp)
theorem KeepG.setDom {p : Nat} {x : DomSt} (h : KeepG G c d) : KeepG G c (d.setDom p x) := h.of_regs (by simp)
theorem KeepG.setGrp {p : Nat} {x : GroupSt} (h : KeepG G c d) : KeepG G c (d.setGrp p x) := h.of_regs (by simp)
theorem KeepG.setLane {p : Nat} {x : LaneSt} (h : KeepG G c d) : KeepG G c (d.setLane p x) := h.of_regs (by simp)
theorem KeepG.setPort {p : Nat} {x : PortSt} (h : KeepG G c d) : KeepG G c (d.setPort p x) := h.of_regs (by simp)
theorem KeepG.setSeq {p : Nat} {x : SeqSt} (h : KeepG G c d) : KeepG G c (d.setSeq p x) := h.of_regs (by simp)
theorem KeepG.setCrypto {p : Nat} {x : CryptoSt} (h : KeepG G c d) : KeepG G c (d.setCrypto p x) := h.of_regs (by simp)
theorem KeepG.setWait {x : StreamWait} (h : KeepG G c d) : KeepG G c (d.setWait x) := h.of_regs (by simp)

theorem KeepG.foldl {α : Type} {f : Chip → α → Chip} {xs : List α} (hf : ∀ e x, KeepG G c e → KeepG G c (f e x))
    (h : KeepG G c d) : KeepG G c (xs.foldl f d) := by
  induction xs generalizing d with
  | nil => exact h
  | cons x xs ih => exact ih (hf d x h)

theorem KeepG.each {f : Chip → Nat → Chip} {xs : List Nat} (hf : ∀ e x, KeepG G c e → KeepG G c (f e x))
    (h : KeepG G c d) : KeepG G c (d.each xs f) := KeepG.foldl hf h

theorem KeepG.of_snd {α : Type} {r : α × Chip} {a : α} (e : r = (a, d)) (h : KeepG G c r.2) : KeepG G c d := by
  rw [e] at h; exact h

theorem KeepG.of_fst {α : Type} {r : Chip × α} {a : α} (e : r = (d, a)) (h : KeepG G c r.1) : KeepG G c d := by
  rw [e] at h; exact h

/-- A cleared block keeps the fields of the common header. -/
theorem KeepG.clearBlock {p : Nat} (h : KeepG G c d) (n : G.code < 0x800) : KeepG G c (d.clearBlock p) := by
  intro q j
  have k : keyOff (G.key q j) < 0x40 := by
    unfold keyOff Fld.key
    omega
  exact (Store.get_drop_other (G.resetAt q j) (fun k => keyPage k == p && 0x40 ≤ keyOff k) d.regs (by simp [k])).trans (h q j)

end fields

section down
variable {G : Fld} {c d : Chip}

theorem Down.refl : Down G c c := fun _ _ _ h => h

theorem Down.ite {x : Prop} [Decidable x] {a b : Chip} (ha : Down G c a) (hb : Down G c b) :
    Down G c (if x then a else b) := by split <;> assumption

theorem Down.of_regs (h : Down G c d) {e : Chip} (r : e.regs = d.regs) : Down G c e :=
  fun q j r0 z => (Chip.get_of_regs r G q j).trans (h q j r0 z)

theorem Down.mk (h : Down G c d) {x1 x3 x4 x5 x6 x7 x8 x9 x10 x11 x12 x13 x14 x15 x16 x17 x18 x19 x20} :
    Down G c (Chip.mk x1 d.regs x3 x4 x5 x6 x7 x8 x9 x10 x11 x12 x13 x14 x15 x16 x17 x18 x19 x20) := h.of_regs rfl

theorem Down.set {F : Fld} {p v i : Nat} (h : Down G c d) (n : F.code < 0x20000 ∧ G.code < 0x20000 ∧ G.code ≠ F.code) :
    Down G c (d.set F p v i) := fun q j r0 z => (Chip.get_set_code d F G p q v i j n).trans (h q j r0 z)

theorem Down.setB {F : Fld} {p i : Nat} {v : Bool} (h : Down G c d) (n : F.code < 0x20000 ∧ G.code < 0x20000 ∧ G.code ≠ F.code) :
    Down G c (d.setB F p v i) := h.set n

theorem Down.laneSet {F : Fld} {p v : Nat} (h : Down G c d) (n : F.code < 0x20000 ∧ G.code < 0x20000 ∧ G.code ≠ F.code) :
    Down G c (d.laneSet F p v) := h.set n

theorem Down.count {F : Fld} {p i : Nat} (h : Down G c d) (n : F.code < 0x20000 ∧ G.code < 0x20000 ∧ G.code ≠ F.code) :
    Down G c (d.count F p i) := h.set n

theorem Down.orBits {F : Fld} {p v i : Nat} (h : Down G c d) (n : F.code < 0x20000 ∧ G.code < 0x20000 ∧ G.code ≠ F.code) :
    Down G c (d.orBits F p v i) := h.set n

theorem Down.wign {p : Nat} (h : Down G c d) (n : G.code < 0x20000 ∧ G.code ≠ PG_STS_WIGN.code) : Down G c (d.wign p) :=
  h.set ⟨by decide, n⟩

theorem Down.report {p b : Nat} {f : Bool} (h : Down G c d) : Down G c (d.report p b f) := h.of_regs (by simp)
theorem Down.reportIf {x : Bool} {p b : Nat} (h : Down G c d) : Down G c (d.reportIf x p b) := h.of_regs (by simp)
theorem Down.ask {r : Req} (h : Down G c d) : Down G c (d.ask r) := h.of_regs (by simp)
theorem Down.setStopping {p : Nat} {b : Bool} (h : Down G c d) : Down G c (d.setStopping p b) := h.of_regs (by simp)
theorem Down.setGate {p : Nat} {x : GateSt} (h : Down G c d) : Down G c (d.setGate p x) := h.of_regs (by simp)
theorem Down.setDom {p : Nat} {x : DomSt} (h : Down G c d) : Down G c (d.setDom p x) := h.of_regs (by simp)
theorem Down.setGrp {p : Nat} {x : GroupSt} (h : Down G c d) : Down G c (d.setGrp p x) := h.of_regs (by simp)
theorem Down.setLane {p : Nat} {x : LaneSt} (h : Down G c d) : Down G c (d.setLane p x) := h.of_regs (by simp)
theorem Down.setPort {p : Nat} {x : PortSt} (h : Down G c d) : Down G c (d.setPort p x) := h.of_regs (by simp)
theorem Down.setSeq {p : Nat} {x : SeqSt} (h : Down G c d) : Down G c (d.setSeq p x) := h.of_regs (by simp)
theorem Down.setCrypto {p : Nat} {x : CryptoSt} (h : Down G c d) : Down G c (d.setCrypto p x) := h.of_regs (by simp)
theorem Down.setWait {x : StreamWait} (h : Down G c d) : Down G c (d.setWait x) := h.of_regs (by simp)

/-- The field itself falls to 0. -/
theorem Down.fall {p i : Nat} (h : Down G c d) : Down G c (d.setB G p false i) := by
  intro q j r z
  by_cases e : G.key q j = G.key p i
  · simp only [Chip.get, Chip.set, Chip.setB, b2n, e, r, Store.put, Bool.false_eq_true, if_false, Nat.zero_mod]
    split
    · exact Store.get_erase_same ..
    · exact Store.get_insert_same ..
  · exact (Chip.get_setB_other d G G p q i j false e).trans (h q j r z)

theorem Down.foldl {α : Type} {f : Chip → α → Chip} {xs : List α} (hf : ∀ e x, Down G c e → Down G c (f e x))
    (h : Down G c d) : Down G c (xs.foldl f d) := by
  induction xs generalizing d with
  | nil => exact h
  | cons x xs ih => exact ih (hf d x h)

theorem Down.each {f : Chip → Nat → Chip} {xs : List Nat} (hf : ∀ e x, Down G c e → Down G c (f e x))
    (h : Down G c d) : Down G c (d.each xs f) := Down.foldl hf h

theorem Down.of_snd {α : Type} {r : α × Chip} {a : α} (e : r = (a, d)) (h : Down G c r.2) : Down G c d := by
  rw [e] at h; exact h

theorem Down.of_fst {α : Type} {r : Chip × α} {a : α} (e : r = (d, a)) (h : Down G c r.1) : Down G c d := by
  rw [e] at h; exact h

/-- A cleared block's fields read their reset values. -/
theorem Down.clearBlock {p : Nat} (h : Down G c d) : Down G c (d.clearBlock p) := by
  intro q j r z
  by_cases e : (keyPage (G.key q j) == p && decide (0x40 ≤ keyOff (G.key q j))) = true
  · exact (Store.get_drop_same (G.resetAt q j) (fun k => keyPage k == p && 0x40 ≤ keyOff k) d.regs e).trans r
  · exact (Store.get_drop_other (G.resetAt q j) (fun k => keyPage k == p && 0x40 ≤ keyOff k) d.regs (Bool.eq_false_iff.mpr e)).trans
      (h q j r z)

end down

section parts
variable {α : Type} {φ : Chip → α} {c d : Chip}

theorem Keep.refl : Keep φ c c := rfl

theorem Keep.ite {x : Prop} [Decidable x] {a b : Chip} (ha : Keep φ c a) (hb : Keep φ c b) :
    Keep φ c (if x then a else b) := by split <;> assumption

theorem Keep.foldl {β : Type} {f : Chip → β → Chip} {xs : List β} (hf : ∀ e x, Keep φ c e → Keep φ c (f e x))
    (h : Keep φ c d) : Keep φ c (xs.foldl f d) := by
  induction xs generalizing d with
  | nil => exact h
  | cons x xs ih => exact ih (hf d x h)

theorem Keep.each {f : Chip → Nat → Chip} {xs : List Nat} (hf : ∀ e x, Keep φ c e → Keep φ c (f e x))
    (h : Keep φ c d) : Keep φ c (d.each xs f) := Keep.foldl hf h

theorem Keep.of_snd {β : Type} {r : β × Chip} {a : β} (e : r = (a, d)) (h : Keep φ c r.2) : Keep φ c d := by
  rw [e] at h; exact h

theorem Keep.of_fst {β : Type} {r : Chip × β} {a : β} (e : r = (d, a)) (h : Keep φ c r.1) : Keep φ c d := by
  rw [e] at h; exact h

end parts

end Sys2Proof.Machine
end

