-- ==== Sys2Proof/Laws/Parts.lean ====
section
/-! SUPPORT. What a group, a domain, a gate, a lane, a link port, a sequencer and a crypto engine hold after each update of
the device. -/
namespace Sys2Proof.Machine

variable (c : Chip)

/-! `Chip.grp` -/
@[simp] theorem Chip.grp_setGrp_same (k : Nat) (x : GroupSt) : (c.setGrp k x).grp k = x := Store.get_put_same _ _ _ _
theorem Chip.grp_setGrp_other (k j : Nat) (x : GroupSt) (h : j ≠ k) : (c.setGrp k x).grp j = c.grp j := Store.get_put_other _ _ _ _ h
@[simp] theorem Chip.grp_set (F : Fld) (p v i : Nat) (j : Nat) : (c.set F p v i).grp j = c.grp j := rfl
@[simp] theorem Chip.grp_setB (F : Fld) (p i : Nat) (b : Bool) (j : Nat) : (c.setB F p b i).grp j = c.grp j := rfl
@[simp] theorem Chip.grp_count (F : Fld) (p i : Nat) (j : Nat) : (c.count F p i).grp j = c.grp j := rfl
@[simp] theorem Chip.grp_orBits (F : Fld) (p v i : Nat) (j : Nat) : (c.orBits F p v i).grp j = c.grp j := rfl
@[simp] theorem Chip.grp_wign (p : Nat) (j : Nat) : (c.wign p).grp j = c.grp j := rfl
@[simp] theorem Chip.grp_clearBlock (p : Nat) (j : Nat) : (c.clearBlock p).grp j = c.grp j := rfl
@[simp] theorem Chip.grp_ask (r : Req) (j : Nat) : (c.ask r).grp j = c.grp j := rfl
@[simp] theorem Chip.grp_setStopping (p : Nat) (b : Bool) (j : Nat) : (c.setStopping p b).grp j = c.grp j := rfl
@[simp] theorem Chip.grp_setWait (w : StreamWait) (j : Nat) : (c.setWait w).grp j = c.grp j := rfl
@[simp] theorem Chip.grp_report (p b : Nat) (f : Bool) (j : Nat) : (c.report p b f).grp j = c.grp j := by simp [Chip.grp]
@[simp] theorem Chip.grp_reportIf (x : Bool) (p b : Nat) (j : Nat) : (c.reportIf x p b).grp j = c.grp j := by simp [Chip.grp]
@[simp] theorem Chip.grp_setDom (k : Nat) (x : DomSt) (j : Nat) : (c.setDom k x).grp j = c.grp j := rfl
@[simp] theorem Chip.grp_setGate (k : Nat) (x : GateSt) (j : Nat) : (c.setGate k x).grp j = c.grp j := rfl
@[simp] theorem Chip.grp_setLane (k : Nat) (x : LaneSt) (j : Nat) : (c.setLane k x).grp j = c.grp j := rfl
@[simp] theorem Chip.grp_setPort (k : Nat) (x : PortSt) (j : Nat) : (c.setPort k x).grp j = c.grp j := rfl
@[simp] theorem Chip.grp_setSeq (k : Nat) (x : SeqSt) (j : Nat) : (c.setSeq k x).grp j = c.grp j := rfl
@[simp] theorem Chip.grp_setCrypto (k : Nat) (x : CryptoSt) (j : Nat) : (c.setCrypto k x).grp j = c.grp j := rfl

/-! `Chip.dom` -/
@[simp] theorem Chip.dom_setDom_same (k : Nat) (x : DomSt) : (c.setDom k x).dom k = x := Store.get_put_same _ _ _ _
theorem Chip.dom_setDom_other (k j : Nat) (x : DomSt) (h : j ≠ k) : (c.setDom k x).dom j = c.dom j := Store.get_put_other _ _ _ _ h
@[simp] theorem Chip.dom_set (F : Fld) (p v i : Nat) (j : Nat) : (c.set F p v i).dom j = c.dom j := rfl
@[simp] theorem Chip.dom_setB (F : Fld) (p i : Nat) (b : Bool) (j : Nat) : (c.setB F p b i).dom j = c.dom j := rfl
@[simp] theorem Chip.dom_count (F : Fld) (p i : Nat) (j : Nat) : (c.count F p i).dom j = c.dom j := rfl
@[simp] theorem Chip.dom_orBits (F : Fld) (p v i : Nat) (j : Nat) : (c.orBits F p v i).dom j = c.dom j := rfl
@[simp] theorem Chip.dom_wign (p : Nat) (j : Nat) : (c.wign p).dom j = c.dom j := rfl
@[simp] theorem Chip.dom_clearBlock (p : Nat) (j : Nat) : (c.clearBlock p).dom j = c.dom j := rfl
@[simp] theorem Chip.dom_ask (r : Req) (j : Nat) : (c.ask r).dom j = c.dom j := rfl
@[simp] theorem Chip.dom_setStopping (p : Nat) (b : Bool) (j : Nat) : (c.setStopping p b).dom j = c.dom j := rfl
@[simp] theorem Chip.dom_setWait (w : StreamWait) (j : Nat) : (c.setWait w).dom j = c.dom j := rfl
@[simp] theorem Chip.dom_report (p b : Nat) (f : Bool) (j : Nat) : (c.report p b f).dom j = c.dom j := by simp [Chip.dom]
@[simp] theorem Chip.dom_reportIf (x : Bool) (p b : Nat) (j : Nat) : (c.reportIf x p b).dom j = c.dom j := by simp [Chip.dom]
@[simp] theorem Chip.dom_setGrp (k : Nat) (x : GroupSt) (j : Nat) : (c.setGrp k x).dom j = c.dom j := rfl
@[simp] theorem Chip.dom_setGate (k : Nat) (x : GateSt) (j : Nat) : (c.setGate k x).dom j = c.dom j := rfl
@[simp] theorem Chip.dom_setLane (k : Nat) (x : LaneSt) (j : Nat) : (c.setLane k x).dom j = c.dom j := rfl
@[simp] theorem Chip.dom_setPort (k : Nat) (x : PortSt) (j : Nat) : (c.setPort k x).dom j = c.dom j := rfl
@[simp] theorem Chip.dom_setSeq (k : Nat) (x : SeqSt) (j : Nat) : (c.setSeq k x).dom j = c.dom j := rfl
@[simp] theorem Chip.dom_setCrypto (k : Nat) (x : CryptoSt) (j : Nat) : (c.setCrypto k x).dom j = c.dom j := rfl

/-! `Chip.gate` -/
@[simp] theorem Chip.gate_setGate_same (k : Nat) (x : GateSt) : (c.setGate k x).gate k = x := Store.get_put_same _ _ _ _
theorem Chip.gate_setGate_other (k j : Nat) (x : GateSt) (h : j ≠ k) : (c.setGate k x).gate j = c.gate j := Store.get_put_other _ _ _ _ h
@[simp] theorem Chip.gate_set (F : Fld) (p v i : Nat) (j : Nat) : (c.set F p v i).gate j = c.gate j := rfl
@[simp] theorem Chip.gate_setB (F : Fld) (p i : Nat) (b : Bool) (j : Nat) : (c.setB F p b i).gate j = c.gate j := rfl
@[simp] theorem Chip.gate_count (F : Fld) (p i : Nat) (j : Nat) : (c.count F p i).gate j = c.gate j := rfl
@[simp] theorem Chip.gate_orBits (F : Fld) (p v i : Nat) (j : Nat) : (c.orBits F p v i).gate j = c.gate j := rfl
@[simp] theorem Chip.gate_wign (p : Nat) (j : Nat) : (c.wign p).gate j = c.gate j := rfl
@[simp] theorem Chip.gate_clearBlock (p : Nat) (j : Nat) : (c.clearBlock p).gate j = c.gate j := rfl
@[simp] theorem Chip.gate_ask (r : Req) (j : Nat) : (c.ask r).gate j = c.gate j := rfl
@[simp] theorem Chip.gate_setStopping (p : Nat) (b : Bool) (j : Nat) : (c.setStopping p b).gate j = c.gate j := rfl
@[simp] theorem Chip.gate_setWait (w : StreamWait) (j : Nat) : (c.setWait w).gate j = c.gate j := rfl
@[simp] theorem Chip.gate_report (p b : Nat) (f : Bool) (j : Nat) : (c.report p b f).gate j = c.gate j := by simp [Chip.gate]
@[simp] theorem Chip.gate_reportIf (x : Bool) (p b : Nat) (j : Nat) : (c.reportIf x p b).gate j = c.gate j := by simp [Chip.gate]
@[simp] theorem Chip.gate_setGrp (k : Nat) (x : GroupSt) (j : Nat) : (c.setGrp k x).gate j = c.gate j := rfl
@[simp] theorem Chip.gate_setDom (k : Nat) (x : DomSt) (j : Nat) : (c.setDom k x).gate j = c.gate j := rfl
@[simp] theorem Chip.gate_setLane (k : Nat) (x : LaneSt) (j : Nat) : (c.setLane k x).gate j = c.gate j := rfl
@[simp] theorem Chip.gate_setPort (k : Nat) (x : PortSt) (j : Nat) : (c.setPort k x).gate j = c.gate j := rfl
@[simp] theorem Chip.gate_setSeq (k : Nat) (x : SeqSt) (j : Nat) : (c.setSeq k x).gate j = c.gate j := rfl
@[simp] theorem Chip.gate_setCrypto (k : Nat) (x : CryptoSt) (j : Nat) : (c.setCrypto k x).gate j = c.gate j := rfl

/-! `Chip.laneSt` -/
@[simp] theorem Chip.laneSt_setLane_same (k : Nat) (x : LaneSt) : (c.setLane k x).laneSt k = x := Store.get_put_same _ _ _ _
theorem Chip.laneSt_setLane_other (k j : Nat) (x : LaneSt) (h : j ≠ k) : (c.setLane k x).laneSt j = c.laneSt j := Store.get_put_other _ _ _ _ h
@[simp] theorem Chip.laneSt_set (F : Fld) (p v i : Nat) (j : Nat) : (c.set F p v i).laneSt j = c.laneSt j := rfl
@[simp] theorem Chip.laneSt_setB (F : Fld) (p i : Nat) (b : Bool) (j : Nat) : (c.setB F p b i).laneSt j = c.laneSt j := rfl
@[simp] theorem Chip.laneSt_count (F : Fld) (p i : Nat) (j : Nat) : (c.count F p i).laneSt j = c.laneSt j := rfl
@[simp] theorem Chip.laneSt_orBits (F : Fld) (p v i : Nat) (j : Nat) : (c.orBits F p v i).laneSt j = c.laneSt j := rfl
@[simp] theorem Chip.laneSt_wign (p : Nat) (j : Nat) : (c.wign p).laneSt j = c.laneSt j := rfl
@[simp] theorem Chip.laneSt_clearBlock (p : Nat) (j : Nat) : (c.clearBlock p).laneSt j = c.laneSt j := rfl
@[simp] theorem Chip.laneSt_ask (r : Req) (j : Nat) : (c.ask r).laneSt j = c.laneSt j := rfl
@[simp] theorem Chip.laneSt_setStopping (p : Nat) (b : Bool) (j : Nat) : (c.setStopping p b).laneSt j = c.laneSt j := rfl
@[simp] theorem Chip.laneSt_setWait (w : StreamWait) (j : Nat) : (c.setWait w).laneSt j = c.laneSt j := rfl
@[simp] theorem Chip.laneSt_report (p b : Nat) (f : Bool) (j : Nat) : (c.report p b f).laneSt j = c.laneSt j := by simp [Chip.laneSt]
@[simp] theorem Chip.laneSt_reportIf (x : Bool) (p b : Nat) (j : Nat) : (c.reportIf x p b).laneSt j = c.laneSt j := by simp [Chip.laneSt]
@[simp] theorem Chip.laneSt_setGrp (k : Nat) (x : GroupSt) (j : Nat) : (c.setGrp k x).laneSt j = c.laneSt j := rfl
@[simp] theorem Chip.laneSt_setDom (k : Nat) (x : DomSt) (j : Nat) : (c.setDom k x).laneSt j = c.laneSt j := rfl
@[simp] theorem Chip.laneSt_setGate (k : Nat) (x : GateSt) (j : Nat) : (c.setGate k x).laneSt j = c.laneSt j := rfl
@[simp] theorem Chip.laneSt_setPort (k : Nat) (x : PortSt) (j : Nat) : (c.setPort k x).laneSt j = c.laneSt j := rfl
@[simp] theorem Chip.laneSt_setSeq (k : Nat) (x : SeqSt) (j : Nat) : (c.setSeq k x).laneSt j = c.laneSt j := rfl
@[simp] theorem Chip.laneSt_setCrypto (k : Nat) (x : CryptoSt) (j : Nat) : (c.setCrypto k x).laneSt j = c.laneSt j := rfl

/-! `Chip.portSt` -/
@[simp] theorem Chip.portSt_setPort_same (k : Nat) (x : PortSt) : (c.setPort k x).portSt k = x := Store.get_put_same _ _ _ _
theorem Chip.portSt_setPort_other (k j : Nat) (x : PortSt) (h : j ≠ k) : (c.setPort k x).portSt j = c.portSt j := Store.get_put_other _ _ _ _ h
@[simp] theorem Chip.portSt_set (F : Fld) (p v i : Nat) (j : Nat) : (c.set F p v i).portSt j = c.portSt j := rfl
@[simp] theorem Chip.portSt_setB (F : Fld) (p i : Nat) (b : Bool) (j : Nat) : (c.setB F p b i).portSt j = c.portSt j := rfl
@[simp] theorem Chip.portSt_count (F : Fld) (p i : Nat) (j : Nat) : (c.count F p i).portSt j = c.portSt j := rfl
@[simp] theorem Chip.portSt_orBits (F : Fld) (p v i : Nat) (j : Nat) : (c.orBits F p v i).portSt j = c.portSt j := rfl
@[simp] theorem Chip.portSt_wign (p : Nat) (j : Nat) : (c.wign p).portSt j = c.portSt j := rfl
@[simp] theorem Chip.portSt_clearBlock (p : Nat) (j : Nat) : (c.clearBlock p).portSt j = c.portSt j := rfl
@[simp] theorem Chip.portSt_ask (r : Req) (j : Nat) : (c.ask r).portSt j = c.portSt j := rfl
@[simp] theorem Chip.portSt_setStopping (p : Nat) (b : Bool) (j : Nat) : (c.setStopping p b).portSt j = c.portSt j := rfl
@[simp] theorem Chip.portSt_setWait (w : StreamWait) (j : Nat) : (c.setWait w).portSt j = c.portSt j := rfl
@[simp] theorem Chip.portSt_report (p b : Nat) (f : Bool) (j : Nat) : (c.report p b f).portSt j = c.portSt j := by simp [Chip.portSt]
@[simp] theorem Chip.portSt_reportIf (x : Bool) (p b : Nat) (j : Nat) : (c.reportIf x p b).portSt j = c.portSt j := by simp [Chip.portSt]
@[simp] theorem Chip.portSt_setGrp (k : Nat) (x : GroupSt) (j : Nat) : (c.setGrp k x).portSt j = c.portSt j := rfl
@[simp] theorem Chip.portSt_setDom (k : Nat) (x : DomSt) (j : Nat) : (c.setDom k x).portSt j = c.portSt j := rfl
@[simp] theorem Chip.portSt_setGate (k : Nat) (x : GateSt) (j : Nat) : (c.setGate k x).portSt j = c.portSt j := rfl
@[simp] theorem Chip.portSt_setLane (k : Nat) (x : LaneSt) (j : Nat) : (c.setLane k x).portSt j = c.portSt j := rfl
@[simp] theorem Chip.portSt_setSeq (k : Nat) (x : SeqSt) (j : Nat) : (c.setSeq k x).portSt j = c.portSt j := rfl
@[simp] theorem Chip.portSt_setCrypto (k : Nat) (x : CryptoSt) (j : Nat) : (c.setCrypto k x).portSt j = c.portSt j := rfl

/-! `Chip.seqOf` -/
@[simp] theorem Chip.seqOf_setSeq_same (k : Nat) (x : SeqSt) : (c.setSeq k x).seqOf k = x := Store.get_put_same _ _ _ _
theorem Chip.seqOf_setSeq_other (k j : Nat) (x : SeqSt) (h : j ≠ k) : (c.setSeq k x).seqOf j = c.seqOf j := Store.get_put_other _ _ _ _ h
@[simp] theorem Chip.seqOf_set (F : Fld) (p v i : Nat) (j : Nat) : (c.set F p v i).seqOf j = c.seqOf j := rfl
@[simp] theorem Chip.seqOf_setB (F : Fld) (p i : Nat) (b : Bool) (j : Nat) : (c.setB F p b i).seqOf j = c.seqOf j := rfl
@[simp] theorem Chip.seqOf_count (F : Fld) (p i : Nat) (j : Nat) : (c.count F p i).seqOf j = c.seqOf j := rfl
@[simp] theorem Chip.seqOf_orBits (F : Fld) (p v i : Nat) (j : Nat) : (c.orBits F p v i).seqOf j = c.seqOf j := rfl
@[simp] theorem Chip.seqOf_wign (p : Nat) (j : Nat) : (c.wign p).seqOf j = c.seqOf j := rfl
@[simp] theorem Chip.seqOf_clearBlock (p : Nat) (j : Nat) : (c.clearBlock p).seqOf j = c.seqOf j := rfl
@[simp] theorem Chip.seqOf_ask (r : Req) (j : Nat) : (c.ask r).seqOf j = c.seqOf j := rfl
@[simp] theorem Chip.seqOf_setStopping (p : Nat) (b : Bool) (j : Nat) : (c.setStopping p b).seqOf j = c.seqOf j := rfl
@[simp] theorem Chip.seqOf_setWait (w : StreamWait) (j : Nat) : (c.setWait w).seqOf j = c.seqOf j := rfl
@[simp] theorem Chip.seqOf_report (p b : Nat) (f : Bool) (j : Nat) : (c.report p b f).seqOf j = c.seqOf j := by simp [Chip.seqOf]
@[simp] theorem Chip.seqOf_reportIf (x : Bool) (p b : Nat) (j : Nat) : (c.reportIf x p b).seqOf j = c.seqOf j := by simp [Chip.seqOf]
@[simp] theorem Chip.seqOf_setGrp (k : Nat) (x : GroupSt) (j : Nat) : (c.setGrp k x).seqOf j = c.seqOf j := rfl
@[simp] theorem Chip.seqOf_setDom (k : Nat) (x : DomSt) (j : Nat) : (c.setDom k x).seqOf j = c.seqOf j := rfl
@[simp] theorem Chip.seqOf_setGate (k : Nat) (x : GateSt) (j : Nat) : (c.setGate k x).seqOf j = c.seqOf j := rfl
@[simp] theorem Chip.seqOf_setLane (k : Nat) (x : LaneSt) (j : Nat) : (c.setLane k x).seqOf j = c.seqOf j := rfl
@[simp] theorem Chip.seqOf_setPort (k : Nat) (x : PortSt) (j : Nat) : (c.setPort k x).seqOf j = c.seqOf j := rfl
@[simp] theorem Chip.seqOf_setCrypto (k : Nat) (x : CryptoSt) (j : Nat) : (c.setCrypto k x).seqOf j = c.seqOf j := rfl

/-! `Chip.crypto` -/
@[simp] theorem Chip.crypto_setCrypto_same (k : Nat) (x : CryptoSt) : (c.setCrypto k x).crypto k = x := Store.get_put_same _ _ _ _
theorem Chip.crypto_setCrypto_other (k j : Nat) (x : CryptoSt) (h : j ≠ k) : (c.setCrypto k x).crypto j = c.crypto j := Store.get_put_other _ _ _ _ h
@[simp] theorem Chip.crypto_set (F : Fld) (p v i : Nat) (j : Nat) : (c.set F p v i).crypto j = c.crypto j := rfl
@[simp] theorem Chip.crypto_setB (F : Fld) (p i : Nat) (b : Bool) (j : Nat) : (c.setB F p b i).crypto j = c.crypto j := rfl
@[simp] theorem Chip.crypto_count (F : Fld) (p i : Nat) (j : Nat) : (c.count F p i).crypto j = c.crypto j := rfl
@[simp] theorem Chip.crypto_orBits (F : Fld) (p v i : Nat) (j : Nat) : (c.orBits F p v i).crypto j = c.crypto j := rfl
@[simp] theorem Chip.crypto_wign (p : Nat) (j : Nat) : (c.wign p).crypto j = c.crypto j := rfl
@[simp] theorem Chip.crypto_clearBlock (p : Nat) (j : Nat) : (c.clearBlock p).crypto j = c.crypto j := rfl
@[simp] theorem Chip.crypto_ask (r : Req) (j : Nat) : (c.ask r).crypto j = c.crypto j := rfl
@[simp] theorem Chip.crypto_setStopping (p : Nat) (b : Bool) (j : Nat) : (c.setStopping p b).crypto j = c.crypto j := rfl
@[simp] theorem Chip.crypto_setWait (w : StreamWait) (j : Nat) : (c.setWait w).crypto j = c.crypto j := rfl
@[simp] theorem Chip.crypto_report (p b : Nat) (f : Bool) (j : Nat) : (c.report p b f).crypto j = c.crypto j := by simp [Chip.crypto]
@[simp] theorem Chip.crypto_reportIf (x : Bool) (p b : Nat) (j : Nat) : (c.reportIf x p b).crypto j = c.crypto j := by simp [Chip.crypto]
@[simp] theorem Chip.crypto_setGrp (k : Nat) (x : GroupSt) (j : Nat) : (c.setGrp k x).crypto j = c.crypto j := rfl
@[simp] theorem Chip.crypto_setDom (k : Nat) (x : DomSt) (j : Nat) : (c.setDom k x).crypto j = c.crypto j := rfl
@[simp] theorem Chip.crypto_setGate (k : Nat) (x : GateSt) (j : Nat) : (c.setGate k x).crypto j = c.crypto j := rfl
@[simp] theorem Chip.crypto_setLane (k : Nat) (x : LaneSt) (j : Nat) : (c.setLane k x).crypto j = c.crypto j := rfl
@[simp] theorem Chip.crypto_setPort (k : Nat) (x : PortSt) (j : Nat) : (c.setPort k x).crypto j = c.crypto j := rfl
@[simp] theorem Chip.crypto_setSeq (k : Nat) (x : SeqSt) (j : Nat) : (c.setSeq k x).crypto j = c.crypto j := rfl

end Sys2Proof.Machine
end

