-- ==== Sys2Proof/Machine/Flags.lean ====
section
/-! DEFINITION. The status and interrupt flags that the device shows on its pins (10, 16, 17, 19; 22, Table 22-4). -/
namespace Sys2Proof.Machine

/-- FLTP_N is low: a fault pulse or level is signalled (19, R513). -/
def State.fltpLow (s : State) : Bool := s.chip.flt.fltp

/-- FLTS_N is low: the device is not up, or a critical fault stands (19, R514, R515). -/
def State.fltsLow (s : State) : Bool := s.chip.flts

/-- THERM_N is low (17, R485). -/
def State.thermLow (s : State) : Bool := s.chip.pow.therm

/-- The device releases CFG_DONE (10, R298). -/
def State.doneReleased (s : State) : Bool := s.chip.bit CF_STS_DONEREL pgCF

/-- The device drives CFG_ERR_N low (10, R295). -/
def State.errLow (s : State) : Bool := s.chip.stream.errDrive

/-- CFG_WAIT_N is driven low (10, R293; 20, R546). -/
def State.waitLow (s : State) : Bool := s.chip.cfgWait

/-- REF_EN is high (16, R450). -/
def State.refEnHigh (s : State) : Bool := s.chip.clk.refEn

/-- The sticky bits of the fault sources of a page (01, PG_FSTK). -/
def State.sticky (s : State) (pg : Nat) : Nat := s.chip.get PG_FSTK_FSTK pg

/-- A report of a fault source waits for the collector (19, R508). -/
def State.reported (s : State) (pg b : Nat) : Bool := s.chip.flt.waiting.any fun r => r.page == pg && r.bit == b

/-- The MSI-X messages that have been sent, newest first: vector, address, data (15, R441). -/
def State.messages (s : State) : List (Nat × BitVec 64 × BitVec 32) := s.chip.link.host.msgs

end Sys2Proof.Machine
end

