-- ==== Sys2Proof/WellFormed.lean ====
section
/-! DEFINITION. The operands that a command can have: what their types leave open and the spec bounds. -/
namespace Sys2Proof
open Sys2Proof.Machine

/-- A page of register space, which has 128 MiB (01, Table 1-6; 15, Table 15-10). -/
def pageOk (pg : Nat) : Bool := decide (pg < 0x8000)

/-- Levels are given for user I/O pins, of which there are 480 (22). -/
def pinsOk (pins : List (Nat × Bool)) : Bool := pins.all fun p => decide (p.1 < 480)

/-- A clock source of the fabric: a global clock, a tree of a sector, a term of a tile (08, R222, R223). -/
def Machine.ClkSrc.wf : ClkSrc → Bool
  | .gclk n => decide (n < 8)
  | .tree s n => decide (s < 8 ∧ n < 16)
  | .term t m => decide (t < 16384 ∧ m < 16)

/-- What groups that recognise one pace event have in common: a pace input, an edge and a step clock (04, EG_PACE,
EG_STEPCLK). -/
def Machine.PaceKey.wf (k : PaceKey) : Bool := decide (k.pin < 16 ∧ k.edge ≤ 2 ∧ k.div ≤ 8)

/-- The operands of a command lie in the ranges of the spec. -/
def Instr.wf : Instr → Bool
  | .registerWrite _ pg off _ => pageOk pg && decide (off < 0x1000)
  | .rcRead _ pg off _ => pageOk pg && decide (off < 0x1000)
  | .splitCounterRead _ pg off _ => pageOk pg && decide (off < 0x1000)
  | .runSet _ pg => pageOk pg
  | .runClear _ pg => pageOk pg
  | .stopReq _ pg => pageOk pg
  | .srst _ pg => pageOk pg
  | .clkenClear _ pg => pageOk pg
  | .clkenSet _ pg => pageOk pg
  | .orderlyStopComplete pg => (pageKind pg).isSome
  | .functionStart pg => (pageKind pg).isSome
  | .faultForce _ pg _ => pageOk pg
  | .faultStickyClear _ pg _ => pageOk pg
  | .powerOnRequest _ pg => pageOk pg
  | .powerOffRequest _ pg => pageOk pg
  | .paceEdge _ _ _ pins => pinsOk pins
  | .paceEvent ks => ks.all Machine.PaceKey.wf
  | .macrocellClock k _ _ pins => k.wf && pinsOk pins
  | .auth gmask => decide (gmask < 2 ^ 64)
  | .cmdLoadjli gmask => decide (gmask < 2 ^ 64)
  | .routerHeadFlit _ _ bad _ => bad.all fun l => decide (l < 64)
  | .bar0Request _ _ _ dw _ _ => decide (1 ≤ dw ∧ dw ≤ 1024)
  | .bar2Request _ _ off len bytes => decide (off < 2 ^ 36 ∧ len ≤ 4096 ∧ bytes.length ≤ 512)
  | .gateHandshake pg => (pageKind pg).isSome
  | .gateHandshakeTimeout pg => (pageKind pg).isSome
  | .epoch energy loose => energy.length == 82 && loose.length == 64
  | .brokenPair pg _ => (pageKind pg).isSome
  | .pairRailsValid pg _ => (pageKind pg).isSome
  | .retentionRequest .. | .powerOnSlotTaken .. | .powerOnComplete .. | .powerOffComplete .. | .fenceTimeout ..
  | .railGood .. | .railBad .. | .vccoLoss .. | .emulationEnd .. | .groupStart .. | .resyncCapture ..
  | .paceLate .. | .lapInputPhase .. | .computeStep .. | .lapCommit .. | .replayDecision .. | .lapOutputPhase ..
  | .lapComplete .. | .loaderGo .. | .loaderAbort .. | .loaderCheckPassDone .. | .loaderWritePassDone ..
  | .lockstepArm .. | .lockstepSync .. | .lockstepStop .. | .lockstepDisarm .. | .lssync .. | .lsdata ..
  | .lsstop .. | .pairDetach .. | .pairRejoin .. | .batchEnable .. | .batchDisable .. | .looseLapAdmit ..
  | .budgetWord .. | .traceEnable .. | .traceDisable .. | .traceFlush .. | .traceFlitTimeout .. | .fmpRequest ..
  | .fmpWriteBeat .. | .fmpResponseBeat .. | .fmpLateBeat .. | .bramPortAccess .. | .bramWindowAccess ..
  | .bramWindowTimeout .. | .sliceHold .. | .sliceLoad .. | .sliceAccum .. | .sliceCasc .. | .sliceClear ..
  | .sliceLoady .. | .sliceAddy .. | .seqEnable .. | .seqNop .. | .seqSlice .. | .seqLoop .. | .seqJump ..
  | .seqSetar .. | .seqWait .. | .seqBscale .. | .seqHalt .. | .seqSetk .. | .seqIllegal .. | .cfgPortWord ..
  | .startSector .. | .streamSourceGo .. | .streamAbort .. | .unitRequestIssue .. | .requestInject .. | .read ..
  | .write .. | .regrd .. | .regwr .. | .rsp .. | .late .. | .rsvreq .. | .rsvgnt .. | .routeWrite ..
  | .routeRead .. | .freelost .. | .niTimeout .. | .bankHandover .. | .bankClearDone .. | .bankRetention ..
  | .bankWake .. | .spCeWriteback .. | .dmaGo .. | .keyLoad .. | .keyNewkey .. | .keyClear .. | .keyTreekey ..
  | .keyGrpfree .. | .keyGrpinit .. | .keyRightsWrite .. | .stateSave .. | .treeInit .. | .rekeyGo ..
  | .rekeyLine .. | .bgReencryptLine .. | .poisonClear .. | .rdata .. | .wack .. | .info .. | .pmpTimeout ..
  | .quadLoopLock .. | .laneLock .. | .laneLockLoss .. | .lanePowerRequest .. | .lanePowerDone .. | .ringEnable ..
  | .rxLine .. | .portEnable .. | .linkFlit .. | .ack .. | .nak .. | .announce .. | .glide .. | .shed ..
  | .shedack .. | .linkReplayTimeout .. | .glideIdleTimeout .. | .rewiden .. | .msixForce ..
  | .refclkQualifyCount .. | .refclkWindow .. | .loopLock .. | .fpllEnable .. | .fpllLockLoss .. | .fclkSwitch ..
  | .clockSwitchTimeout .. | .sensorReading .. | .sensorCalibration .. | .ageingReading .. | .biasApply ..
  | .coldStart .. | .resetN .. | .warmResetRequest .. | .warmResetRelease .. | .watchdogControl ..
  | .watchdogKick .. | .faultAck .. | .extest .. | .samplePreload .. | .dbaccUpdate .. | .challenge .. | .verify ..
  | .drop .. | .debugRequest .. | .halt .. | .haltEffect .. | .release .. | .step .. | .seqDebugHalt ..
  | .seqDebugStep .. | .seqDebugRelease .. | .ffReadback .. | .freezePin .. | .freezeRequest .. | .flashRead ..
  | .flashProgram .. | .flashErase .. | .flashRefresh .. | .softwareRecord .. | .clearChallenge ..
  | .clearVerify .. | .recorderClear .. | .uartRecord .. | .uartEnable .. | .i2cSetPointer ..
  | .i2cRegisterWrite .. | .i2cRegisterRead .. | .spiWrite .. | .spiRead .. | .hostLinkUp ..
  | .hostConfigRequest .. | .vccoReturn .. | .clockSwitchDone .. | .rootCopyVote .. | .syncMarker .. | .tile ..
  | .site .. | .brdata .. | .iobank .. | .data .. | .regw .. | .nop .. | .cmdEnd .. | .cmdPartial .. | .cmdClear ..
  | .cmdWaiton .. | .cmdDelay .. | .delayExpire .. | .waitonTimeout .. | .partialTimeout .. | .remoteError ..
  | .scrubFrame .. | .engineScanStart .. | .engineScanComplete .. | .priorityScanStart .. | .reloadComplete ..
  | .heartbeatMiss .. | .tmrCorrection .. | .perst .. | .hotReset .. | .functionLevelReset .. | .hostLinkDown ..
  | .refclkWaitTimeout .. | .refclkLoss .. | .routeRecordLoad .. | .deviceReady .. | .watchdogWarn ..
  | .watchdogExpire .. | .faultReport .. | .fltpWidthExpire .. | .tapReset .. | .idcode .. | .clamp .. | .highz ..
  | .dbacc .. | .bypass .. | .freezeBegin .. | .freezeComplete .. | .thaw .. | .flashCommandDone ..
  | .recordProgram .. | .rateWindowEnd .. | .recordSearchDone .. | .timewrap .. | .clearEraseDone ..
  | .clearAuthLapse .. | .i2cStretchTimeout .. | .i2cBusTimeout .. | .spiTimeout .. | .perstNRelease ..
  | .fltpHoldoffExpire .. => true

end Sys2Proof
end

