-- ==== Sys2Proof/Tests/Slice0.lean ====
section
/-! SUPPORT. The model's own tests: ill-formed commands are refused by WellFormed, single commands do what the spec says,
and every statement with hypotheses has a state and operands that meet them. -/
namespace Sys2Proof.Tests

-- One theorem after another: the evaluations are long, and threads for all of them at once would not fit in memory.
set_option Elab.async false
open Sys2Proof.Machine

/-! ## States -/

/-- A state with another device. -/
def upd (s : State) (f : Chip → Chip) : State := { s with chip := f s.chip }

/-- The device with MAIN up, every switched domain on, and every clock open. -/
def up : State := upd State.reset fun c =>
  { c with
    rst := { c.rst with mainRel := true }
    pow := { c.pow with dom := (List.range 80).map fun d => (d, { phase := .on }) } }

/-- A state with register fields set. -/
def put (s : State) (xs : List (Fld × Nat × Nat × Nat)) : State :=
  upd s fun c => xs.foldl (fun c x => c.set x.1 x.2.1 x.2.2.2 x.2.2.1) c

/-- A state with one domain in a phase. -/
def phased (s : State) (d : Nat) (p : DomPhase) : State := upd s fun c => c.setDom d { c.dom d with phase := p }

/-- RUN of a page is 1. -/
def runs (s : State) (pg : Nat) : State := put s [(PG_CTL_RUN, pg, 0, 1)]

/-- RUN and RUNNING of a page are 1. -/
def works (s : State) (pg : Nat) : State := put s [(PG_CTL_RUN, pg, 0, 1), (PG_STS_RUNNING, pg, 0, 1)]

/-- RUNNING of a page is 1. -/
def ends (s : State) (pg : Nat) : State := put s [(PG_STS_RUNNING, pg, 0, 1)]

/-- The scrubber scans an engine. -/
def busy (s : State) : State := put s [(SC_POS_EVALID, pgSC, 0, 1)]

/-- Of group 0 a bound lap is in progress. -/
def lapping (s : State) : State := upd s fun c => c.setGrp 0 { c.grp 0 with bound := { on := true } }

/-- Reports that wait for the collector. -/
def waits (s : State) (rs : List Report) : State := upd s fun c => { c with flt := { c.flt with waiting := rs } }

/-- Every monitor reads good. -/
def railed (s : State) : State := put s [(PW_RAILSTS_GOOD, pgPW, 0, 0xFFFFFF)]

/-- Another state of clock generation, of the power controller, of the reset unit. -/
def clocked (s : State) (f : ClockSt → ClockSt) : State := upd s fun c => { c with clk := f c.clk }
def powered (s : State) (f : PowerSt → PowerSt) : State := upd s fun c => { c with pow := f c.pow }
def timed (s : State) (f : ResetSt → ResetSt) : State := upd s fun c => { c with rst := f c.rst }

/-- A domain that waits for its slot, in the queue. -/
def queued (s : State) (d : Nat) : State := powered (phased s d .waiting) fun p => { p with queue := [d] }

/-- A domain whose transition is held by a freeze. -/
def frozen (s : State) : State := put s [(GL_FRZSTS_STATE, pgGL, 0, 2)]

/-- MAIN is up, and every switched domain is off. -/
def dark : State := timed State.reset fun r => { r with phase := .ready, mainRel := true }

/-- The CF function runs in the device that is ready, and the stream stands in a state. -/
def streaming (s : State) (v : Nat) (f : StreamSt → StreamSt) : State :=
  upd (timed (put s [(PG_CTL_RUN, pgCF, 0, 1), (PG_STS_RUNNING, pgCF, 0, 1), (CF_STS_STATE, pgCF, 0, v)]) fun r => { r with phase := .ready })
    fun c => { c with stream := f c.stream }

/-! ## Ill-formed commands -/

theorem test_wf_page : Instr.wf (.runSet .host 0x8000) = false := by decide
theorem test_wf_page_of_a_write : Instr.wf (.registerWrite .host 0x8000 0x40 0) = false := by decide
theorem test_wf_offset : Instr.wf (.registerWrite .host 0 0x1000 0) = false := by decide
theorem test_wf_offset_of_a_read : Instr.wf (.rcRead .host 0 0x1000 false) = false := by decide
theorem test_wf_mapped_page : Instr.wf (.orderlyStopComplete 0x7FFF) = false := by decide +kernel
theorem test_wf_function_start : Instr.wf (.functionStart 0x7FFF) = false := by decide +kernel
theorem test_wf_pin : Instr.wf (.paceEdge 0 true false [(480, true)]) = false := by decide
theorem test_wf_pace_edge_code : Instr.wf (.paceEvent [{ pin := 0, edge := 3, div := 0, steps := 1 }]) = false := by decide
theorem test_wf_pace_input : Instr.wf (.paceEvent [{ pin := 16, edge := 0, div := 0, steps := 1 }]) = false := by decide
theorem test_wf_pace_divisor : Instr.wf (.paceEvent [{ pin := 0, edge := 0, div := 9, steps := 1 }]) = false := by decide
theorem test_wf_global_clock : Instr.wf (.macrocellClock (.gclk 8) true false []) = false := by decide
theorem test_wf_tree : Instr.wf (.macrocellClock (.tree 8 0) true false []) = false := by decide
theorem test_wf_clock_term : Instr.wf (.macrocellClock (.term 16384 0) true false []) = false := by decide
theorem test_wf_group_mask : Instr.wf (.auth (2 ^ 64)) = false := by decide
theorem test_wf_loader_mask : Instr.wf (.cmdLoadjli (2 ^ 64)) = false := by decide
theorem test_wf_bad_line : Instr.wf (.routerHeadFlit 0 0 [64] false) = false := by decide
theorem test_wf_double_words : Instr.wf (.bar0Request .memory false 0 0 0 0) = false := by decide
theorem test_wf_bar2_offset : Instr.wf (.bar2Request .memory false (2 ^ 36) 4 []) = false := by decide
theorem test_wf_bar2_length : Instr.wf (.bar2Request .memory false 0 4097 []) = false := by decide
theorem test_wf_bar2_bytes : Instr.wf (.bar2Request .memory true 0 4 (List.replicate 513 (0, true))) = false := by decide +kernel
theorem test_wf_energies : Instr.wf (.epoch [] (List.replicate 64 0)) = false := by decide
theorem test_wf_loose_energies : Instr.wf (.epoch (List.replicate 82 0) []) = false := by decide
theorem test_wf_gate : Instr.wf (.gateHandshake 0x7FFF) = false := by decide +kernel
theorem test_wf_gate_timeout : Instr.wf (.gateHandshakeTimeout 0x7FFF) = false := by decide +kernel
theorem test_wf_broken_pair : Instr.wf (.brokenPair 0x7FFF 0) = false := by decide +kernel
theorem test_wf_pair_rails : Instr.wf (.pairRailsValid 0x7FFF 0) = false := by decide +kernel
theorem test_wf_accepts : Instr.wf (.registerWrite .host 0x7FFF 0xFFC 0xFFFFFFFF) = true := by decide

/-! ## Witnesses: run control, register accesses, faults -/

theorem witness_OnlyTapCommandsMoveTheTap : movesTap (.runSet .host 0) = false ∧ (1 : Fin 24) ≠ 0 ∧ (1 : Fin 24) ≠ 23 := by decide

theorem witness_EmptyQueueIsAMicrosecond : State.reset.pending = [] ∧ State.reset.chip.wdCounts = false := by decide +kernel

theorem witness_OnlyReadsChangeTheReadData : readTarget (.runSet .host 0) = none ∧
    readTarget .deviceReady = none ∧ writeTarget .deviceReady = none := by decide

/-- While MAIN is held a write and a read are refused. -/
theorem witness_RefusedAccessChangesNothing :
    writeTarget (.runSet .host (pgFB 0)) = some (.host, pgFB 0, PG_CTL_RUN.off) ∧
    State.reset.chip.regReach .host (pgFB 0) PG_CTL_RUN.off true ≠ 0 ∧
    readTarget (.rcRead .host (pgFB 0) 0x40 false) = some (.host, pgFB 0, 0x40) ∧
    State.reset.chip.regReach .host (pgFB 0) 0x40 false ≠ 0 := by decide +kernel

theorem witness_RegisterSpaceMasters :
    up.chip.rst.mainRel = true ∧ (pageKind (pgFB 0)).isSome = true ∧ up.chip.get GL_REGACC_FAB pgGL ≠ 1 ∧
    (put up [(GL_REGACC_FAB, pgGL, 0, 1)]).chip.get GL_REGACC_FAB pgGL = 1 ∧
    writeTarget (.runSet .fabric (pgFB 0)) = some (.fabric, pgFB 0, PG_CTL_RUN.off) ∧
    readTarget (.rcRead .other (pgFB 0) 0x40 false) = some (.other, pgFB 0, 0x40) := by decide +kernel

theorem witness_AccessChecksInOrder : up.chip.get GL_FRZSTS_STATE pgGL = 0 ∧ up.chip.emulated (domOf (pgFB 0)) = false := by
  decide +kernel

/-- A write that reaches a page of which the function is idle: a sector page, a group page, an engine page; one that is
barred, and one of a function that runs. -/
theorem witness_RunSetSetsRun :
    (up.reaches .debug (pgFB 7) PG_CTL_RUN.off ∧ (pageKind (pgFB 7)).isSome = true ∧ up.chip.runBarred (pgFB 7) = false ∧
      up.chip.run (pgFB 7) = false ∧ startRefuses (pgFB 7) = false ∧ startsAlone (pgFB 7) = true ∧ up.chip.startable (pgFB 7) = true) ∧
    (up.reaches .host (pgEG 63) PG_CTL_RUN.off ∧ pageKind (pgEG 63) = some (.eg, 63) ∧ up.chip.runBarred (pgEG 63) = false ∧
      up.chip.run (pgEG 63) = false ∧ startRefuses (pgEG 63) = false ∧ up.chip.startable (pgEG 63) = true) ∧
    (up.reaches .host (pgEE 511) PG_CTL_RUN.off ∧ pageKind (pgEE 511) = some (.ee, 511) ∧ up.chip.runBarred (pgEE 511) = false ∧
      up.chip.run (pgEE 511) = false ∧ startRefuses (pgEE 511) = false ∧ up.chip.startable (pgEE 511) = true) ∧
    (phased up 71 .off).reaches .host (pgFB 7) PG_CTL_RUN.off ∧ (phased up 71 .off).chip.runBarred (pgFB 7) = true ∧
    (runs up (pgFB 0)).reaches .host (pgFB 0) PG_CTL_RUN.off ∧ (runs up (pgFB 0)).chip.runBarred (pgFB 0) = false ∧
    (runs up (pgFB 0)).chip.run (pgFB 0) = true := by unfold State.reaches; decide +kernel

/-- An idle function, a function with a unit of work in progress, a group in a lap. -/
theorem witness_RunClearStopsTheFunction :
    (up.reaches .host (pgFB 0) PG_CTL_RUN.off ∧ (pageKind (pgFB 0)).isSome = true ∧ up.chip.run (pgFB 0) = false) ∧
    ((works up (pgFB 0)).reaches .host (pgFB 0) PG_CTL_RUN.off ∧ (works up (pgFB 0)).chip.run (pgFB 0) = true ∧
      stopsAlone (pgFB 0) = true ∧ (works up (pgFB 0)).chip.running (pgFB 0) = true ∧ (works up (pgFB 0)).chip.pageQuiet (pgFB 0) = true ∧
      (works up (pgFB 0)).chip.pageMoves (pgFB 0) = true ∧ (works up (pgFB 0)).chip.gated (pgFB 0) = false) ∧
    ((busy (works up pgSC)).reaches .host pgSC PG_CTL_RUN.off ∧ (busy (works up pgSC)).chip.run pgSC = true ∧
      stopsAlone pgSC = true ∧ (busy (works up pgSC)).chip.running pgSC = true ∧ (busy (works up pgSC)).chip.pageQuiet pgSC = false) ∧
    ((lapping (works up (pgEG 0))).reaches .host (pgEG 0) PG_CTL_RUN.off ∧ (lapping (works up (pgEG 0))).chip.run (pgEG 0) = true ∧
      pageKind (pgEG 0) = some (.eg, 0) ∧ ((lapping (works up (pgEG 0))).chip.grp 0).bound.on = true) := by
  unfold State.reaches; decide +kernel

theorem witness_StopReqEndsTheFunction :
    (up.reaches .host (pgFB 0) PG_CTL_RUN.off ∧ (pageKind (pgFB 0)).isSome = true ∧ up.chip.stoppedIdle (pgFB 0) = true ∧
      up.chip.running (pgFB 0) = false) ∧
    ((works up (pgFB 0)).reaches .host (pgFB 0) PG_CTL_RUN.off ∧ (works up (pgFB 0)).chip.stoppedIdle (pgFB 0) = false ∧
      pageKind (pgFB 0) = some (.fb, 0)) ∧
    (works up (pgEE 511)).reaches .host (pgEE 511) PG_CTL_RUN.off ∧ (works up (pgEE 511)).chip.stoppedIdle (pgEE 511) = false ∧
    (works up (pgRouter 0)).reaches .host (pgRouter 0) PG_CTL_RUN.off ∧ (works up (pgRouter 0)).chip.stoppedIdle (pgRouter 0) = false := by
  unfold State.reaches; decide +kernel

theorem witness_SoftResetReturnsTheBlock :
    ((works up (pgFB 0)).reaches .host (pgFB 0) PG_CTL_RUN.off ∧ (pageKind (pgFB 0)).isSome = true ∧
      (works up (pgFB 0)).chip.stoppedIdle (pgFB 0) = false) ∧
    (up.reaches .host (pgAS 7) PG_CTL_RUN.off ∧ (pageKind (pgAS 7)).isSome = true ∧ up.chip.stoppedIdle (pgAS 7) = true ∧
      clearsAlone (pgAS 7) = true) ∧
    (0x40 ≤ FB_GCLKEN_EN.off ∧ FB_GCLKEN_EN.off < 0x1000 ∧ FB_GCLKEN_EN.lo < 32) ∧
    (keyPage (FB_GCLKEN_EN.key (pgFB 0) 0) ≠ pgAS 7 ∧ keyOff (PG_CTL_RUN.key (pgAS 7) 0) < 0x40) := by
  unfold State.reaches; decide +kernel

/-- An open gate, one forced closed, one closed in a group page. -/
theorem witness_ClkenMovesTheGate :
    (up.reaches .host (pgFB 0) PG_CTL_RUN.off ∧ (pageKind (pgFB 0)).isSome = true ∧ up.chip.gate (pgFB 0) = .opened ∧
      up.chip.domOn (domOf (pgFB 0)) = true) ∧
    (upd up fun c => c.setGate (pgFB 0) .forced).reaches .host (pgFB 0) PG_CTL_RUN.off ∧
    (upd up fun c => c.setGate (pgFB 0) .forced).chip.gate (pgFB 0) = .forced := by unfold State.reaches; decide +kernel

theorem witness_OrderlyStopAndStartComplete :
    ((pageKind (pgFB 0)).isSome = true ∧ (ends up (pgFB 0)).chip.running (pgFB 0) = true ∧ (ends up (pgFB 0)).chip.run (pgFB 0) = false ∧
      (ends up (pgFB 0)).chip.gated (pgFB 0) = false ∧ (ends up (pgFB 0)).chip.pageMoves (pgFB 0) = true ∧
      (ends up (pgFB 0)).chip.pageQuiet (pgFB 0) = true ∧ stopsPlain (pgFB 0) = true) ∧
    (works up (pgFB 0)).chip.run (pgFB 0) = true ∧ (busy (ends up pgSC)).chip.pageQuiet pgSC = false ∧
    ((runs up (pgFB 0)).chip.run (pgFB 0) = true ∧ (runs up (pgFB 0)).chip.startable (pgFB 0) = true ∧ startsAlone (pgFB 0) = true) ∧
    up.chip.run (pgFB 0) = false := by decide +kernel

/-- A register with a read-write field at the first offset of the blocks; a register with a locked field, while RUN is 1. -/
theorem witness_RegisterWriteByAccess :
    (up.reaches .host pgPW PW_TTRIP_TRIP.off ∧ 0x40 ≤ PW_TTRIP_TRIP.off ∧ plainPage pgPW = true ∧
      (PW_TTRIP_TRIP, 0) ∈ fieldsAt pgPW PW_TTRIP_TRIP.off ∧ ∀ Fi ∈ fieldsAt pgPW PW_TTRIP_TRIP.off, Fi.1.acc ≠ .rwl) ∧
    ((runs up pgSC).reaches .host pgSC 0x40 ∧ plainPage pgSC = true ∧ (runs up pgSC).chip.run pgSC = true) ∧
    ((runs up (pgML 0)).reaches .host (pgML 0) ML_CTL_LPORT.off ∧ plainPage (pgML 0) = true ∧
      (∃ Fi ∈ fieldsAt (pgML 0) ML_CTL_LPORT.off, Fi.1.acc = .rwl) ∧ (runs up (pgML 0)).chip.run (pgML 0) = true) := by
  unfold State.reaches; decide +kernel

/-- A register with a read-to-clear field. -/
theorem witness_ReadClears :
    up.chip.regReach .host (pgLN 0) 0x40 false = 0 ∧
    (up.chip.regReach .host pgSC 0x40 false = 0 ∧ ¬ (pgSC = pgEV ∧ 0x800 ≤ 0x40) ∧ up.chip.peeks_ pgSC false = false ∧
      pageKind pgSC = some (.sc, 0) ∧ up.chip.splitHigh pgSC 0x40 = [] ∧ up.chip.peekOf pgSC 0x40 = none) := by
  decide +kernel

theorem witness_SplitCounterReads :
    (up.chip.regReach .host (pgEG 63) EG_LAPCNTL_COUNT.off false = 0 ∧ up.chip.peeks_ (pgEG 63) false = false) ∧
    up.chip.regReach .host (pgEG 63) EG_OBSVALL_VAL.off false = 0 ∧
    (up.chip.regReach .host (pgEE 511) EE_SIGL_SIG.off false = 0 ∧ up.chip.peeks_ (pgEE 511) false = false) ∧
    (up.chip.regReach .host pgPW (PW_ENGL_COUNT.off + 8 * 81) false = 0 ∧ up.chip.peeks_ pgPW false = false) ∧
    (EG_LAPCNTH_COUNT, 0, 0) ∈ up.chip.splitHigh (pgEG 63) EG_LAPCNTL_COUNT.off := by decide +kernel

/-- Sources of class C1, C2, C3 and a reserved bit; a debug master with and without level FULL. -/
theorem witness_ForcedAndStickyFaults :
    (up.reaches .host pgPW PG_FFRC_FFRC.off ∧ up.reaches .host pgPW PG_FSTK_FSTK.off) ∧
    ((0x8#32).toNat = 2 ^ 3 ∧ faultClass pgPW 3 = some 1 ∧ up.chip.mayReport pgPW 3) ∧
    ((0x2#32).toNat = 2 ^ 1 ∧ faultClass pgPW 1 = some 2 ∧ up.chip.domOn (domOf pgPW) = true) ∧
    ((0x80#32).toNat = 2 ^ 7 ∧ faultClass pgPW 7 = some 3 ∧ ¬ (Who.host = .debug ∧ up.chip.fullDebug = true)) ∧
    ((put up [(DB_AUTHSTS_LEVEL, pgDB, 0, 2)]).chip.fullDebug = true ∧ (put up [(DB_AUTHSTS_LEVEL, pgDB, 0, 2)]).chip.mayReport pgPW 7) ∧
    ((0x80000000#32).toNat = 2 ^ 31 ∧ faultClass pgPW 31 = none) := by
  unfold State.reaches Chip.mayReport; decide +kernel

/-- A report of a source that is not enabled; one of class C0 and one of class C1 that are, in and outside the
deasserted time. -/
theorem witness_FaultReportIsCounted :
    (up.chip.rst.mainRel = true ∧ up.chip.flt.waiting = []) ∧
    ((waits up [{ page := pgPW, bit := 0 }]).chip.rst.mainRel = true ∧
      nextReport (waits up [{ page := pgPW, bit := 0 }]).chip.flt.waiting = some { page := pgPW, bit := 0 } ∧
      faultClass pgPW 0 = some 0 ∧
      ((put (waits up [{ page := pgPW, bit := 0 }]) [(PG_FEN_FEN, pgPW, 0, 0)]).chip.get PG_FEN_FEN pgPW).testBit 0 = false) ∧
    (((put (waits up [{ page := pgPW, bit := 0 }]) [(PG_FEN_FEN, pgPW, 0, 1)]).chip.get PG_FEN_FEN pgPW).testBit 0 = true ∧
      (put up [(PG_CTL_RUN, pgFC, 0, 0)]).chip.run pgFC = false) ∧
    (nextReport (waits up [{ page := pgPW, bit := 3 }]).chip.flt.waiting = some { page := pgPW, bit := 3 } ∧
      faultClass pgPW 3 = some 1 ∧
      ((put (waits up [{ page := pgPW, bit := 3 }]) [(PG_FEN_FEN, pgPW, 0, 8)]).chip.get PG_FEN_FEN pgPW).testBit 3 = true ∧
      up.chip.flt.holdoff = false ∧ (upd up fun c => { c with flt := { c.flt with holdoff := true } }).chip.flt.holdoff = true) := by
  decide +kernel

theorem witness_FaultPinAndBrokenPairs :
    up.reaches .host pgFC FC_ACK_ACK.off ∧
    ((faultClass pgPW (9 : Fin 32).val).isSome = true ∧ up.chip.domOn (domOf pgPW) = true ∧
      (pgPW, (9 : Fin 32).val) ∉ up.chip.flt.brokenPairs ∧ up.chip.rst.mainRel = true ∧ up.chip.mayReport pgFC 0) ∧
    State.reset.chip.rst.mainRel = false ∧
    (pgPW, 9) ∈ (upd up fun c => { c with flt := { c.flt with brokenPairs := [(pgPW, 9)] } }).chip.flt.brokenPairs := by
  unfold State.reaches Chip.mayReport; decide +kernel

theorem witness_TestAccessPortStaysLegal : TapSt.Legal State.reset.tap ∧
    (match step { State.reset with pending := [.bypass] } with | .next _ => true | _ => false) = true := by
  unfold TapSt.Legal; decide +kernel
/-! ## Witnesses: power, clocks, start-up, reset, the watchdog -/

theorem witness_PowerRequests :
    (up.reaches .host (pgEG 63) PG_PWR_REQ.off ∧ (pageKind (pgEG 63)).isSome = true ∧ domOf (pgEG 63) = 63) ∧
    ((powered up fun p => { p with tripped := true }).reaches .host (pgFB 7) PG_PWR_REQ.off ∧
      (powered up fun p => { p with tripped := true }).chip.reqBarred 71 1 = true) ∧
    ((frozen up).reaches .debug pgPW PG_PWR_REQ.off ∧ (frozen up).chip.stepsRun = false ∧ (frozen up).chip.reqBarred 79 1 = false) ∧
    ((phased up 63 .off).reaches .host (pgEG 63) PG_PWR_REQ.off ∧ ((phased up 63 .off).chip.dom 63).phase = .off ∧
      (phased up 63 .off).chip.reqBarred 63 1 = false ∧ (phased up 63 .off).chip.stepsRun = true ∧
      (phased up 63 .off).chip.railsGood 63 = false ∧ (phased up 63 .off).chip.mayReport pgPW 0 ∧
      (railed (phased up 63 .off)).chip.railsGood 63 = true) ∧
    ((up.chip.dom 63).phase = .on ∧ up.chip.reqBarred 63 1 = false ∧ up.chip.reqBarred 63 0 = false ∧ up.chip.stepsRun = true) ∧
    (put up [(PG_CTL_RUN, pgEG 63, 0, 1), (PG_CTL_RUN, pgEE 504, 0, 1)]).chip.reqBarred 63 0 = true ∧
    (((queued up 63).chip.dom 63).phase = .waiting ∧ ((queued up 63).chip.dom 63).fromRet = false ∧ (queued up 63).chip.reqBarred 63 0 = false) ∧
    (up.reaches .host (pgSP 3) PG_PWR_REQ.off ∧ domOf (pgSP 3) = 78 ∧ up.chip.reqBarred 78 2 = false ∧ (up.chip.dom 78).phase = .on) := by
  unfold State.reaches Chip.mayReport; decide +kernel

/-- A domain of a sector and one of a group that wait, a domain that rises, and one that falls. -/
theorem witness_PowerTransitionsComplete :
    (((railed (queued up 71)).chip.dom 71).phase = .waiting ∧ (railed (queued up 71)).chip.stepsRun = true ∧
      (railed (queued up 71)).chip.railsGood 71 = true ∧ (railed (queued up 71)).chip.slotsUsed < 4 ∧
      (railed (queued up 71)).chip.firstInQueue 71 = true) ∧
    (((put (railed (queued up 63)) [(CK_LOOPSTS_ENG, pgCK, 0, 1)]).chip.dom 63).phase = .waiting ∧
      (put (railed (queued up 63)) [(CK_LOOPSTS_ENG, pgCK, 0, 1)]).chip.railsGood 63 = true ∧
      (put (railed (queued up 63)) [(CK_LOOPSTS_ENG, pgCK, 0, 1)]).chip.firstInQueue 63 = true ∧
      (put (railed (queued up 63)) [(CK_LOOPSTS_ENG, pgCK, 0, 1)]).chip.engineLoop = true ∧ 0 ∉ up.chip.clk.parked) ∧
    (up.chip.dom 63).phase ≠ .waiting ∧
    (((upd up fun c => c.setDom 79 { phase := .rising, req := 1 }).chip.dom 79).phase = .rising ∧
      ((upd up fun c => c.setDom 79 { phase := .rising, req := 1 }).chip.dom 79).req = 1) ∧
    (((phased up 64 .falling).chip.dom 64).phase = .falling ∧ (phased up 64 .falling).chip.stepsRun = true ∧
      (phased up 64 .falling).chip.fenceDone 64 = true ∧ ((phased up 64 .falling).chip.dom 64).toRet = false ∧
      ((phased up 64 .falling).chip.dom 64).req = 0) ∧
    (((upd up fun c => c.setDom 78 { phase := .falling, req := 2, toRet := true }).chip.dom 78).toRet = true ∧
      ((upd up fun c => c.setDom 78 { phase := .falling, req := 2, toRet := true }).chip.dom 78).phase = .falling ∧
      (upd up fun c => c.setDom 78 { phase := .falling, req := 2, toRet := true }).chip.fenceDone 78 = true) ∧
    (((upd (phased up 76 .falling) fun c => c.setCrypto 0 { c.crypto 0 with saving := true }).chip.dom 76).phase = .falling ∧
      (upd (phased up 76 .falling) fun c => c.setCrypto 0 { c.crypto 0 with saving := true }).chip.fenceDone 76 = false) := by
  decide +kernel

theorem witness_RailsAndSupplies :
    (up.chip.rst.phase ≠ .records ∧ (railLevel 0).1 < (721 : BitVec 12).toNat ∧ (720 : BitVec 12).toNat ≤ (railLevel 0).1) ∧
    (up.chip.railGood 23 = false ∧ (railed up).chip.railGood 23 = true ∧ (railed up).chip.railGood 0 = true) ∧
    ((railed up).chip.railGood 2 = true ∧ 2 ∈ railsOf 7 ∧ ((railed up).chip.dom 7).phase = .on) ∧
    (up.chip.domOn (64 + bankSector 19) = true ∧ 19 ∉ up.chip.pow.vccoTold ∧ up.chip.mayReport pgPW 2) ∧
    (phased up (64 + bankSector 0) .off).chip.domOn (64 + bankSector 0) = false ∧
    (((upd up fun c => c.setDom 79 { emul := true, ends := true }).chip.dom 79).emul = true ∧
      ((upd up fun c => c.setDom 79 { emul := true, ends := true }).chip.dom 79).ends = true ∧
      (upd up fun c => c.setDom 79 { emul := true, ends := true }).chip.stepsRun = true) ∧ (up.chip.dom 79).emul = false := by
  unfold Chip.mayReport; decide +kernel

/-- The main path at its bounds; the fallback path; a qualified REFCLK; a lost one. -/
theorem witness_RefclkIsQualified :
    ((put up [(CK_STS_REFST, pgCK, 0, 1), (CK_REFCFG_VALID, pgCK, 0, 1)]).chip.get CK_STS_REFST pgCK = 1 ∧
      (put up [(CK_STS_REFST, pgCK, 0, 1), (CK_REFCFG_VALID, pgCK, 0, 1)]).chip.get CK_REFCFG_VALID pgCK = 1 ∧
      (clocked up fun k => { k with restarts := 15 }).chip.clk.restarts = 15 ∧ up.chip.clk.waitTold = false ∧
      up.chip.mayReport pgCK 0) ∧
    (up.chip.get CK_STS_REFST pgCK ≠ 1 ∧ up.chip.get CK_STS_REFST pgCK ≠ 2) ∧
    ((put up [(CK_STS_REFST, pgCK, 0, 1), (CK_REFCFG_VALID, pgCK, 0, 0)]).chip.get CK_REFCFG_VALID pgCK ≠ 1 ∧
      ((List.range 3).find? fun g => (put up [(CK_STS_REFST, pgCK, 0, 1), (CK_REFCFG_VALID, pgCK, 0, 0)]).chip.inBand g 3200) = some 2 ∧
      (clocked up fun k => { k with run := 7, runCode := 2 }).chip.clk.run = 7 ∧ (clocked up fun k => { k with run := 6, runCode := 2 }).chip.clk.run < 7 ∧
      up.chip.clk.runCode ≠ 2) ∧
    ((put up [(CK_STS_REFST, pgCK, 0, 2)]).chip.get CK_STS_REFST pgCK = 2 ∧
      (put up [(CK_STS_REFST, pgCK, 0, 2)]).chip.inBand ((put up [(CK_STS_REFST, pgCK, 0, 2)]).chip.get CK_REFCFG_FREQ pgCK) 2048 = true ∧
      (put up [(CK_STS_REFST, pgCK, 0, 2)]).chip.inBand ((put up [(CK_STS_REFST, pgCK, 0, 2)]).chip.get CK_REFCFG_FREQ pgCK) 1 = false ∧
      (put up [(CK_STS_REFST, pgCK, 0, 2)]).chip.clk.badRun = 0 ∧ (put up [(CK_STS_REFST, pgCK, 0, 2)]).chip.loopWanted 1 = true) ∧
    (put up [(CK_STS_REFST, pgCK, 0, 3)]).chip.get CK_STS_REFST pgCK = 3 := by
  unfold Chip.mayReport; decide +kernel

theorem witness_LoopsLockAndLoseLock :
    ((put up [(CK_STS_REFST, pgCK, 0, 2)]).chip.get CK_STS_REFST pgCK = 2 ∧ (put up [(CK_STS_REFST, pgCK, 0, 2)]).chip.loopWanted 4 = true ∧
      (put up [(CK_STS_REFST, pgCK, 0, 2)]).chip.get (loopBit 4) pgCK ≠ 1 ∧
      (put up [(CK_STS_REFST, pgCK, 0, 2)]).chip.loopWanted 1 = true ∧ up.chip.clk.onNet = false ∧ up.chip.loopWanted 2 = false) ∧
    (up.reaches .host pgCK (CK_FPLL_EN.off + CK_FPLL_EN.stride * 1) ∧ up.chip.get CK_FPLL_EN pgCK 1 ≠ 1 ∧
      (put up [(CK_FPLL_EN, pgCK, 1, 1)]).chip.get CK_FPLL_EN pgCK 1 = 1) ∧
    ((put up [(CK_STS_REFST, pgCK, 0, 2), (CK_LOOPSTS_FPLL1, pgCK, 0, 1)]).chip.get (loopBit 3) pgCK = 1 ∧ up.chip.mayReport pgCK 2) := by
  unfold State.reaches Chip.mayReport; decide +kernel

theorem witness_FabricClocksSwitch :
    up.reaches .host pgCK (CK_FCLK_DIV.off + CK_FCLK_DIV.stride * 7) ∧
    (put up [(CK_FCLK_BUSY, pgCK, 7, 1)]).chip.get CK_FCLK_BUSY pgCK 7 = 1 ∧
    (up.chip.get CK_FCLK_BUSY pgCK 7 ≠ 1 ∧
      ((0 : BitVec 32).toNat / 256 % 4 = up.chip.get CK_FCLK_SRC pgCK 7 ∧ (0 : BitVec 32).toNat % 256 < 7) ∧
      ¬ ((0x107 : BitVec 32).toNat / 256 % 4 = up.chip.get CK_FCLK_SRC pgCK 7)) ∧
    ((∃ x ∈ (clocked up fun k => { k with switching := [(7, 1, false)] }).chip.clk.switching, x.1 = 7 ∧ x.2.1 ≠ 0 ∧ x.2.2 = false) ∧
      up.chip.get CK_FCLK_SRC pgCK 7 = 0) ∧
    (up.chip.clk.mainSwitch = false ∧ (clocked up fun k => { k with mainSwitch := true }).chip.clk.mainSwitch = true ∧
      up.chip.mayReport pgCK 3) := by unfold State.reaches Chip.mayReport; decide +kernel

theorem witness_GatesCloseByHandshake :
    ((upd up fun c => c.setGate (pgFB 0) .asked).chip.gate (pgFB 0) = .asked ∧
      (upd up fun c => c.setGate (pgFB 0) .asked).chip.pageMoves (pgFB 0) = true ∧
      (upd up fun c => c.setGate (pgFB 0) .asked).chip.pageQuiet (pgFB 0) = true ∧ ∀ g, pageKind (pgFB 0) ≠ some (.eg, g)) ∧
    ((upd up fun c => c.setGate (pgEG 63) .asked).chip.gate (pgEG 63) = .asked ∧ pageKind (pgEG 63) = some (.eg, 63) ∧
      (upd up fun c => c.setGate (pgEG 63) .asked).chip.pageQuiet (pgEG 63) = true) ∧
    up.chip.gate (pgFB 0) ≠ .asked :=
  ⟨⟨by decide +kernel, by decide +kernel, by decide +kernel, fun g h => by
    rw [show pageKind (pgFB 0) = some (.fb, 0) by decide] at h; cases h⟩, by decide +kernel, by decide +kernel⟩

theorem witness_GovernorAndSensors :
    (up.chip.domOn 63 = true ∧ (phased up 63 .off).chip.domOn 63 = false) ∧
    (up.chip.sensorFailed 71 = false ∧ sgn 10 (0x1FF : BitVec 10).toNat < (4 * (put up [(PW_TTRIP_TRIP, pgPW, 0, 0xFF)]).chip.get PW_TTRIP_TRIP pgPW : Nat) ∧
      ¬ sgn 10 (4 : BitVec 10).toNat < (4 * (put up [(PW_TTRIP_TRIP, pgPW, 0, 1)]).chip.get PW_TTRIP_TRIP pgPW : Nat) ∧
      up.chip.pow.tripped = false ∧ (put up [(PW_SENSFAIL_FAIL, pgPW, 2, 0x80)]).chip.sensorFailed 71 = true ∧ up.chip.mayReport pgPW 8) ∧
    ((put up [(PW_AGEGB_GB, pgPW, 0, 4), (PW_AGE_CODE, pgPW, 63, 14)]).chip.get PW_AGE_CODE pgPW 63 = 14 ∧
      (put up [(PW_AGEGB_GB, pgPW, 0, 4), (PW_AGE_CODE, pgPW, 63, 15)]).chip.get PW_AGE_CODE pgPW 63 = 15 ∧
      (put up [(PW_AGEGB_GB, pgPW, 0, 4)]).chip.get PW_AGEGB_GB pgPW = 4 ∧ up.chip.mayReport pgPW 9) ∧
    (up.chip.stepsRun = true ∧ (up.chip.grp 63).bound.on = false ∧ (up.chip.grp 63).loose.on = false) := by
  unfold Chip.mayReport; decide +kernel

theorem witness_StartAndReady :
    ((railed State.reset).chip.rst.phase = .held ∧ (railed State.reset).chip.railGood 0 = true ∧ (railed State.reset).chip.railGood 23 = true) ∧
    (timed up fun r => { r with phase := .ready }).chip.rst.phase ≠ .held ∧
    (up.chip.rst.mainRel = true ∧ up.chip.get GL_STS_ROUTES pgGL = 0 ∧ up.chip.routeValid = false ∧ up.chip.mayReport pgGL 2) ∧
    (State.reset.chip.rst.mainRel = false ∧ up.chip.rst.phase ≠ .mainup) ∧
    ((put (timed up fun r => { r with phase := .mainup }) [(GL_STS_ROUTES, pgGL, 0, 1), (CK_LOOPSTS_NET, pgCK, 0, 1)]).chip.rst.phase = .mainup ∧
      (put up [(GL_STS_ROUTES, pgGL, 0, 1), (CK_LOOPSTS_NET, pgCK, 0, 1)]).chip.get GL_STS_ROUTES pgGL ≠ 0 ∧ up.chip.domOn 79 = true ∧
      (put up [(GL_STS_ROUTES, pgGL, 0, 1), (CK_LOOPSTS_NET, pgCK, 0, 1)]).chip.get CK_LOOPSTS_NET pgCK = 1) := by
  unfold Chip.mayReport; decide +kernel

theorem witness_WarmReset :
    (dark.chip.rst.phase ≠ .held ∧ (∀ d < 80, (dark.chip.dom d).phase ≠ .on ∧ (dark.chip.dom d).phase ≠ .falling) ∧ dark.chip.stepsRun = true ∧
      dark.chip.rst.phase ≠ .warm) ∧
    (dark.reaches .host pgGL GL_RSTCTL_WARM.off ∧ dark.chip.guardian .host = true ∧ bitsOf (0xA501 : BitVec 32).toNat 15 8 = 0xA5 ∧
      bitsOf (1 : BitVec 32).toNat 15 8 ≠ 0xA5) ∧
    (dark.reaches .debug pgGL GL_RSTCTL_WARM.off ∧ dark.chip.guardian .debug = false) ∧
    ((railed (timed dark fun r => { r with phase := .warm, mainRel := false })).chip.rst.phase = .warm ∧
      (railed (timed dark fun r => { r with phase := .warm, mainRel := false })).chip.rst.pin = false ∧
      (railed (timed dark fun r => { r with phase := .warm, mainRel := false })).chip.railGood 1 = true) := by
  unfold State.reaches; decide +kernel

/-- A watchdog that counts, with its warning enabled. -/
def watched : State := put up [(GL_WDCTL_EN, pgGL, 0, 1), (GL_WDCTL_WEN, pgGL, 0, 1), (GL_WDCNT_COUNT, pgGL, 0, 2)]

theorem witness_HostWatchdog :
    (up.reaches .host pgGL GL_WDCTL_EN.off ∧ up.chip.guardian .host = true ∧ bitsOf (0xA5000001 : BitVec 32).toNat 31 24 = 0xA5 ∧
      bitsOf (1 : BitVec 32).toNat 31 24 ≠ 0xA5 ∧ (0xA5000001 : BitVec 32).getLsbD 0 = true ∧ up.chip.get GL_WDCTL_EN pgGL ≠ 1 ∧
      bitsOf (0xA5000101 : BitVec 32).toNat 9 8 < 2) ∧
    (up.reaches .debug pgGL GL_WDCTL_EN.off ∧ up.chip.guardian .debug = false) ∧
    (up.reaches .host pgGL GL_WDKICK_KICK.off ∧ (0x5A5A : BitVec 32).toNat % 2 ^ 16 = 0x5A5A ∧ (0 : BitVec 32).toNat % 2 ^ 16 ≠ 0x5A5A ∧
      up.chip.mayReport pgGL 6) ∧
    (watched.chip.wdCounts = true ∧ watched.chip.get GL_WDCTL_WEN pgGL = 1 ∧ watched.chip.rst.warned = false ∧
      2 ≤ watched.chip.get GL_WDCNT_COUNT pgGL ∧ watched.chip.mayReport pgGL 4 ∧ watched.chip.get GL_WDCTL_ACTION pgGL ≠ 1 ∧
      watched.chip.mayReport pgGL 5) ∧ up.chip.wdCounts = false := by
  unfold State.reaches Chip.mayReport; decide +kernel
/-! ## Witnesses: debug access, freeze, the recorder, flash, the serial targets -/

/-- The host owns the debug session at a level. -/
def owned (s : State) (l : Nat) : State := put s [(DB_AUTHSTS_OWNER, pgDB, 0, 2), (DB_AUTHSTS_LEVEL, pgDB, 0, l)]

/-- Key bytes stand in the flash. -/
def keyed (s : State) (a : Nat) : State := upd s fun c => c.programUnit a (List.replicate 32 0)

/-- A challenge is open. -/
def challenged (s : State) : State := put (timed (owned s 0) fun r => { r with askLevel := 2 }) [(DB_AUTHSTS_CHAL, pgDB, 0, 1)]

/-- The response registers of the DB page hold these bytes. -/
def responding (s : State) (b : List (BitVec 8)) : State :=
  put s ((List.range 4).map fun i => (DB_RESP_RESP, pgDB, i, leAt b (4 * i) 4))

/-- The right response to an open challenge. -/
def answered : State := responding (challenged (keyed up 0x1020)) ((challenged (keyed up 0x1020)).chip.response 0x1020 0 2 2)

theorem witness_the_right_response : ((List.range 4).flatMap (fun i => natLe 4 (answered.chip.get DB_RESP_RESP pgDB i)) ==
    answered.chip.response (debugKey answered.chip.rst.askLevel)
      (answered.chip.get DB_NONCEL_NONCE pgDB + 2 ^ 32 * answered.chip.get DB_NONCEH_NONCE pgDB) answered.chip.rst.askLevel
      (answered.chip.get DB_AUTHSTS_OWNER pgDB)) = true := by decide +kernel

theorem witness_DebugAccessIsAuthorised :
    (up.reaches .host pgDB DB_AUTHCMD_OP.off ∧ Who.debugPort .host ≠ 0 ∧ up.chip.get DB_AUTHSTS_OWNER pgDB = 0 ∧
      (put up [(DB_AUTHSTS_LOCKOUT, pgDB, 0, 1)]).chip.get DB_AUTHSTS_LOCKOUT pgDB = 1 ∧ up.chip.get DB_AUTHSTS_LOCKOUT pgDB ≠ 1 ∧
      up.chip.keyPresent (debugKey 2) = false ∧ (keyed up 0x1000).chip.keyPresent (debugKey 1) = true) ∧
    (up.chip.dbOwner .i2c = false ∧ Who.debugPort .i2c = 0 ∧ up.reaches .i2c pgDB DB_AUTHCMD_OP.off) ∧
    ((owned up 1).reaches .host pgDB DB_AUTHCMD_OP.off ∧ (owned up 1).chip.dbOwner .host = true ∧
      (owned up 1).chip.get DB_AUTHSTS_CHAL pgDB ≠ 1 ∧ (owned up 1).reaches .jtag pgDB DB_AUTHCMD_OP.off ∧
      (owned up 1).chip.dbOwner .jtag = false ∧ (owned up 1).chip.get DB_AUTHSTS_OWNER pgDB ≠ 0) ∧
    (answered.reaches .host pgDB DB_AUTHCMD_OP.off ∧ answered.chip.dbOwner .host = true ∧ answered.chip.get DB_AUTHSTS_CHAL pgDB = 1) ∧
    ((put answered [(DB_RESP_RESP, pgDB, 0, 0), (DB_AUTHSTS_CNT, pgDB, 0, 7)]).chip.get DB_AUTHSTS_CNT pgDB = 7 ∧
      answered.chip.get DB_AUTHSTS_CNT pgDB < 7) := by unfold State.reaches; decide +kernel

/-- Group 31 is up, with these parts of its debug state. -/
def halting (s : State) (h : HaltSt) : State := upd (put s [(PG_STS_RUNNING, pgEG 31, 0, 1)]) fun c => c.setGrp 31 { c.grp 31 with halt := h }

/-- Sequencer 127 is in a state. -/
def sequenced (s : State) (v : Nat) : State := upd s fun c => c.setSeqState 127 v

theorem witness_DebugRunControl :
    ((owned up 1).reaches .host pgDB DB_CMD_OP.off ∧ (owned up 1).chip.dbOwner .host = true ∧
      (put (owned up 1) [(DB_CMDSTS_BUSY, pgDB, 0, 1)]).chip.get DB_CMDSTS_BUSY pgDB = 1 ∧
      (1 ≤ (0x101 : BitVec 32).toNat % 16 ∧ (0x104 : BitVec 32).toNat % 16 ≤ 4) ∧ (owned up 1).chip.get DB_CMDSTS_BUSY pgDB ≠ 1 ∧
      (runs (owned up 1) pgDB).chip.accepts pgDB = true ∧ (owned up 1).chip.dbPermits 1 0 (0, 0) false = true ∧
      (owned up 1).chip.dbPermits 2 0 (0, 0) false = false ∧ (owned up 2).chip.dbPermits 4 0 (0, 0) false = true) ∧
    ((owned up 2).reaches .host pgDB DB_HALTH_HALT.off ∧ (owned up 2).reaches .host pgDB DB_HALTL_HALT.off ∧
      (owned up 2).chip.fullDebug = true ∧ (owned up 1).chip.fullDebug = false ∧ 63 ∈ groupsOf true (0x80000000 : BitVec 32).toNat) ∧
    ((halting up { record := true }).chip.groupUp 31 = true ∧ (halting up { record := true }).chip.stepsRun = true ∧
      ((halting up { record := true }).chip.grp 31).halt.record = true ∧ ((halting up { record := true }).chip.grp 31).halt.halted = false ∧
      ((halting up { record := true }).chip.grp 31).bound.on = false ∧ ((halting up { record := true }).chip.grp 31).loose.on = false) ∧
    ((halting (owned up 2) { record := true }).reaches .host pgDB DB_RELL_REL.off ∧ groupsOf false (0x80000000 : BitVec 32).toNat = [31] ∧
      ((halting (owned up 2) { record := true }).chip.grp 31).halt.step = none ∧
      ((halting (owned up 2) { record := true, halted := true, step := some true }).chip.grp 31).halt.step.isSome = true ∧
      (owned up 2).reaches .host pgDB DB_RELH_REL.off) ∧
    ((halting (owned up 2) { record := true, halted := true }).reaches .host pgDB DB_STEPL_STEP.off ∧
      ((halting (owned up 2) { record := true, halted := true }).chip.grp 31).halt.halted = true ∧
      (owned up 2).reaches .host pgDB DB_STEPH_STEP.off) ∧
    ((sequenced (owned up 2) 1).reaches .host pgDB DB_CTL_SEQ.off ∧ (0x7F0000 : BitVec 32).getLsbD 23 = false ∧
      16 * bitsOf (0x7F0000 : BitVec 32).toNat 22 20 + bitsOf (0x7F0000 : BitVec 32).toNat 19 16 = 127 ∧
      (sequenced (owned up 2) 1).chip.seqState 127 = 1 ∧ ((sequenced (owned up 2) 1).chip.seqOf 127).lock = false ∧
      ((sequenced (owned up 2) 1).chip.seqOf 127).stall = false ∧ (sequenced (owned up 2) 2).chip.seqState 127 = 2 ∧
      (sequenced (owned up 2) 4).chip.seqState 127 = 4) ∧
    (up.chip.regReach .host pgDB DB_FFVAL_Q.off false = 0 ∧ up.chip.peekOf pgDB DB_FFVAL_Q.off = none ∧
      (put (frozen (owned up 1)) [(FB_STATE_STARTED, pgFB 0, 0, 1)]).chip.get GL_FRZSTS_STATE pgGL = 2 ∧
      (put (frozen (owned up 1)) [(FB_STATE_STARTED, pgFB 0, 0, 1)]).chip.get DB_AUTHSTS_LEVEL pgDB ≠ 0 ∧
      (put (frozen (owned up 1)) [(FB_STATE_STARTED, pgFB 0, 0, 1)]).chip.started 0 = true) := by
  unfold State.reaches; decide +kernel

theorem witness_TestAccessPortInstructions :
    dark.chip.rst.phase ≠ .held ∧ { dark with tap := { ir := 0x10 } }.tap.ir = 0x10 ∧ (1 : BitVec 45).getLsbD 0 = true ∧
    (0 : BitVec 45).getLsbD 0 = false ∧ State.reset.chip.rst.phase = .held := by decide

theorem witness_FreezeAndThaw :
    (up.reaches .host pgGL GL_FRZ_REQ.off ∧ up.chip.guardian .host = true ∧ bitsOf (0xA5000001 : BitVec 32).toNat 31 24 = 0xA5 ∧
      bitsOf (1 : BitVec 32).toNat 31 24 ≠ 0xA5 ∧ up.reaches .debug pgGL GL_FRZ_REQ.off ∧ up.chip.guardian .debug = false) ∧
    ((put up [(GL_FRZ_REQ, pgGL, 0, 1)]).chip.freezeAsked = true ∧ (put up [(GL_FRZ_REQ, pgGL, 0, 1)]).chip.get GL_FRZSTS_STATE pgGL = 0 ∧
      up.chip.freezeAsked = false) ∧
    (put up [(GL_FRZSTS_STATE, pgGL, 0, 1)]).chip.get GL_FRZSTS_STATE pgGL = 1 ∧ up.chip.get GL_FRZSTS_STATE pgGL ≠ 1 ∧
    ((frozen up).chip.get GL_FRZSTS_STATE pgGL = 2 ∧ (frozen up).chip.freezeAsked = false ∧ (frozen up).chip.stream.lostWords = false ∧
      (frozen up).chip.pow.later = []) := by unfold State.reaches; decide +kernel

/-- Another state of the recorder. -/
def recorded (s : State) (f : RecSt → RecSt) : State := upd s fun c => { c with ev := f c.ev }

/-- A record as it waits in the front buffer. -/
def aRec : Rec := { seq := 126, code := 0x8000, source := 0xF000, data := 0 }

/-- A recorder that has been cleared once and holds the record of SEQ 126. -/
def printing : State := put (recorded up fun v => { v with buf := [aRec] })
  [(EV_STS_EMPTY, pgEV, 0, 0), (EV_HEAD_SEQ, pgEV, 0, 126), (EV_TAIL_SEQ, pgEV, 0, 126), (EV_UARTSEQ_SEQ, pgEV, 0, 126),
    (EV_UARTCTL_EN, pgEV, 0, 1), (CK_STS_REFST, pgCK, 0, 2), (PG_CTL_RUN, pgEV, 0, 1), (PG_STS_RUNNING, pgEV, 0, 1)]

theorem witness_EventRecords :
    (up.reaches .host pgEV EV_SWCODE_CODE.off ∧ (0x7FFF : BitVec 16).toNat < 0x8000 ∧ 0x8000 ≤ (0x8000 : BitVec 16).toNat ∧
      up.chip.get EV_CTL_LIMIT pgEV < (Store.get (0, 0) (recorded up fun v => { v with rate := [(0x8000, (1000000, 0))] }).chip.ev.rate 0x8000).1 ∧
      (Store.get (0, 0) up.chip.ev.rate 0x8000).1 ≤ up.chip.get EV_CTL_LIMIT pgEV ∧ up.chip.bufferOpen ∧
      1024 ≤ (recorded up fun v => { v with buf := List.replicate 1024 aRec }).chip.ev.buf.length +
        (recorded up fun v => { v with buf := List.replicate 1024 aRec }).chip.ev.early.length) ∧
    (printing.chip.ev.searching = false ∧ printing.chip.ev.buf = aRec :: [] ∧ ([] : List Rec).length < 1024 ∧ printing.chip.ev.lost = 0 ∧
      printing.chip.unitErased (ringAddr aRec.seq.toNat) = true ∧ aRec.seq.toNat % 128 ≠ 127) ∧ up.chip.ev.buf = [] ∧
    ((up.chip.ev.time.toNat / 1000000 + 1) * 1000000 < 2 ^ 48 ∧ up.chip.ev.rate.filter (fun kv => decide (0 < kv.2.2)) = [] ∧
      (recorded up fun v => { v with rate := [(0x8000, (9, 1))] }).chip.ev.rate.filter (fun kv => decide (0 < kv.2.2)) = [(0x8000, (9, 1))]) ∧
    ((recorded up fun v => { v with searching := true }).chip.ev.searching = true ∧ up.chip.ev.early = [] ∧ up.chip.ev.flash = []) ∧
    (printing.chip.get EV_UARTSEQ_SEQ pgEV = 126 ∧ printing.chip.get EV_UARTCTL_EN pgEV = 1 ∧ printing.chip.works pgEV = true ∧
      printing.chip.get CK_STS_REFST pgCK = 2 ∧ printing.chip.get EV_STS_EMPTY pgEV ≠ 1 ∧ printing.chip.readable 126 = true ∧
      126 ≠ (printing.chip.get EV_HEAD_SEQ pgEV + 1) % 2 ^ 32) ∧
    (up.reaches .host pgEV EV_UARTCTL_EN.off ∧ (put up [(EV_UARTCTL_EN, pgEV, 0, 0)]).chip.get EV_UARTCTL_EN pgEV ≠ 1 ∧ printing.reaches .host pgEV EV_UARTCTL_EN.off) := by
  unfold State.reaches Chip.bufferOpen; decide +kernel

/-- The right response to an open owner-clear challenge. -/
def clearing : State :=
  let s := put (keyed up 0x10C0) [(EV_CLRSTS_CHAL, pgEV, 0, 1), (EV_CLRNONCEL_VALUE, pgEV, 0, 7)]
  put s ((List.range 4).map fun i => (EV_CLRRESP_VALUE, pgEV, i, leAt (s.chip.response 0x10C0 7 0x43 0) (4 * i) 4))

theorem witness_OwnerClear :
    (up.reaches .host pgEV EV_CLRCMD_OP.off ∧ (put up [(EV_CLRSTS_LOCKOUT, pgEV, 0, 1)]).chip.get EV_CLRSTS_LOCKOUT pgEV = 1 ∧
      up.chip.get EV_CLRSTS_LOCKOUT pgEV ≠ 1 ∧ up.chip.keyPresent 0x10C0 = false ∧ clearing.chip.keyPresent 0x10C0 = true ∧
      up.chip.get EV_CLRSTS_CHAL pgEV ≠ 1) ∧
    (clearing.reaches .host pgEV EV_CLRCMD_OP.off ∧ clearing.chip.get EV_CLRSTS_CHAL pgEV = 1 ∧
      ((List.range 4).flatMap (fun i => natLe 4 (clearing.chip.get EV_CLRRESP_VALUE pgEV i)) ==
        clearing.chip.response 0x10C0 (clearing.chip.get EV_CLRNONCEL_VALUE pgEV + 2 ^ 32 * clearing.chip.get EV_CLRNONCEH_VALUE pgEV)
          0x43 (Who.cls .host)) = true ∧ up.chip.mayReport pgEV 5) ∧
    ((Who.host == .debug && up.chip.get DB_AUTHSTS_LEVEL pgDB == 2 ||
        (Who.host == .host || Who.mgmt .host) && up.chip.bit EV_CLRSTS_AUTH pgEV && up.chip.ev.authBy == Who.cls .host) = false ∧
      (Who.host == .debug && up.chip.get DB_AUTHSTS_LEVEL pgDB == 2 || (Who.host == .host || Who.mgmt .host) &&
        (put up [(EV_CLRSTS_AUTH, pgEV, 0, 1)]).chip.bit EV_CLRSTS_AUTH pgEV && up.chip.ev.authBy == Who.cls .host) = true ∧
      (put up [(EV_STS_CLRBUSY, pgEV, 0, 1)]).chip.get EV_STS_CLRBUSY pgEV = 1 ∧ up.chip.get EV_STS_CLRBUSY pgEV ≠ 1 ∧
      up.chip.mayReport pgEV 4) ∧
    /- a ring sector that holds a readable record, one that does not, and a sector below the ring -/
    (((0 + 2048 - 0) % 2048 ≤ (0 % 128 + 127) / 128 ∧ (0x280000 / 8) / 512 = ringBase / 0x1000 + 0) ∧
      ((0 % 128 + 127) / 128 < (2047 + 2048 - 0) % 2048 ∧ (0x280000 / 8 + 512 * 2047) / 512 = ringBase / 0x1000 + 2047) ∧
      0 / 512 < ringBase / 0x1000) := by unfold State.reaches Chip.mayReport; decide +kernel

/-- A flash command in progress, and a serial target that waits. -/
def flashing (q : FlashCmd) : State := recorded up fun v => { v with cmd := some q }
def serving (stale : Bool) : State := recorded up fun v => { v with i2c := { v.i2c with busy := true, stale := stale }, spi := { v.spi with busy := true, stale := stale } }

theorem witness_FlashAndSerialTargets :
    (up.reaches .host pgEV EV_FLCMD_OP.off ∧ up.chip.flashMaster .host 1 = true ∧ up.chip.flashMaster .debug 2 = false ∧
      up.reaches .debug pgEV EV_FLCMD_OP.off ∧ (put up [(EV_FLCMD_BUSY, pgEV, 0, 1)]).chip.get EV_FLCMD_BUSY pgEV = 1 ∧
      up.chip.get EV_FLCMD_BUSY pgEV ≠ 1 ∧ (runs up pgEV).chip.run pgEV = true ∧
      (put up [(EV_FLADDR_ADDR, pgEV, 0, 31)]).chip.get EV_FLADDR_ADDR pgEV % 32 ≠ 0 ∧ up.chip.get EV_FLADDR_ADDR pgEV % 32 = 0 ∧
      up.chip.flashRights .host 1 0 = 0 ∧ up.chip.unitErased 0 = true) ∧
    ((flashing { op := 1, addr := 0 }).chip.ev.cmd = some { op := 1, addr := 0 } ∧
      (flashing { op := 2, addr := 0xFFFFE0 }).chip.ev.cmd = some { op := 2, addr := 0xFFFFE0 } ∧
      (flashing { op := 3, addr := 0x1000 }).chip.ev.cmd = some { op := 3, addr := 0x1000 } ∧ up.chip.ev.cmd = none) ∧
    ((0x280 ≤ 0x280 ∧ 0xA7F < 0xA80) ∧ ¬ (0x280 ≤ 0xA80 ∧ 0xA80 < 0xA80) ∧
      (recorded up fun v => { v with refresh := [0xA80] }).chip.ev.refresh.contains 0xA80 = true ∧
      up.chip.ev.spares = 4096 :: (List.range 15).map (4097 + ·) ∧ Store.wf (fun _ => flashErased) up.chip.ev.flash = true) ∧
    (((serving false).chip.serialOf true).busy = true ∧ ((serving false).chip.serialOf false).busy = true ∧
      (up.chip.serialOf true).busy = false ∧ (up.chip.serialOf false).busy = false ∧ ((serving true).chip.serialOf true).stale = true ∧
      ((serving false).chip.serialOf false).stale = false) := by unfold State.reaches; decide +kernel
/-! ## Witnesses: groups, laps, batches, lockstep, pairs, images -/

/-- Another state of one group. -/
def grouped (s : State) (g : Nat) (f : GroupSt → GroupSt) : State := upd s fun c => c.setGrp g (f (c.grp g))

/-- Group 63 waits for its alignment edge. -/
def starting : State := grouped (put up [(PG_CTL_RUN, pgEG 63, 0, 1), (CK_LOOPSTS_ENG, pgCK, 0, 1)]) 63 fun x => { x with waiting := true }

/-- Group 63 runs, with its bound engine 504. -/
def going : State := grouped
  (put up [(PG_CTL_RUN, pgEG 63, 0, 1), (PG_STS_RUNNING, pgEG 63, 0, 1), (PG_CTL_RUN, pgEE 504, 0, 1), (PG_STS_RUNNING, pgEE 504, 0, 1)])
  63 fun x => { x with rate := some 0 }

/-- The same group within a lap. -/
def inside (l : LapSt) : State := grouped going 63 fun x => { x with bound := { l with on := true } }

/-- The same group and engine, loose. -/
def goingLoose : State := put going [(EE_LAPCTL_CLASS, pgEE 504, 0, 1)]

/-- The cell of pace input 0 delivers its level. -/
def pacing : State := upd (put up [(FB_STATE_STARTED, pgFB 0, 0, 1)]) fun c =>
  { c with fab := { c.fab with ioWord := [(0, BitVec.ofNat 128 (0x2000 + 0x400 + 1))] } }

/-- What group 63 recognises. -/
def itsPace : PaceKey := { pin := 0, edge := 0, div := 0, steps := 1 }

theorem witness_GroupsStartAndRecognisePace :
    (((starting.chip.grp 63).waiting && starting.chip.run (pgEG 63) && starting.chip.domOn 63 && !starting.chip.gated (pgEG 63) &&
        starting.chip.lapsStart && starting.chip.engineLoop) = true ∧
      (starting.chip.get EG_PACE_EDGE (pgEG 63) == 2) = false ∧ (starting.chip.get EG_PACE_OVRPOL (pgEG 63) == 2) = false ∧
      (starting.chip.lengthsDiffer 63 false || starting.chip.lengthsDiffer 63 true) = false ∧
      (starting.chip.runners 63).any (fun e => starting.chip.pairBad e) = false ∧
      ((put starting [(EG_PACE_EDGE, pgEG 63, 0, 2)]).chip.get EG_PACE_EDGE (pgEG 63) == 2) = true ∧
      (put starting [(EG_PACE_EDGE, pgEG 63, 0, 2)]).chip.get GL_OPTIN_PACEDG pgGL = 0 ∧
      (put starting [(PG_CTL_RUN, pgEE 504, 0, 1), (PG_CTL_RUN, pgEE 505, 0, 1), (EE_LAPCTL_LCOUNT, pgEE 505, 0, 9)]).chip.lengthsDiffer 63 false = true ∧
      ((put starting [(PG_CTL_RUN, pgEE 504, 0, 1), (EE_PAIR_ROLE, pgEE 504, 0, 1)]).chip.runners 63).any
        (fun e => (put starting [(PG_CTL_RUN, pgEE 504, 0, 1), (EE_PAIR_ROLE, pgEE 504, 0, 1)]).chip.pairBad e) = true) ∧
    (up.chip.grp 63).waiting = false ∧
    (pacing.chip.paceDelivers 0 = true ∧ pacing.chip.get GL_FRZSTS_STATE pgGL = 0 ∧ up.chip.paceDelivers 15 = false ∧
      (((pacing.chip.setPins [(0, true)]).settle.ioPace 0).1 == 0 && ((pacing.chip.setPins [(0, true)]).settle.ioPace 0).2.1 &&
        (pacing.chip.setPins [(0, true)]).settle.started (cellSector 0) && (pacing.chip.setPins [(0, true)]).settle.ioStd 0 != 0) = true ∧
      ((pacing.chip.setPins [(0, true)]).settle.ioWord 0).getLsbD 13 = true ∧
      (pacing.chip.setPins [(0, true)]).settle.ioStd 479 = 0) ∧
    ((frozen up).chip.lapsStart = false ∧ going.chip.lapsStart = true ∧ going.chip.recognisers itsPace = [63] ∧ going.chip.eng.lsSync = false ∧
      going.chip.get EG_LSIMP_LSG (pgEG 63) ≠ 1 ∧ (going.chip.grp 63).bound.on = false ∧ going.chip.accepts (pgEG 63) = true ∧
      (going.chip.grp 63).haltAllows false = true ∧ going.chip.ready 63 false ≠ []) ∧
    ((inside {}).chip.recognisers itsPace = [63] ∧ ((inside {}).chip.grp 63).bound.on = true ∧
      (inside {}).chip.get EG_PACE_OVRPOL (pgEG 63) = 0 ∧ (put (inside {}) [(EG_PACE_OVRPOL, pgEG 63, 0, 1)]).chip.get EG_PACE_OVRPOL (pgEG 63) = 1 ∧
      (put (inside {}) [(EG_PACE_OVRPOL, pgEG 63, 0, 2)]).chip.get EG_PACE_OVRPOL (pgEG 63) = 2 ∧ ((inside {}).chip.grp 63).held = false ∧
      (inside {}).chip.mayReport (pgEG 63) 1 ∧ (inside {}).chip.mayReport (pgEG 63) 2) ∧
    ((up.chip.grp 63).resync = false ∧ ((grouped up 63 fun x => { x with resync := true }).chip.grp 63).resync = true ∧ up.chip.stepsRun = true) ∧
    ((up.chip.monitors 63 && !(up.chip.grp 63).lateDone) = false ∧ (put going [(EG_DLLATE_EN, pgEG 63, 0, 1)]).chip.monitors 63 = true ∧
      (going.chip.grp 63).lateDone = false) := by unfold Chip.mayReport; decide +kernel

/-- A loose lap of group 63 whose pair of engines 504 and 505 differs: one failed. -/
def torn : State := grouped
  (put going [(PG_CTL_RUN, pgEE 505, 0, 1), (PG_STS_RUNNING, pgEE 505, 0, 1), (EE_PAIR_ROLE, pgEE 504, 0, 1), (EE_PAIR_ROLE, pgEE 505, 0, 2),
    (EE_LAPCTL_CLASS, pgEE 504, 0, 1), (EE_LAPCTL_CLASS, pgEE 505, 0, 1)])
  63 fun x => { x with loose := { on := true, phase := .committed, parts := [0, 1], failed := [0] } }

theorem witness_LapsRunInPhases :
    (up.chip.lap 63 false).on = false ∧
    ((inside {}).chip.lap 63 false).on = true ∧ (inside {}).chip.groupUp 63 = true ∧ (inside {}).chip.stepsRun = true ∧
    ((inside {}).chip.lap 63 false).phase = .started ∧ (inside {}).chip.get EG_LSIMP_LSG (pgEG 63) ≠ 1 ∧
    ((inside {}).chip.ready 63 false).any (fun k => (inside {}).chip.running (pgEE (8 * 63 + k))) = true ∧
    (grouped goingLoose 63 fun x => { x with bound := { on := true } }).chip.ready 63 false = [] ∧
    (((inside { phase := .computing, parts := [0], len := 1 }).chip.lap 63 false).phase = .computing ∧
      ((inside { phase := .computing, parts := [0], len := 1 }).chip.lap 63 false).step < 1) ∧
    ((inside { phase := .computing, parts := [0], step := 1 }).chip.lap 63 false).step = ((inside { parts := [0], step := 1 }).chip.lap 63 false).len ∧
    (inside {}).chip.cur 504 ≤ 1 ∧
    (((inside { phase := .committed, parts := [0] }).chip.lap 63 false).phase = .committed ∧
      ((inside { phase := .committed, parts := [0] }).chip.lap 63 false).replay = false ∧
      (inside { phase := .committed, parts := [0] }).chip.together 63 .committed = [63] ∧
      (inside { phase := .committed, parts := [0] }).chip.pairsIn 63 ((inside { phase := .committed, parts := [0] }).chip.lap 63 false) = [] ∧
      ((inside { phase := .committed, parts := [0] }).chip.lap 63 false).parts.Nodup) ∧
    ((torn.chip.lap 63 true).on = true ∧ (torn.chip.lap 63 true).phase = .committed ∧ torn.chip.wantsReplay 63 true = true) ∧
    ((inside { phase := .decided }).chip.lap 63 false).phase = .decided ∧
    (((inside { phase := .output }).chip.lap 63 false).phase = .output ∧ (inside { phase := .output }).chip.together 63 .output = [63] ∧
      ((inside { phase := .output }).chip.grp 63).held = false) := by decide +kernel

/-- A batch of group 63 whose first record has come. -/
def batched : State := grouped (put goingLoose [(EG_LPCTL_EN, pgEG 63, 0, 1)]) 63 fun x => { x with batch := { active := true, buf := [(0, 0)] } }

/-- Member 1 of a lockstep set, in a state. -/
def member (v : Nat) : State := put up [(GL_LSSTS_STATE, pgGL, 0, v), (GL_LSCTL_MEMBER, pgGL, 0, 1), (GL_LSCTL_MASTER, pgGL, 0, 1)]

/-- Link port 15 holds a message. -/
def told (s : State) (h : BitVec 512) : State := upd s fun c => c.setPort 15 { c.portSt 15 with inbox := [[h]] }

/-- The message that `told` left is taken by the type given. -/
def heard (s : State) (h : BitVec 512) (n : Nat) : Bool :=
  match (told s h).chip.inboxTake 15 (fun h => lsType h == n) with
  | some (m, _) => m == [h] && (told s h).chip.lsMine h
  | none => false

theorem witness_BatchesAdmissionTraceAndLockstep :
    (up.reaches .host (pgEG 63) EG_LPCTL_EN.off ∧ up.chip.get EG_LPCTL_EN (pgEG 63) ≠ 1 ∧
      up.chip.bufferCheck (Asker.batchIn 63 0).place.1 (up.chip.batchIn 63) 128 ≠ 0 ∧
      (put up [(EG_LPINH_ADDR, pgEG 63, 0, spBase / 2 ^ 32), (EG_LPINL_ADDR, pgEG 63, 0, spBase % 2 ^ 32 / 128)]).chip.bufferCheck
        (Asker.batchIn 63 0).place.1 spBase 128 = 0 ∧ (up.chip.grp 63).batch.reads = []) ∧
    (batched.reaches .host (pgEG 63) EG_LPCTL_EN.off ∧ batched.chip.get EG_LPCTL_EN (pgEG 63) = 1) ∧ up.chip.offered 63 = false ∧
    (batched.chip.offered 63 = true ∧ (batched.chip.grp 63).loose.on = false ∧ batched.chip.accepts (pgEG 63) = true ∧
      batched.chip.lapsStart = true ∧ (batched.chip.grp 63).haltAllows true = true ∧
      (put batched [(EG_ADMCTL_FREE, pgEG 63, 0, 1), (EG_ADMTH_TLIM, pgEG 63, 0, 0x7F)]).chip.admits 63 = true ∧
      batched.chip.get EG_ADMDEPTH_DEPTH (pgEG 63) < 2 ^ 24 ∧ (put batched [(EG_ADMSTS_THROT, pgEG 63, 0, 1)]).chip.admits 63 = false) ∧
    (((up.chip.grp 63).adm.due && up.chip.domOn 63) = false ∧
      ((grouped up 63 fun x => { x with adm := { x.adm with due := true } }).chip.grp 63).adm.due = true ∧ up.chip.domOn 63 = true) ∧
    (up.reaches .host (pgEG 63) EG_TRCCTL_EN.off ∧ up.chip.get EG_TRCCTL_EN (pgEG 63) ≠ 1 ∧
      up.chip.bufferCheck (Asker.trace 63 0).place.1 (2 ^ 44 - 64) (8 * up.chip.traceUnits 63) ≠ 0 ∧
      up.chip.bufferCheck (Asker.trace 63 0).place.1 spBase (8 * up.chip.traceUnits 63) = 0) ∧
    ((put up [(EG_TRCCTL_EN, pgEG 63, 0, 1)]).reaches .host (pgEG 63) EG_TRCCTL_EN.off ∧
      (put up [(EG_TRCCTL_EN, pgEG 63, 0, 1)]).chip.get EG_TRCCTL_EN (pgEG 63) = 1 ∧ (up.chip.grp 63).trace.held = [] ∧
      ((grouped up 63 fun x => { x with trace := { x.trace with held := [1] } }).chip.grp 63).trace.held ≠ [] ∧ up.chip.stepsRun = true) ∧
    (up.reaches .host pgGL GL_LSCTL_EN.off ∧ up.chip.lsState = 0 ∧ (member 1).chip.lsState = 1 ∧ (member 1).chip.get GL_LSCTL_MASTER pgGL = 1 ∧
      (member 2).chip.lsState = 2 ∧ (member 3).chip.lsState = 3) ∧
    (up.chip.inboxTake 15 (fun h => lsType h == 1) = none ∧ (frozen up).chip.stepsRun = false) ∧
    (heard (member 1) 0x101 1 = true ∧ heard (member 2) 0x102 2 = true ∧ heard (member 2) 0x5103 3 = true ∧
      (told up 0x101).chip.lsMine 0x101 = false) ∧
    (bitsOf (0x102 : BitVec 512).toNat 14 12 = 0 ∧ bitsOf (0x102 : BitVec 512).toNat 47 16 = (member 2).chip.get GL_LSLAP_LAP pgGL ∧
      (put (member 2) [(EG_LSIMP_LSG, pgEG 0, 0, 1), (EG_LSIMP_WEN, pgEG 0, 0, 1)]).chip.get EG_LSIMP_LSG (pgEG 0) = 1 ∧
      ((put (member 2) [(EG_LSIMP_LSG, pgEG 0, 0, 1), (EG_LSIMP_WEN, pgEG 0, 0, 1)]).chip.get EG_LSIMP_WEN (pgEG 0)).testBit 0 = true ∧
      ((member 2).chip.grp 0).lsBuf = []) := by unfold State.reaches; decide +kernel

/-- Engine 511 is the odd member of a pair. -/
def paired (s : State) : State := put s [(EE_PAIR_ROLE, pgEE 510, 0, 1), (EE_PAIR_ROLE, pgEE 511, 0, 2)]

/-- The loader stands in a phase of a run over external memory, while the CF function runs in the device that is ready. -/
def loading (phase : Nat) (l : LoaderSt) : State :=
  upd (timed (put up [(PG_CTL_RUN, pgCF, 0, 1), (PG_STS_RUNNING, pgCF, 0, 1), (CF_JLSTS_PHASE, pgCF, 0, phase)]) fun r => { r with phase := .ready })
    fun c => { c with loader := l }

theorem witness_PairsAndImages :
    (up.reaches .host (pgEE 511) EE_PAIR_ROLE.off ∧ up.chip.mayDetach 511 = false ∧ (paired up).reaches .host (pgEE 511) EE_PAIR_ROLE.off ∧
      (paired up).chip.mayDetach 511 = true ∧ (paired up).chip.inLap 511 = false ∧ (paired (inside {})).chip.mayDetach 511 = true ∧
      (paired (inside {})).chip.inLap 511 = true) ∧
    (up.chip.detached 511 = false ∧ (put up [(EE_PAIR_DETACHED, pgEE 511, 0, 1)]).chip.detached 511 = true ∧
      (up.chip.reloadState != 0 && up.chip.reloadEng == 511) = false ∧
      (put up [(SC_RLSTS_STATE, pgSC, 0, 1), (SC_RLSTS_ENG, pgSC, 0, 511)]).chip.reloadEng = 511 ∧
      (put going [(EE_PAIR_DETACHED, pgEE 504, 0, 1)]).chip.running (pgEG 63) = true ∧ going.chip.run (pgEE 504) = true ∧
      up.chip.running (pgEG 63) = false ∧ going.chip.run (pgEE 511) = false) ∧
    (up.reaches .host pgCF CF_JLCTL_GO.off ∧ (0x1 : BitVec 32).getLsbD 2 = false ∧ (loading 1 {}).chip.ldPhase ≠ 0 ∧
      up.chip.ldPhase = 0 ∧ (runs up pgCF).chip.run pgCF = true ∧ up.chip.cfState ≠ 1 ∧ up.chip.cfState ≠ 2 ∧ up.chip.flt.failed = false ∧
      regionOf 0 ≠ some .sp ∧ regionOf spBase = some .sp ∧ up.chip.stream.wait = .none) ∧
    ((loading 1 {}).chip.ldPhase = 1 ∧ (loading 2 {}).chip.ldPhase = 2 ∧ (loading 1 {}).chip.cfUp = true ∧ up.chip.cfUp = false ∧
      (loading 1 {}).chip.mayReport pgCF 0 ∧ (loading 2 {}).chip.mayReport pgCF 1) ∧
    ((loading 2 {}).chip.ldRead [] true = ([], false)) ∧ ((loading 2 { len := 256 }).chip.ldRead [] true).2 = true ∧
    ((loading 2 {}).chip.cfUp = true ∧ ((loading 2 {}).chip.ldRead [] false).2 = false ∧
      (Image.sects ((loading 2 {}).chip.ldRead [] false).1).map (fun x => (crc32 (Image.sect [] x)).toNat) = [0]) := by
  unfold State.reaches Chip.mayReport; decide +kernel
/-! ## Witnesses: the fabric, master ports, block RAMs, slices, sequencers -/

/-- A field of a configuration frame is set. -/
def conf (s : State) (F b w v : Nat) : State := upd s fun c => (List.range w).foldl (fun c i =>
  let k := 64 * F + (b + i) / 64
  if v.testBit i then { c with fab := { c.fab with cfg := Store.put 0 c.fab.cfg k (Store.get 0 c.fab.cfg k ||| (1 <<< ((b + i) % 64))) } }
  else c) c

/-- Sectors 0 and 7 are started, and GCLK0 reaches them. -/
def lit : State := put up [(FB_STATE_STARTED, pgFB 0, 0, 1), (FB_GCLKEN_EN, pgFB 0, 0, 1), (FB_STATE_STARTED, pgFB 7, 0, 1),
  (FB_GCLKEN_EN, pgFB 7, 0, 1)]

/-- The word of macrocell 15 of LB 16383. -/
def celled (w : Nat) : State := conf lit (tileFrame 16383 3) (14336 + 32 * 15 - 3 * 4096) 32 w

/-- Signal `e` of master port 3 of sector 7 is held at 1. -/
def tied (s : State) (e : Nat) : State := conf s (tileFrame (fmpSlot 7 3 e).1 3) (15808 + 6 * (fmpSlot 7 3 e).2 - 3 * 4096) 6 0x3D

/-- The master port is enabled, with a state of its own. -/
def ported (qs : List FmpReq) : State := upd (put lit [(PG_CTL_RUN, pgFB 7, 0, 1), (PG_STS_RUNNING, pgFB 7, 0, 1), (FB_FMPCTL_EN, pgFB 7, 3, 1)])
  fun c => { c with fab := { c.fab with now := { c.fab.now with port := [(31, qs)] } } }

/-- A write that wants its beat, and a read that has one to deliver. -/
def wanting : FmpReq := { tag := 0, wr := true, spec := false, addr := spBase, len := 1, kidx := 0 }
def giving : FmpReq := { tag := 0, wr := false, spec := false, addr := spBase, len := 1, kidx := 0, rsp := [(0, 2, 0, true)] }

/-- What a port holds before and at the edge. -/
def atEdge (s : State) : Chip := s.chip.edgeBegins false

theorem witness_FabricClocksAndMasterPorts_macrocells :
    lit.chip.stepsRun = true ∧ (frozen up).chip.stepsRun = false ∧
    ((((lit.chip.setPins []).edgeBegins false).settle).clkLevel (.gclk 0)).all (· == true) = true ∧
    ((((lit.chip.setPins []).edgeBegins false).settle).clkLevel (.tree 7 15)).all (· == true) = false ∧
    (bitsOf ((celled 0x20).chip.mcWord 16383 15) 16 14 = 0 ∧ 16383 ∈ (celled 0x20).chip.usedTiles ∧
      (celled 0x20).chip.regionLive (tileRegion 16383) = true ∧ (celled 0x20).chip.mcClocked 16383 15 (.gclk 0) true = true ∧
      ((celled 0x20).chip.mcWord 16383 15).testBit 13 = false ∧
      (celled 0x20).chip.fabVal (celled 0x20).chip.fab.pre fabDepth (.dval 16383 15) = some true) ∧
    (((celled 0x2020).chip.mcWord 16383 15).testBit 13 = true ∧
      (celled 0x2020).chip.term (celled 0x2020).chip.fab.pre 16383 (5 * 15 + 3) = some true ∧
      (conf (celled 0x2020) (tileFrame 16383 (128 * 78 / 4096)) (128 * 78 % 4096) 128 1).chip.term
        (celled 0x2020).chip.fab.pre 16383 (5 * 15 + 3) = some false) ∧
    16383 ∉ lit.chip.usedTiles ∧ lit.chip.mcClocked 16383 15 (.gclk 1) true = false := by decide +kernel

theorem witness_FabricClocksAndMasterPorts :
    ((put up [(FB_GCLKEN_EN, pgFB 7, 0, 0)]).chip.fmpClock 7 3 = false ∧ (ported []).chip.fmpClock 7 3 = true) ∧
    ((atEdge (ported [])).portSees 7 3 0 = some false ∧
      (atEdge (ported [])).fmpTap (atEdge (ported [])).fab.pre ((atEdge (ported [])).fabVal (atEdge (ported [])).fab.pre fabDepth) 7 3 0 ≠ none) ∧
    ((atEdge (tied (ported []) 0)).portSees 7 3 0 = some true ∧
      (atEdge (tied (ported []) 0)).fmpTap (atEdge (tied (ported []) 0)).fab.pre
        ((atEdge (tied (ported []) 0)).fabVal (atEdge (tied (ported []) 0)).fab.pre fabDepth) 7 3 0 = some true ∧
      (∀ e < 66, 1 ≤ e → (atEdge (tied (ported []) 0)).portSees 7 3 e = some ((0 : Nat).testBit e)) ∧
      (∀ e < 66, 1 ≤ e → (atEdge (tied (tied (ported []) 0) 1)).portSees 7 3 e = some ((2 : Nat).testBit e))) := by decide +kernel

theorem witness_FabricClocksAndMasterPorts_beats :
    ((atEdge (ported [])).fab.now.writing 7 3 = none ∧ (atEdge (ported [])).portSees 7 3 66 = some false) ∧
    ((atEdge (tied (ported [wanting]) 66)).fab.now.writing 7 3 = some wanting ∧ (atEdge (tied (ported [wanting]) 66)).portSees 7 3 66 = some true) ∧
    (∀ e < 512, (atEdge (tied (ported [wanting]) 66)).portSees 7 3 (67 + e) = some ((0 : Nat).testBit e)) ∧
    (∀ e < 64, (atEdge (tied (ported [wanting]) 66)).portSees 7 3 (579 + e) = some ((0 : Nat).testBit e)) ∧
    (ported []).chip.mayReport (pgFB 7) 0 := by unfold Chip.mayReport; decide +kernel

theorem witness_FabricClocksAndMasterPorts_answers :
    ((atEdge (ported [])).fab.now.beat 7 3 = none ∧ (atEdge (ported [])).portSees 7 3 643 = some false) ∧
    ((atEdge (tied (ported [giving]) 643)).fab.now.beat 7 3 = some (0, 0, 2, 0, true, false) ∧
      (atEdge (tied (ported [giving]) 643)).portSees 7 3 643 = some true) := by decide +kernel

theorem witness_FabricClocksAndMasterPorts_late :
    ((atEdge (ported [{ giving with rsp := [], late := [(0, 0)], given := 1 }])).fab.now.beat 7 3 = some (0, 0, 0, 0, false, true)) := by decide +kernel

/-- Input `i` of site 2047 is held at 1. -/
def siteTied (s : State) (i : Nat) : State := conf s (siteFrame 2047) (8 * i) 8 0x81

/-- Block RAM 2047 with a configuration word. -/
def rammed (w : Nat) : State := conf lit (siteFrame 2047) 3176 64 w

/-- The first line of block RAM 2047 is asked for, and waits for an edge of port B. -/
def atWindow (op : Op) (len : Nat) (bad : List Nat) : Arrived :=
  { ni := 59, tag := 3, dstNi := 51, bridge := 4, rvar := 0, vc := 0, done := true, bad := bad
    req := { asker := .host 0, op := op, addr := bramBase + 2047 * 0x2000, len := len, whole := len
             lines := List.replicate len { data := 5, mask := BitVec.allOnes 64 } } }
def windowed (s : State) (a : Arrived) : State :=
  upd (put s [(PG_CTL_RUN, pgBR 7, 0, 1), (PG_STS_RUNNING, pgBR 7, 0, 1)]) fun c => { c with net := { c.net with arrived := [a] } }

theorem witness_BlockRamsAndWindows :
    up.chip.regionLive (siteRegion 2047) = false ∧
    ((rammed 6).chip.regionLive (siteRegion 2047) = true ∧ (rammed 6).chip.stepsRun = true ∧ (rammed 6).chip.portSeq 2047 0 = false ∧
      (rammed 6).chip.siteBits 2047 3176 64 = 6 ∧ (rammed 6).chip.siteClock (2047 / 256) (bitsOf 6 17 13) = true ∧
      (rammed 6).chip.portSeq 2047 1 = false ∧ (rammed 6).chip.siteClock (2047 / 256) (bitsOf 6 22 18) = true) ∧
    ((atEdge (siteTied (rammed 6) 95)).siteIn (atEdge (siteTied (rammed 6) 95)).fab.pre 2047 95 = some true ∧
      (atEdge (rammed 6)).siteIn (atEdge (rammed 6)).fab.pre 2047 95 = some false ∧
      (atEdge (rammed 6)).siteIn (atEdge (rammed 6)).fab.pre 2047 96 = some false ∧
      (atEdge (siteTied (rammed 6) 96)).siteIn (atEdge (rammed 6)).fab.pre 2047 96 = some true ∧
      (atEdge (rammed 6)).presents 2047 0 15 0 ∧ (atEdge (rammed 6)).presents 2047 87 8 0 ∧ (atEdge (siteTied (rammed 6) 87)).presents 2047 87 8 1 ∧
      (atEdge (rammed 6)).presents 2047 15 72 0 ∧ (atEdge (rammed 6)).presents 2047 97 15 0 ∧ (atEdge (rammed 6)).presents 2047 184 8 0 ∧
      (atEdge (rammed 6)).presents 2047 112 72 0) := by unfold Chip.presents; decide +kernel

theorem witness_BlockRamsAndWindows_modes :
    ((6 : Nat).testBit 10 = false ∧ (0x406 : Nat).testBit 10 = true ∧ ramShape (bitsOf 6 2 0) = some (72, 512, 9) ∧ ramShape 7 = none ∧
      (atEdge (rammed 6)).fab.wrote = [] ∧ (atEdge (rammed 6)).ramEcc 2047 = false ∧ laneMask false 72 9 0 = 0 ∧
      laneMask false 72 9 0xFF = 2 ^ 72 - 1 ∧ laneMask false 72 9 1 ≠ 0 ∧ 2 ≤ bitsOf 0x86 7 6) := by decide +kernel

theorem witness_BlockRamsAndWindows_windows :
    (up.chip.net.arrived[0]? = none ∧ (windowed lit (atWindow .read 2 [])).chip.net.arrived[0]? = some (atWindow .read 2 []) ∧
      regionOf (atWindow .read 2 []).req.addr = some .bram ∧ (windowed lit (atWindow .read 2 [])).chip.get GL_FRZSTS_STATE pgGL = 0 ∧
      (windowed lit (atWindow .read 2 [])).chip.net.arrived.find? (fun x => x.dstNi == 51 && x.ni == 59 && x.tag == 3) = some (atWindow .read 2 []) ∧
      (atWindow .read 2 []).codes.length + 1 < (atWindow .read 2 []).req.len ∧ (atWindow .read 1 []).req.len ≤ (atWindow .read 1 []).codes.length + 1) ∧
    (lit.chip.windowOpen ((atWindow .read 2 []).ram.1 / 256) = false ∧
      (windowed lit (atWindow .read 2 [])).chip.windowOpen ((atWindow .read 2 []).ram.1 / 256) = true ∧
      ((windowed (put up [(FB_GCLKEN_EN, pgFB 7, 0, 0)]) (atWindow .read 2 [])).chip.edgeBegins false |>.windowEdge 2047).1 = none ∧
      ((windowed lit (atWindow .read 2 [])).chip.edgeBegins false |>.windowEdge 2047).1 = some false ∧
      ((windowed (put (siteTied lit 192) [(BR_WINCTL_PRIO, pgBR 7, 0, 1)]) (atWindow .read 2 [])).chip.edgeBegins false |>.windowEdge 2047).1 = some true) ∧
    ((atWindow .write 2 []).req.op ≠ .read ∧ 0 ∉ (atWindow .write 2 []).bad ∧ (atWindow .write 2 []).req.lines[0]?.isSome = true ∧
      0 ∈ (atWindow .write 2 [0]).bad ∧ lit.chip.ramEcc 2047 = false) := by decide +kernel

/-- Slice 2047 with a state. -/
def sliced (z : SliceSt) : State := upd (siteTied lit 283) fun c => c.setSlice 2047 z

/-- An operation in the pipeline. -/
def anOp : SliceOp := { acc := 2, out := true }

theorem witness_SlicesAdvance :
    (up.chip.regionLive (siteRegion 2047) && up.chip.stepsRun && up.chip.siteClock (2047 / 256) 0) = false ∧
    (lit.chip.siteBits 2047 3240 64 = 0 ∧ (atEdge lit).siteIn (atEdge lit).fab.pre 2047 283 = some false) ∧
    ((atEdge (sliced {})).siteIn (atEdge (sliced {})).fab.pre 2047 283 = some true ∧
      (atEdge (sliced {})).siteIn (atEdge (sliced {})).fab.pre 2047 284 = some false ∧ (atEdge (sliced {})).presents 2047 275 8 0 ∧
      (atEdge (sliced {})).presents 2047 194 27 0 ∧ (atEdge (sliced {})).presents 2047 221 27 0 ∧ (atEdge (sliced {})).presents 2047 248 27 0 ∧
      (atEdge (siteTied (sliced {}) 275)).presents 2047 275 8 1 ∧ (atEdge (siteTied (sliced {}) 277)).presents 2047 275 8 4) := by
  unfold Chip.presents; decide +kernel

theorem witness_SlicesAdvance_pipeline :
    (((atEdge (sliced {})).sliceSample 2047).1 = some {} ∧ (sliced {}).chip.regionLive (siteRegion 2047) = true ∧
      (sliced {}).chip.siteClock (2047 / 256) 0 = true) ∧
    (((atEdge (sliced { st1 := some anOp, st2 := some (anOp, 1), st3 := some anOp, acc := BitVec.ofInt 72 (2 ^ 71 - 1) })).sliceSample 2047).1 = some {} ∧
      ((atEdge (sliced { st2 := some (anOp, 1), acc := BitVec.ofInt 72 (2 ^ 71 - 1) })).fab.now.sliceOf 2047).st2 = some (anOp, 1) ∧
      (2 ^ 71 - 1 : Int) < (BitVec.ofInt 72 (2 ^ 71 - 1)).toInt + 1 ∧ (BitVec.ofInt 72 (-(2 ^ 71))).toInt + -1 < (-(2 ^ 71) : Int)) ∧
    ((conf lit (siteFrame 2047) 3240 64 0x20).chip.siteBits 2047 3240 64 = 0x20 ∧
      (conf lit (siteFrame 2047) 3240 64 0x20).chip.siteBits (leadOf 2047) 3240 5 = 0 ∧
      ((atEdge (conf lit (siteFrame 2047) 3240 64 0x20)).seqOf (clusterOf 2047)).issued = []) := by decide +kernel

/-- Sequencer 127 with a program RAM that holds this word at address 0. -/
def sequencing (st : Nat) (w : BitVec 64) (x : SeqSt) : State :=
  let s := conf (conf lit (siteFrame 2032) 3240 64 0x100000) (siteFrame 2047) 3176 64 0x30
  upd (put s [(PG_CTL_RUN, pgAS 7, 0, 1), (PG_STS_RUNNING, pgAS 7, 0, 1), (AS_SEQCTL_EN, pgAS 7, 15, 1), (AS_SEQSTS_STATE, pgAS 7, 15, st)]) fun c =>
    let c := c.setSeq 127 x
    { c with fab := { c.fab with now := { c.fab.now with ram := Store.put 0 c.fab.now.ram (512 * 2047) (w.setWidth 72) } } }

/-- Every condition under which the next instruction of sequencer 127 issues. -/
def issues (s : State) (k : Nat) : Bool :=
  let d := s.chip.seqBegins 127 false
  s.chip.seqLive 127 && s.chip.seqActive 127 && !(s.chip.seqOf 127).stall && (d.seqFetch 127).2 == 0 && d.seqIllegal 127 == 0 &&
    insClass (d.seqFetch 127).1 == k

theorem witness_SequencersIssue :
    lit.chip.seqLive 127 = false ∧
    (issues (sequencing 1 0 {}) 0 = true ∧ issues (sequencing 1 0x1000FFFF00000000 {}) 1 = true ∧ issues (sequencing 1 0x2000000000000000 {}) 2 = true ∧
      issues (sequencing 1 0x3000000000000000 {}) 3 = true ∧ issues (sequencing 1 0x4300000000000000 {}) 4 = true ∧
      issues (sequencing 2 0x5000000000000000 {}) 5 = true ∧ issues (sequencing 1 0x60008000_00000000 {}) 6 = true ∧
      issues (sequencing 1 0x7000000000000000 {}) 7 = true ∧ issues (sequencing 1 0x801F800000000000 {}) 8 = true) ∧
    (issues (sequencing 1 0 { wantStop := true }) 0 = true ∧ insLock 0 = false ∧ insLock 0x0800000000000000 = true ∧
      ((sequencing 1 0 { wantStop := true }).chip.seqOf 127).wantStop = true) ∧
    (((sequencing 1 0 {}).chip.seqBegins 127 false).siteIn ((sequencing 1 0 {}).chip.seqBegins 127 false).fab.pre (16 * 127) 275 = some false ∧
      ((conf (sequencing 1 0 {}) (siteFrame 2032) (8 * 275) 8 0x81).chip.seqBegins 127 false).siteIn
        ((sequencing 1 0 {}).chip.seqBegins 127 false).fab.pre (16 * 127) 275 = some true) ∧
    ((sequencing 1 0 { stall := true }).chip.seqLive 127 = true ∧ ((sequencing 1 0 { stall := true }).chip.seqOf 127).stall = true) ∧
    ((sequencing 1 0x9000000000000000 {}).chip.seqLive 127 = true ∧ (sequencing 1 0x9000000000000000 {}).chip.seqActive 127 = true ∧
      ((sequencing 1 0x9000000000000000 {}).chip.seqBegins 127 false).seqIllegal 127 = 1 ∧ (sequencing 1 0 {}).chip.mayReport (pgAS 7) 1) ∧
    ((sequencing 0 0 { armed := true }).chip.seqLive 127 = true ∧ ((sequencing 0 0 { armed := true }).chip.seqOf 127).armed = true ∧
      (sequencing 0 0 { armed := true }).chip.run (pgAS 7) = true ∧ (sequencing 0 0 { armed := true }).chip.running (pgAS 7) = true ∧
      (sequencing 0 0 { armed := true }).chip.get AS_SEQCTL_EN (pgAS 7) 15 = 1 ∧
      (sequencing 0 0 { armed := true }).chip.siteBits (16 * 127 + 15) 3179 3 = 6 ∧
      (conf (sequencing 0 0 { armed := true }) (siteFrame 2047) 3179 3 7).chip.siteBits (16 * 127 + 15) 3179 3 ≠ 6) := by
  unfold Chip.mayReport; decide +kernel

/-! ## The blocking stream and the pouncer -/

/-- A frame of type `t` for every device: its address bits and its data. -/
def frame (t a : Nat) (d : Nat := 0) (seq : Nat := 0) (daddr : Nat := 63) : List (BitVec 8) :=
  let b := natLe 8 (daddr + 256 * t + 65536 * a + 2 ^ 48 * seq) ++ natLe 512 d
  b ++ natLe 4 (crc32 b).toNat

/-- A frame stands at the front of the buffer of an open stream. -/
def framed (s : State) (f : List (BitVec 8)) : State := streaming s 1 fun x => { x with buf := f }

/-- The frame at the front is in order, for this device and of a good format. -/
def goodFrame (s : State) (f : List (BitVec 8)) : Bool :=
  let c := (framed s f).chip
  c.nextFrame == some f && (crc32 (f.take 520)).toNat == leAt f 520 4 && frameSeq f == c.get CF_SEQ_NEXT pgCF && c.frameMine f && c.frameFormat f

/-- And it takes effect at once. -/
def passing (s : State) (f : List (BitVec 8)) : Bool :=
  goodFrame s f && (framed s f).chip.frameRange f && (framed s f).chip.stream.pend.isNone && (framed s f).chip.get CF_AUTHCTL_REQ pgCF == 0

/-- A device that requires authentication, with key 3 enabled; one whose sector 7 has started; one whose sector 7 is off. -/
def guarded : State := put up [(CF_AUTHCTL_REQ, pgCF, 0, 1), (CF_AUTHCTL_KEYEN, pgCF, 0, 8)]
def started : State := put up [(FB_STATE_STARTED, pgFB 7, 0, 1), (FB_STATE_STARTED, pgFB 6, 0, 1), (FB_STATE_STARTED, pgFB 0, 0, 1)]
def unlit : State := phased (phased (phased up 71 .off) 70 .off) 64 .off

/-- A stream behind one frame that waits for its authentication. -/
def pending (s : State) (f : List (BitVec 8)) : State := streaming s 1 fun x => { x with buf := f, pend := some (frame 7 6) }

/-- An AUTH frame under key 3, and one with another code. -/
def signed (c : Nat) : List (BitVec 8) := frame 8 3 ((leNat (hmac (guarded.chip.flashBytes (0x1040 + 96) 32) []) + c) % 2 ^ 256)

set_option maxRecDepth 8000 in
theorem witness_FramesAreCheckedAndActedOn_checks :
    ((Instr.nop, isNop) ∈ frameCommands 0 ∧ (Instr.tile, isType 1) ∈ frameCommands 0) = True ∧
    ((framed up (frame 9 0)).chip.stream.wait = .none ∧ isType 1 (frame 9 0) = false) ∧
    ((framed up ((frame 9 0).set 523 0)).chip.nextFrame = some ((frame 9 0).set 523 0) ∧ isNop ((frame 9 0).set 523 0) = true ∧
      (crc32 (((frame 9 0).set 523 0).take 520)).toNat ≠ leAt ((frame 9 0).set 523 0) 520 4) ∧
    ((framed up (frame 9 0 0 65535)).chip.nextFrame = some (frame 9 0 0 65535) ∧ isNop (frame 9 0 0 65535) = true ∧
      (crc32 ((frame 9 0 0 65535).take 520)).toNat = leAt (frame 9 0 0 65535) 520 4 ∧
      frameSeq (frame 9 0 0 65535) ≠ (framed up (frame 9 0 0 65535)).chip.get CF_SEQ_NEXT pgCF) ∧
    ((framed up (frame 9 0 0 0 62)).chip.nextFrame = some (frame 9 0 0 0 62) ∧ (framed up (frame 9 0 0 0 62)).chip.inOrder (frame 9 0 0 0 62) ∧
      (framed up (frame 9 0 0 0 62)).chip.frameMine (frame 9 0 0 0 62) = false) ∧
    ((framed up (frame 15 0)).chip.nextFrame = some (frame 15 0) ∧ isNop (frame 15 0) = true ∧ (framed up (frame 15 0)).chip.inOrder (frame 15 0) ∧
      (framed up (frame 15 0)).chip.frameMine (frame 15 0) = true ∧ (framed up (frame 15 0)).chip.frameFormat (frame 15 0) = false) ∧
    ((pending up (frame 9 0)).chip.nextFrame = some (frame 9 0) ∧ (pending up (frame 9 0)).chip.inOrder (frame 9 0) ∧
      (pending up (frame 9 0)).chip.frameFormat (frame 9 0) = true ∧ (pending up (frame 9 0)).chip.stream.pend ≠ none) := by
  refine ⟨by simp [frameCommands], ?_⟩; unfold Chip.inOrder; decide +kernel

set_option maxRecDepth 8000 in
theorem witness_FramesAreCheckedAndActedOn_waiting :
    (goodFrame guarded (frame 6 0) = true ∧ goodFrame guarded (frame 7 6) = true ∧ goodFrame guarded (frame 9 0) = true ∧
      (framed guarded (frame 6 0)).chip.stream.pend = none ∧ (framed guarded (frame 6 0)).chip.get CF_AUTHCTL_REQ pgCF = 1 ∧
      frameType (frame 6 0) = 6 ∧ frameType (frame 7 6) = 7) ∧
    (goodFrame up (frame 3 0x7FFF) = true ∧ (framed up (frame 3 0x7FFF)).chip.frameRange (frame 3 0x7FFF) = false ∧
      goodFrame up (frame 4 20) = true ∧ (framed up (frame 4 20)).chip.frameRange (frame 4 20) = false ∧
      goodFrame up (frame 5 (2 ^ 32 - 1)) = true ∧ (framed up (frame 5 (2 ^ 32 - 1))).chip.frameRange (frame 5 (2 ^ 32 - 1)) = false) ∧
    (goodFrame guarded (signed 1) = true ∧ frameType (signed 1) = 8 ∧
      (framed guarded (signed 1)).chip.authOk (signed 1) (framed guarded (signed 1)).chip.stream.msg = false ∧
      goodFrame guarded (signed 0) = true ∧ (framed guarded (signed 0)).chip.authOk (signed 0) (framed guarded (signed 0)).chip.stream.msg = true ∧
      (pending guarded (signed 0)).chip.authOk (signed 0) (pending guarded (signed 0)).chip.stream.msg = true) := by decide +kernel

set_option maxRecDepth 8000 in
theorem witness_FramesAreCheckedAndActedOn_fabric :
    (passing started (frame 1 0xFFFF) = true ∧ (framed started (frame 1 0xFFFF)).chip.frameScope (frame 1 0xFFFF) = false ∧
      passing unlit (frame 1 0xFFFF) = true ∧ (framed unlit (frame 1 0xFFFF)).chip.frameScope (frame 1 0xFFFF) = true ∧
      frameSector (frame 1 0xFFFF) = 7 ∧ unlit.chip.domOn 71 = false ∧ up.chip.domOn 71 = true ∧
      passing up (frame 1 0xFFFF) = true ∧ (framed up (frame 1 0xFFFF)).chip.frameScope (frame 1 0xFFFF) = true) ∧
    (passing started (frame 2 0x7FF) = true ∧ (framed started (frame 2 0x7FF)).chip.frameScope (frame 2 0x7FF) = false ∧
      passing unlit (frame 2 0x7FF) = true ∧ (framed unlit (frame 2 0x7FF)).chip.frameScope (frame 2 0x7FF) = true ∧
      frameSector (frame 2 0x7FF) = 7 ∧ passing up (frame 2 0x7FF) = true ∧ (framed up (frame 2 0x7FF)).chip.frameScope (frame 2 0x7FF) = true) ∧
    (passing started (frame 3 0x47FF) = true ∧ (framed started (frame 3 0x47FF)).chip.frameScope (frame 3 0x47FF) = false ∧
      passing unlit (frame 3 0x47FF) = true ∧ (framed unlit (frame 3 0x47FF)).chip.frameScope (frame 3 0x47FF) = true ∧
      frameSector (frame 3 0x47FF) = 7 ∧ passing up (frame 3 0x47FF) = true ∧ (framed up (frame 3 0x47FF)).chip.frameScope (frame 3 0x47FF) = true) ∧
    (passing (put up ((List.range 8).map fun s => (FB_STATE_STARTED, pgFB s, 0, 1))) (frame 4 19) = true ∧
      (framed (put up ((List.range 8).map fun s => (FB_STATE_STARTED, pgFB s, 0, 1))) (frame 4 19)).chip.frameScope (frame 4 19) = false ∧
      passing up (frame 4 19) = true ∧ (framed up (frame 4 19)).chip.frameScope (frame 4 19) = true ∧
      up.chip.domOn (64 + frameSector (frame 4 19)) = true ∧ (phased up (64 + frameSector (frame 4 19)) .off).chip.domOn (64 + frameSector (frame 4 19)) = false ∧
      passing (phased up (64 + frameSector (frame 4 19)) .off) (frame 4 19) = true) := by decide +kernel

set_option maxRecDepth 8000 in
theorem witness_FramesAreCheckedAndActedOn_others :
    (passing up (frame 5 0) = true ∧ frameType (frame 5 0) = 5 ∧ passing up (frame 6 63) = true ∧ frameType (frame 6 63) = 6 ∧
      passing up (frame 9 (2 ^ 32 - 1)) = true ∧ frameType (frame 9 0) = 9) ∧
    (passing up (frame 7 1) = true ∧ frameType (frame 7 1) = 7 ∧ frameAddr (frame 7 1) = 1) ∧
    (passing up (frame 7 2 (2 ^ 127 + 2 ^ 191)) = true ∧
      (List.range 8).filter (fun n => bitsOf (frameBits (frame 7 2 (2 ^ 127 + 2 ^ 191)) 127 0) (16 * n + 15) (16 * n) != 0) = [7] ∧
      passing unlit (frame 7 2 (2 ^ 127 + 2 ^ 191)) = true ∧ unlit.chip.domOn 71 = false ∧ up.chip.get FB_STATE_STARTED (pgFB 7) ≠ 1 ∧
      passing started (frame 7 2 (2 ^ 127 + 2 ^ 191)) = true ∧ started.chip.domOn 71 = true ∧ started.chip.get FB_STATE_STARTED (pgFB 7) = 1 ∧
      (frameBits (frame 7 2 (2 ^ 127 + 2 ^ 191)) 191 128).testBit 63 = true ∧ (List.range 64).all (fun g => started.chip.run (pgEG g) == false) = true ∧
      (ends started (pgEG 63)).chip.running (pgEG 63) = true ∧ passing (ends started (pgEG 63)) (frame 7 2 (2 ^ 127 + 2 ^ 191)) = true ∧
      (List.range 64).all (fun g => started.chip.running (pgEG g) == false) = true) ∧
    (passing up (frame 7 3 (2 ^ 104 - 2 ^ 64 + 2 ^ 44 - 8)) = true ∧ (framed up []).chip.get CF_STS_PARTIAL pgCF ≠ 1 ∧
      (framed (put up [(CF_JLSTS_PHASE, pgCF, 0, 1)]) []).chip.get CF_JLSTS_PHASE pgCF ≠ 0 ∧ (framed up []).chip.get CF_JLSTS_PHASE pgCF = 0) ∧
    (passing up (frame 7 4 0xFF) = true ∧ (List.range 8).all (fun n => (framed up (frame 7 4 0xFF)).chip.domOn (64 + n)) = true ∧
      passing unlit (frame 7 4 0x80) = true ∧ (frameBits (frame 7 4 0x80) 7 0).testBit 7 = true) ∧
    (passing up (frame 7 5 (2 ^ 79)) = true ∧ (frameBits (frame 7 5 (2 ^ 79)) 79 0).testBit 79 = true ∧ up.chip.domOn 79 = true ∧
      (phased up 79 .off).chip.domOn 79 = false ∧ passing (phased up 79 .off) (frame 7 5 (2 ^ 79)) = true) ∧
    passing up (frame 7 6 (2 ^ 24 - 1)) = true := by decide +kernel

/-- The stream starts, with a sector due. -/
def due : State := streaming (put up [(FB_GCLKEN_EN, pgFB 7, 0, 1)]) 2 fun x => { x with toStart := [7] }

/-- The port is the source of an open stream with a buffer of `n` bytes. -/
def reading (s : State) (v n : Nat) : State :=
  streaming (put s [(CF_CTL_SRC, pgCF, 0, 1)]) v fun x => { x with buf := List.replicate n 0 }

/-- A stream that waits. -/
def waiting (s : State) (w : StreamWait) : State := streaming s 1 fun x => { x with wait := w, groups := 2 ^ 63, regions := 2 ^ 127 }

/-- The source range is a range of the block-RAM windows. -/
def sourced (s : State) : State := put s [(CF_SRCADDRH_ADDR, pgCF, 0, bramBase / 2 ^ 32), (CF_SRCADDRL_ADDR, pgCF, 0, bramBase % 2 ^ 32 / 8)]

/-- A marker at the front opens a stream. -/
def marked (c : Chip) : Bool :=
  c.cfUp && (c.cfState == 0 || c.cfState == 3 || c.cfState == 4 || (c.cfState == 1 && c.stream.wait == .none)) && !c.flt.failed &&
    c.stream.buf.take 4 == syncMarker

set_option maxRecDepth 8000 in
theorem witness_StreamEventsAndStart :
    (up.chip.get CF_CTL_SRC pgCF ≠ 1 ∧ up.chip.rst.phase ≠ .mainup ∧ up.chip.rst.phase ≠ .ready) ∧
    ((reading up 1 0).chip.get CF_CTL_SRC pgCF = 1 ∧ (reading up 1 0).chip.rst.phase = .ready ∧
      ((reading up 1 0).chip.cfState == 1) = true ∧ (reading (frozen up) 1 0).chip.stepsRun = false ∧ (reading up 1 0).chip.stepsRun = true ∧
      2048 ≤ (reading up 5 2048).chip.stream.buf.length ∧ (reading up 2 2047).chip.stream.buf.length < 2048 ∧
      ((reading up 0 0).chip.cfState == 1 || (reading up 0 0).chip.cfState == 2 || (reading up 0 0).chip.cfState == 5) = false ∧
      (reading up 0 0).chip.stream.buf.take 4 ≠ syncMarker ∧ (streaming up 0 fun x => { x with buf := syncMarker }).chip.stream.buf.take 4 = syncMarker) ∧
    ((up.chip.cfUp && up.chip.stream.buf.take 4 == syncMarker) = false ∧
      marked (streaming up 1 fun x => { x with buf := syncMarker }).chip = true) ∧
    ((reading up 2 0).chip.cfUp && (reading up 2 0).chip.get CF_CTL_SRC pgCF == 1 && ((reading up 2 0).chip.cfState == 1 || (reading up 2 0).chip.cfState == 2)) = true ∧
    ((up.chip.cfUp && up.chip.get CF_CTL_SRC pgCF == 1) = false ∧ up.chip.cfUp = false ∧ up.chip.stream.wait ≠ .partialStop) ∧
    ((waiting up (.delay 1)).chip.stream.wait = .delay 1 ∧ (waiting up (.delay 1)).chip.cfUp = true) ∧
    ((waiting up (.waiton (2 ^ 79))).chip.stream.wait = .waiton (2 ^ 79) ∧ (waiting up (.waiton (2 ^ 79))).chip.cfUp = true ∧
      (2 ^ 79).testBit 79 = true ∧ (∀ d < 80, (waiting up (.waiton (2 ^ 79))).chip.domOn d = true) ∧
      (waiting (phased up 79 .off) (.waiton (2 ^ 79))).chip.domOn 79 = false ∧ (waiting (phased up 79 .off) (.waiton (2 ^ 79))).chip.cfUp = true) ∧
    ((waiting up .partialStop).chip.stream.wait = .partialStop ∧ (waiting up .partialStop).chip.cfUp = true ∧
      (∀ g < 64, (waiting up .partialStop).chip.running (pgEG g) = false) ∧ (waiting up .partialStop).chip.stream.regions.testBit 127 = true ∧
      (waiting up .partialStop).chip.stream.groups.testBit 63 = true ∧ (waiting (ends up (pgEG 63)) .partialStop).chip.running (pgEG 63) = true) := by decide +kernel

theorem witness_StreamEventsAndStart_starts :
    (up.chip.cfState ≠ 2 ∧ due.chip.cfState = 2 ∧ due.chip.stepsRun = true ∧ 7 ∈ due.chip.stream.toStart ∧ due.chip.domOn 71 = true ∧
      (due.chip.get FB_GCLKEN_EN (pgFB 7)).testBit 0 = true ∧ due.chip.get CF_STS_PARTIAL pgCF ≠ 1 ∧
      (put due [(CF_STS_PARTIAL, pgCF, 0, 1)]).chip.get CF_STS_PARTIAL pgCF = 1 ∧ 6 ∉ due.chip.stream.toStart ∧ due.chip.stream.toStart ≠ [] ∧
      (streaming due 2 fun x => { x with toStart := [7], regions := 2 ^ 127 }).chip.stream.regions.testBit (16 * 7 + 15) = true) ∧
    (up.reaches .host pgCF CF_CTL_ABORT.off ∧ up.chip.stream.wait = .none ∧ (streaming up 5 id).reaches .host pgCF CF_CTL_ABORT.off ∧
      (streaming up 5 id).chip.cfState = 5 ∧ up.chip.cfState ≠ 1 ∧ up.chip.cfState ≠ 5) ∧
    (up.reaches .host pgCF CF_SRCCTL_GO.off ∧ (reading up 1 0).chip.get CF_CTL_SRC pgCF ≠ 0 ∧ (put up [(PG_CTL_RUN, pgCF, 0, 0)]).chip.accepts pgCF = false ∧
      (streaming up 2 fun x => { x with srcLeft := 1 }).chip.cfState = 2 ∧ up.chip.get CF_CTL_SRC pgCF = 0 ∧
      (streaming up 0 id).chip.accepts pgCF = true ∧ (streaming up 0 id).chip.cfState ≠ 1 ∧ (streaming up 0 id).chip.cfState ≠ 2 ∧
      (streaming up 0 id).reaches .host pgCF CF_SRCCTL_GO.off ∧ (streaming up 1 id).chip.stream.srcBusy = false ∧
      (streaming up 1 id).chip.stream.srcLeft = 0 ∧ (streaming up 0 id).chip.bufferCheck2 60 0 0 (2 ^ 44 - 8) 1 false ≠ 0 ∧
      (put (streaming up 0 id) [(CF_SRCADDRH_ADDR, pgCF, 0, 2 ^ 12 - 1), (CF_SRCADDRL_ADDR, pgCF, 0, 2 ^ 29 - 1)]).chip.get CF_SRCADDRH_ADDR pgCF * 2 ^ 32 +
        (put (streaming up 0 id) [(CF_SRCADDRH_ADDR, pgCF, 0, 2 ^ 12 - 1), (CF_SRCADDRL_ADDR, pgCF, 0, 2 ^ 29 - 1)]).chip.get CF_SRCADDRL_ADDR pgCF * 8 = 2 ^ 44 - 8) ∧
    ((sourced (streaming up 5 id)).chip.get CF_SRCADDRH_ADDR pgCF * 2 ^ 32 + (sourced (streaming up 5 id)).chip.get CF_SRCADDRL_ADDR pgCF * 8 = bramBase ∧
      (sourced (streaming up 5 id)).chip.get CF_SRCLEN_LEN pgCF + 1 = 1 ∧ (sourced (streaming up 5 id)).chip.bufferCheck2 60 0 0 bramBase 1 false = 0 ∧
      (sourced (streaming up 5 id)).reaches .host pgCF CF_SRCCTL_GO.off ∧ (sourced (streaming up 5 id)).chip.accepts pgCF = true ∧
      (sourced (streaming up 5 id)).chip.running pgCF = true ∧ (sourced (streaming up 5 id)).chip.stream.srcBusy = false ∧
      (sourced (streaming up 5 id)).chip.stream.buf.length + 64 ≤ 2048) := by unfold State.reaches; decide +kernel

/-! ## The pouncer -/

/-- The scrubber runs, and its state is another. -/
def scrubbing (s : State) (f : ScrubSt → ScrubSt) : State :=
  upd (put s [(PG_CTL_RUN, pgSC, 0, 1), (PG_STS_RUNNING, pgSC, 0, 1)]) fun c => { c with scrub := f c.scrub }

/-- Engine 511 is scanned, with signatures in memory. -/
def scanning (s : State) (f : ScrubSt → ScrubSt) : State :=
  put (scrubbing s f) [(SC_CTL_SIGSRC, pgSC, 0, 1), (SC_POS_EVALID, pgSC, 0, 1), (SC_POS_ENG, pgSC, 0, 511)]

/-- Engines 1 and 511 may be scanned. -/
def scannable (s : State) : State :=
  put s [(EG_LDSTS_STATE, pgEG 0, 0, 1), (EG_LDSTS_STATE, pgEG 63, 0, 1), (SC_SCHEN_EN, pgSC, 0, 2), (SC_SCHEN_EN, pgSC, 15, 2 ^ 31)]

/-- A reload of engine 511 stands in a state. -/
def reloading (s : State) (v : Nat) (f : ScrubSt → ScrubSt) : State :=
  put (scrubbing s f) [(SC_RLSTS_STATE, pgSC, 0, v), (SC_RLSTS_ENG, pgSC, 0, 511)]

/-- Sector 0 has started, and its first configuration word is another. -/
def scanned (w : BitVec 72) : State :=
  upd (scrubbing (put up [(FB_STATE_STARTED, pgFB 0, 0, 1)]) id) fun c => { c with fab := { c.fab with cfg := Store.put 0 c.fab.cfg 63 w } }

/-- The last schedule word of region 255 of engine 511 is uncorrectable. -/
def spoiled : State := upd up fun c => { c with eng := { c.eng with sched := [(511 * 131072 + 131071, 3)] } }

/-- A word of the signature table of engine 511 is uncorrectable. -/
def unsigned : State := upd up fun c => { c with ev := { c.ev with flash := [(0x10000 + 512 * 511 + 287, 3)] } }

/-- Engine `j` is enabled, and the pouncer holds it. -/
def eligible (s : State) (j : Nat) : Bool := (s.chip.get SC_SCHEN_EN pgSC (j / 32)).testBit (j % 32) && s.chip.scanHolds j

set_option maxRecDepth 8000 in
theorem witness_ScrubbingActs_frames :
    (up.chip.scrubUp = false ∧ (scrubbing up fun x => { x with prio := [511] }).chip.scrub.prio = [511] ∧
      (put (scrubbing up id) [(PG_CTL_RUN, pgSC, 0, 0)]).chip.accepts pgSC = false ∧
      (put (scrubbing up id) [(SC_CTL_FABEN, pgSC, 0, 0)]).chip.get SC_CTL_FABEN pgSC ≠ 1) ∧
    ((scanned 0).chip.scrubUp = true ∧ (scanned 0).chip.accepts pgSC = true ∧ (scanned 0).chip.get SC_CTL_FABEN pgSC = 1 ∧
      ((scanned 0).chip.frameFrom ((scanned 0).chip.get SC_POS_FRAME pgSC)).or ((scanned 0).chip.frameFrom 0) = some 0 ∧
      (scanned 0).chip.frameFrom (0 + 1) = some 1) ∧
    ((eccDecode (Store.get 0 (scanned 0).chip.fab.cfg (64 * 0 + 0))) = .good 0 ∧ (eccDecode (Store.get 0 (scanned 0).chip.fab.cfg (64 * 0 + 63))) = .good 0 ∧
      (eccDecode (Store.get 0 (scanned 1).chip.fab.cfg (64 * 0 + 63))).isFixed = true ∧ (scanned 1).chip.mayReport pgSC 0) ∧
    ((eccDecode (Store.get 0 (scanned 3).chip.fab.cfg (64 * 0 + 63))).isBad = true ∧ (scanned 3).chip.mayReport pgSC 1) := by
  unfold Chip.mayReport; decide +kernel

set_option maxRecDepth 8000 in
theorem witness_ScrubbingActs_scans :
    (up.chip.mayScan = false ∧ (reloading up 4 id).chip.reloadState ≠ 0 ∧ (reloading up 4 id).chip.scrub.redo = false ∧
      (scrubbing up fun x => { x with prio := [511] }).chip.reloadState = 0 ∧ (scrubbing up fun x => { x with prio := [511] }).chip.scrub.prio ≠ [] ∧
      (scrubbing up id).chip.reloadState = 0 ∧ (List.range 512).all (fun j => !eligible (scrubbing up id) j) = true) ∧
    ((scrubbing up id).chip.mayScan = true ∧ (reloading up 4 fun x => { x with redo := true }).chip.mayScan = true ∧
      (reloading up 4 fun x => { x with redo := true }).chip.scrub.redo = true ∧ (reloading up 4 fun x => { x with redo := true }).chip.reloadEng = 511) ∧
    ((scrubbing (scannable up) fun x => { x with engine := 2 }).chip.mayScan = true ∧ eligible (scrubbing (scannable up) fun x => { x with engine := 2 }) 511 = true ∧
      (List.range 511).all (fun j => decide (j < 2) || !eligible (scrubbing (scannable up) fun x => { x with engine := 2 }) j) = true ∧
      (put (scrubbing up id) [(SC_CTL_SIGSRC, pgSC, 0, 1)]).chip.get SC_CTL_SIGSRC pgSC = 1 ∧ up.chip.get SC_CTL_SIGSRC pgSC ≠ 1) ∧
    ((scrubbing (scannable up) fun x => { x with engine := 512 }).chip.mayScan = true ∧
      eligible (scrubbing (scannable up) fun x => { x with engine := 512 }) 1 = true ∧
      (List.range 512).all (fun j => !(decide (j < 1) || decide (512 ≤ j)) || !eligible (scrubbing (scannable up) fun x => { x with engine := 512 }) j) = true) ∧
    (up.chip.scrub.prio = [] ∧ (scrubbing (scannable up) fun x => { x with prio := [511] }).chip.scrub.prio = [511] ∧
      (scrubbing (scannable up) fun x => { x with prio := [511] }).chip.mayScan = true ∧
      (scrubbing (scannable up) fun x => { x with prio := [511] }).chip.reloadState = 0 ∧
      ((scrubbing (scannable up) fun x => { x with prio := [511] }).chip.detached 511 && eligible (scrubbing (scannable up) fun x => { x with prio := [511] }) 511) = false ∧
      ((put (scrubbing (scannable up) fun x => { x with prio := [511] }) [(EE_PAIR_DETACHED, pgEE 511, 0, 1)]).chip.detached 511 &&
        eligible (put (scrubbing (scannable up) fun x => { x with prio := [511] }) [(EE_PAIR_DETACHED, pgEE 511, 0, 1)]) 511) = true) := by decide +kernel

/-- 36 lines of any content. -/
def someSigs : List (Nat × BitVec 512) := (List.range 36).map fun k => (k, 0)

set_option maxRecDepth 8000 in
theorem witness_ScrubbingActs_results :
    (up.chip.get SC_POS_EVALID pgSC ≠ 1 ∧ (scanning up fun x => { x with sigs := someSigs.drop 1 }).chip.scrub.sigs.length < 36) ∧
    ((put (scanning unsigned id) [(SC_CTL_SIGSRC, pgSC, 0, 0)]).chip.scrubUp = true ∧
      (put (scanning unsigned id) [(SC_CTL_SIGSRC, pgSC, 0, 0)]).chip.get SC_POS_EVALID pgSC = 1 ∧
      (put (scanning unsigned id) [(SC_CTL_SIGSRC, pgSC, 0, 0)]).chip.get SC_CTL_SIGSRC pgSC ≠ 1 ∧
      (eccDecode ((put (scanning unsigned id) [(SC_CTL_SIGSRC, pgSC, 0, 0)]).chip.flashWord (0x10000 + 512 * 511 + 287))).isBad = true ∧
      (put (scanning unsigned id) [(SC_CTL_SIGSRC, pgSC, 0, 0)]).chip.mayReport pgSC 7) := by
  unfold Chip.mayReport; decide +kernel

set_option maxRecDepth 8000 in
theorem witness_ScrubbingActs_regions :
    ((scanning spoiled fun x => { x with sigs := someSigs }).chip.scrubUp = true ∧
      (scanning spoiled fun x => { x with sigs := someSigs }).chip.get SC_POS_EVALID pgSC = 1 ∧
      (scanning spoiled fun x => { x with sigs := someSigs }).chip.get SC_POS_ENG pgSC = 511 ∧
      36 ≤ (scanning spoiled fun x => { x with sigs := someSigs }).chip.scrub.sigs.length ∧
      (scanning spoiled fun x => { x with sigs := someSigs }).chip.scrub.redo = false ∧
      (scanning spoiled fun x => { x with sigs := someSigs }).chip.mayDetach 511 = false ∧
      (scanning spoiled fun x => { x with sigs := someSigs }).chip.mayReport pgSC 3 ∧
      2 ≤ (put up [(SC_CTL_UNPOL, pgSC, 0, 2)]).chip.get SC_CTL_UNPOL pgSC ∧ (put up [(SC_CTL_UNPOL, pgSC, 0, 1)]).chip.get SC_CTL_UNPOL pgSC = 1) ∧
    (up.chip.reloadState ≠ 3 ∧ (reloading up 3 id).chip.scrubUp = true ∧ (reloading up 3 id).chip.reloadState = 3 ∧ (reloading up 3 id).chip.reloadEng = 511 ∧
      (reloading up 3 id).chip.scrub.wrote = [] ∧ (reloading up 3 id).chip.mayReport pgSC 4 ∧ (reloading up 3 id).chip.detached 511 = false ∧
      (put (reloading up 3 id) [(EE_PAIR_DETACHED, pgEE 511, 0, 1), (PG_STS_RUNNING, pgEG 63, 0, 1), (PG_CTL_RUN, pgEE 511, 0, 1)]).chip.detached 511 = true ∧
      (put (reloading up 3 id) [(EE_PAIR_DETACHED, pgEE 511, 0, 1), (PG_STS_RUNNING, pgEG 63, 0, 1), (PG_CTL_RUN, pgEE 511, 0, 1)]).chip.running (pgEG 63) = true ∧
      (put (reloading up 3 id) [(EE_PAIR_DETACHED, pgEE 511, 0, 1), (PG_STS_RUNNING, pgEG 63, 0, 1), (PG_CTL_RUN, pgEE 511, 0, 1)]).chip.run (pgEE 511) = true) ∧
    ((reloading spoiled 3 fun x => { x with wrote := [255] }).chip.scrub.wrote = [255] ∧ (reloading spoiled 3 fun x => { x with wrote := [255] }).chip.mayReport pgSC 6 ∧
      up.chip.mayReport pgSC 9 ∧ up.chip.mayReport pgSC 8 ∧ (frozen up).chip.stepsRun = false ∧ up.chip.stepsRun = true) := by
  unfold Chip.mayReport; decide +kernel

/-- Words read one after another, and whether one of them is bad. -/
theorem words_read {α : Type} (g : α → List (BitVec 8)) (h : α → Bool) (l : List α) (a : List (BitVec 8) × Bool) :
    l.foldl (fun a i => (a.1 ++ g i, a.2 || h i)) a = (a.1 ++ l.flatMap g, a.2 || l.any h) := by
  induction l generalizing a <;> simp [*, Bool.or_assoc]

/-- Words decoded one after another. -/
theorem words_decoded {α : Type} (w : α → Ecc) (l : List α) :
    l.foldl (fun a i => let d := w i; (a.1 ++ natLe 8 d.data.toNat, a.2 || d.isBad)) ([], false) =
      (l.flatMap fun i => natLe 8 (w i).data.toNat, l.any fun i => (w i).isBad) := by
  have h := words_read (fun i => natLe 8 (w i).data.toNat) (fun i => (w i).isBad) l ([], false)
  simpa using h

/-- The regions of schedule words. -/
theorem regionBytes_sched (c : Chip) (e r : Nat) (hr : r < 256) :
    c.regionBytes e r = ((List.range 512).flatMap fun i => natLe 8 (eccDecode (c.schedWord e (r / 2) (512 * (r % 2) + i))).data.toNat,
      (List.range 512).any fun i => (eccDecode (c.schedWord e (r / 2) (512 * (r % 2) + i))).isBad) :=
  (if_pos hr).trans (words_decoded (fun i => eccDecode (c.schedWord e (r / 2) (512 * (r % 2) + i))) (List.range 512))

/-- A region with an uncorrectable word is no match. -/
theorem mismatched_spoiled (c : Chip) (h : c.schedWord 511 (255 / 2) (512 * (255 % 2) + 511) = 3) : c.mismatched 511 255 = true := by
  have hb : (c.regionBytes 511 255).2 = true := by
    rw [regionBytes_sched c 511 255 (by decide)]
    dsimp only
    have h3 : (eccDecode (c.schedWord 511 (255 / 2) (512 * (255 % 2) + 511))).isBad = true := by rw [h]; decide +kernel
    exact List.any_eq_true.2 ⟨511, List.mem_range.2 (by decide), h3⟩
  rw [Chip.mismatched]
  generalize c.regionBytes 511 255 = x at hb
  simp [hb]

theorem witness_ScrubbingActs_spoiled :
    (scanning spoiled fun x => { x with sigs := someSigs }).chip.mismatched 511 255 = true ∧
      (reloading spoiled 3 fun x => { x with wrote := [255] }).chip.mismatched 511 255 = true :=
  ⟨mismatched_spoiled _ rfl, mismatched_spoiled _ rfl⟩

theorem witness_ScrubbingActs_flash : ∀ i < 288,
    (eccDecode ((put (scanning up id) [(SC_CTL_SIGSRC, pgSC, 0, 0)]).chip.flashWord (0x10000 + 512 * 511 + i))).isBad = false := by
  intro i _
  have h : (put (scanning up id) [(SC_CTL_SIGSRC, pgSC, 0, 0)]).chip.flashWord (0x10000 + 512 * 511 + i) = flashErased := rfl
  rw [h]; decide +kernel

/-! Every region of engine 511 matches its signature. -/

/-- The number whose bits 64 j are 1. -/
def sigRep : Nat := 726838724295606890588725814084399013568056387823382584169080752246511603091378769339537499843825263836454776755850775885168074347773953
/-- A line of one signature. -/
def sigLine (b : List (BitVec 8)) : BitVec 512 := BitVec.ofNat 512 ((crc64 b).toNat * sigRep)

set_option exponentiation.threshold 600 in
theorem sigLine_lane (b : List (BitVec 8)) (j : Nat) (hj : j < 8) :
    bitsOf (sigLine b).toNat (64 * j + 63) (64 * j) = (crc64 b).toNat := by
  have h : (crc64 b).toNat < 18446744073709551616 := (crc64 b).isLt
  rw [sigLine]
  generalize (crc64 b).toNat = n at h
  have hn : n * sigRep < 2 ^ 512 := Nat.lt_of_le_of_lt (Nat.mul_le_mul_right _ (Nat.le_of_lt_succ h)) (by decide +kernel)
  rw [BitVec.toNat_ofNat, Nat.mod_eq_of_lt hn, bitsOf, Nat.shiftRight_eq_div_pow, show 64 * j + 63 + 1 - 64 * j = 64 by omega]
  have e (p lo hi : Nat) (hp : 0 < p) (hr : sigRep = lo + p * (1 + 18446744073709551616 * hi)) (hl : 18446744073709551615 * lo < p) :
      n * sigRep / p % 18446744073709551616 = n := by
    have h1 : n * lo < p := Nat.lt_of_le_of_lt (Nat.mul_le_mul_right lo (Nat.le_of_lt_succ h)) hl
    have h2 : n * sigRep = n * lo + p * (n + 18446744073709551616 * (n * hi)) := by rw [hr]; ring
    rw [h2, Nat.add_mul_div_left _ _ hp, Nat.div_eq_of_lt h1, Nat.zero_add, Nat.add_mul_mod_self_left, Nat.mod_eq_of_lt h]
  match j, hj with
  | 0, _ => exact e (2 ^ 0) (sigRep % 2 ^ 0) (sigRep / 2 ^ 64) (by decide +kernel) (by decide +kernel) (by decide +kernel)
  | 1, _ => exact e (2 ^ 64) (sigRep % 2 ^ 64) (sigRep / 2 ^ 128) (by decide +kernel) (by decide +kernel) (by decide +kernel)
  | 2, _ => exact e (2 ^ 128) (sigRep % 2 ^ 128) (sigRep / 2 ^ 192) (by decide +kernel) (by decide +kernel) (by decide +kernel)
  | 3, _ => exact e (2 ^ 192) (sigRep % 2 ^ 192) (sigRep / 2 ^ 256) (by decide +kernel) (by decide +kernel) (by decide +kernel)
  | 4, _ => exact e (2 ^ 256) (sigRep % 2 ^ 256) (sigRep / 2 ^ 320) (by decide +kernel) (by decide +kernel) (by decide +kernel)
  | 5, _ => exact e (2 ^ 320) (sigRep % 2 ^ 320) (sigRep / 2 ^ 384) (by decide +kernel) (by decide +kernel) (by decide +kernel)
  | 6, _ => exact e (2 ^ 384) (sigRep % 2 ^ 384) (sigRep / 2 ^ 448) (by decide +kernel) (by decide +kernel) (by decide +kernel)
  | 7, _ => exact e (2 ^ 448) (sigRep % 2 ^ 448) (sigRep / 2 ^ 512) (by decide +kernel) (by decide +kernel) (by decide +kernel)

/-- Of an engine in which nothing has been stored, all regions of a line of the signature table are the same. -/
theorem regionBytes_idle (c : Chip) (hs : c.eng.sched = []) (hc : c.eng.ctl = []) (hm : c.eng.cmap = []) (e r : Nat) :
    c.regionBytes e r = ((c.regionBytes 0 (8 * (r / 8))).1, false) := by
  have h0 : (eccDecode schedIdle).isBad = false := by decide +kernel
  by_cases h1 : r < 256
  · rw [regionBytes_sched c e r h1, regionBytes_sched c 0 _ (by omega)]
    simp only [Chip.schedWord, hs, Store.get, h0]
    simp
  · have h1' : ¬8 * (r / 8) < 256 := by omega
    by_cases h2 : r < 272
    · have h2' : 8 * (r / 8) < 272 := by omega
      simp only [Chip.regionBytes, h1, h1', h2, h2', if_true, if_false, Chip.ctlRec, hc, Store.get]
    · have h2' : ¬8 * (r / 8) < 272 := by omega
      simp only [Chip.regionBytes, h1, h1', h2, h2', if_false, Chip.mapEntry, hm, Store.get]

/-- Engine 511 is scanned with the signatures of its regions. -/
def matching : State := scanning up fun x => { x with sigs := (List.range 36).map fun k => (k, sigLine (up.chip.regionBytes 0 (8 * k)).1) }

theorem lookup_map_range (f : Nat → BitVec 512) (n k : Nat) (h : k < n) : ((List.range n).map fun k => (k, f k)).lookup k = some (f k) := by
  induction n with
  | zero => omega
  | succ n ih =>
    rw [List.range_succ, List.map_append, List.lookup_append]
    rcases Nat.lt_or_ge k n with h1 | h1
    · rw [ih h1]; rfl
    · obtain rfl : k = n := by omega
      rw [List.lookup_eq_none_iff.2 (by simp; omega)]; simp

theorem witness_ScrubbingActs_matching : (∀ r < 288, matching.chip.mismatched 511 r = false) ∧ matching.chip.scrubUp = true ∧
    matching.chip.get SC_POS_EVALID pgSC = 1 ∧ matching.chip.get SC_POS_ENG pgSC = 511 ∧ matching.chip.get SC_CTL_SIGSRC pgSC = 1 ∧
    36 ≤ matching.chip.scrub.sigs.length ∧ matching.chip.scrub.redo = false ∧ matching.chip.scrub.prioScan = false := by
  refine ⟨fun r hr => ?_, by decide +kernel⟩
  have hb : matching.chip.regionBytes 511 r = ((up.chip.regionBytes 0 (8 * (r / 8))).1, false) := by
    rw [regionBytes_idle matching.chip rfl rfl rfl 511 r]; rfl
  have hg : matching.chip.golden 511 r = (crc64 (up.chip.regionBytes 0 (8 * (r / 8))).1).toNat := by
    have h1 : matching.chip.bit SC_CTL_SIGSRC pgSC = true := by decide +kernel
    have h2 : matching.chip.scrub.sigs.lookup (r / 8) = some (sigLine (up.chip.regionBytes 0 (8 * (r / 8))).1) :=
      lookup_map_range (fun k => sigLine (up.chip.regionBytes 0 (8 * k)).1) 36 (r / 8) (by omega)
    rw [Chip.golden, if_pos h1, h2]
    exact sigLine_lane _ _ (by omega)
  rw [Chip.mismatched, hb]
  simp [hg]

/-! No frame is left for the scan. -/

theorem witness_ScrubbingActs_none : (scrubbing up id).chip.frameFrom 0 = none ∧ ∀ c : Chip, c.frameFrom 67604 = none := by
  constructor
  · rw [Chip.frameFrom, List.find?_eq_none]
    intro i hi
    have hi : i < 67604 := List.mem_range.1 hi
    have h : ∀ s < 8, (scrubbing up id).chip.started s = false := by decide +kernel
    have hs : scanSector i < 8 := by simp only [scanSector, cellSector]; split <;> [omega; (split <;> omega)]
    simp [Chip.frameSkipped, h _ hs]
  · intro c
    rw [Chip.frameFrom, List.find?_eq_none]
    intro i hi
    have := List.mem_range.1 hi
    simp; omega

/-- The last frame is scanned. -/
def lastScanned : State := put (scrubbing (put up [(FB_STATE_STARTED, pgFB 7, 0, 1)]) id) [(SC_POS_FRAME, pgSC, 0, 67603)]

theorem witness_ScrubbingActs_last : lastScanned.chip.scrubUp = true ∧ lastScanned.chip.accepts pgSC = true ∧ lastScanned.chip.get SC_CTL_FABEN pgSC = 1 ∧
    lastScanned.chip.frameFrom (lastScanned.chip.get SC_POS_FRAME pgSC) = some 67603 ∧ lastScanned.chip.frameFrom 67604 = none := by
  have hp : lastScanned.chip.get SC_POS_FRAME pgSC = 67603 := by decide +kernel
  have hk : lastScanned.chip.frameSkipped 67603 = false := by decide +kernel
  refine ⟨by decide +kernel, by decide +kernel, by decide +kernel, ?_, witness_ScrubbingActs_none.2 _⟩
  rw [hp, Chip.frameFrom, List.range_succ, List.find?_append, List.find?_eq_none.2]
  · simp [hk]
  · intro i hi
    have := List.mem_range.1 hi
    simp; omega

/-! ## The packet network -/

/-- The packet network has another state. -/
def netted (s : State) (f : NetSt → NetSt) : State := upd s fun c => { c with net := f c.net }

/-- A read of the last block RAM by the configuration engine, and a register read by the debug unit. -/
def aRead : Req := { asker := .cfgSource, op := .read, addr := bramBase + 2047 * 0x2000, len := 2 }
def aPeek : Req := { asker := .debug, op := .regrd, addr := regBase }

/-- The part of that read, and one of a group. -/
def aPart : Flight := { id := 7, ni := 60, req := aRead, dstNi := 51, bridge := 2 }

/-- Requests that wait; parts; packets; requests that have arrived. -/
def wanted (s : State) (rs : List Req) : State := netted s fun x => { x with want := rs }
def flying (s : State) (fs : List Flight) : State := netted (put s [(PG_CTL_RUN, pgNI 60, 0, 1)]) fun x => { x with flights := fs }
def carrying (s : State) (ps : List Packet) : State := netted s fun x => { x with packets := ps }

/-- The NIs 60 and 51 have valid entries for each other. -/
def wired (s : State) : State := upd s fun c => (c.setRoute 60 152 (2 ^ 48)).setRoute 51 224 (2 ^ 48)

/-- A request of the last NI by this part, at a router. -/
def aPacket (pt : Pt) (place : Nat) (route : BitVec 48) : Packet :=
  { pt := pt, ni := 60, tag := 255, vc := 0, place := place, dir := some 1, route := route, dst := 51, bridge := 2, req := some aRead }

theorem witness_NetworkCarriesRequests_issue :
    up.chip.net.want[0]? = none ∧
    ((wanted up [aRead, aRead]).chip.net.want[1]? = some aRead ∧ aRead.asker.place = (60, 0) ∧
      (∃ q ∈ (wanted up [aRead, aRead]).chip.net.want.take 1, q.asker.place = (60, 0)) ∧ (frozen up).chip.askerMoves aRead.asker = false ∧
      (put up [(NC_BRG_FENCED, pgNI 47, 3, 1)]).chip.get NC_BRG_FENCED (pgNI 47) 3 = 1 ∧ (Asker.batchIn 63 0).place = (47, 3) ∧
      (Asker.batchIn 63 0).domain < 80) ∧
    ((wanted up [aRead]).chip.net.want[0]? = some aRead ∧ (∀ q ∈ (wanted up [aRead]).chip.net.want.take 0, q.asker.place ≠ (60, 0)) ∧
      (wanted up [aRead]).chip.askerMoves aRead.asker = true ∧ (wanted up [aRead]).chip.get NC_BRG_FENCED (pgNI 60) 0 ≠ 1 ∧
      up.chip.niCheck (up.chip.stamp { aRead with addr := aRead.addr + 1 }) ≠ 0 ∧ up.chip.niCheck (up.chip.stamp aRead) = 0 ∧
      (∀ l < aRead.len, (up.chip.destOf 60 (aRead.addr + 64 * l)).isSome = true)) := by decide +kernel

theorem witness_NetworkCarriesRequests_inject :
    (up.chip.net.flights[0]? = none ∧ up.chip.noOwnerWaits) ∧
    ((flying up [aPart]).chip.partAt 0 aPart ∧ (flying up [aPart]).chip.noOwnerWaits ∧ (frozen up).chip.askerMoves aRead.asker = false ∧
      (put (flying up []) [(PG_CTL_RUN, pgNI 60, 0, 0)]).chip.accepts (pgNI 60) = false ∧
      (flying up [{ aPart with id := 6 }, aPart]).chip.mustWait aPart = true ∧
      (flying up [aPart, { aPart with id := 8, st := .sent, tag := some 0, req := { aRead with len := 2045 } }]).chip.answerRoom 60 + aRead.answerFlits = 2051) ∧
    ((flying up [aPart]).chip.askerMoves aRead.asker = true ∧ (flying up [aPart]).chip.accepts (pgNI 60) = true ∧ aPart.dstNi ≠ aPart.ni ∧
      aPart.st = .waiting ∧ (flying up [aPart]).chip.mustWait aPart = false ∧ (flying up [aPart]).chip.freeTag 60 = some 0 ∧
      (flying up [aPart]).chip.answerRoom 60 + aRead.answerFlits ≤ 2048 ∧ (put (flying up [aPart]) [(NC_MODE_RSV, pgNI 60, 0, 0)]).chip.get NC_MODE_RSV (pgNI 60) ≠ 1 ∧
      (flying up [aPart]).chip.get NC_BRG_RVAR (pgNI 60) 0 = 0 ∧
      (flying up [{ aPart with st := .granted, tag := some 255 }]).chip.partAt 0 { aPart with st := .granted, tag := some 255 } ∧
      (flying (wired up) [aPart]).chip.partAt 0 aPart ∧ (flying (wired up) [aPart]).chip.routed 60 51 0 ∧ ¬(flying up [aPart]).chip.routed 60 51 0) ∧
    ((put (flying (wired up) [aPart]) [(NC_MODE_RSV, pgNI 60, 0, 1)]).chip.get NC_MODE_RSV (pgNI 60) = 1 ∧
      (∀ x ∈ (put (flying (wired up) [aPart]) [(NC_MODE_RSV, pgNI 60, 0, 1)]).chip.net.flights, x.st ≠ .announced) ∧
      (put (flying (wired up) [aPart]) [(NC_MODE_RSV, pgNI 60, 0, 1)]).chip.partAt 0 aPart ∧
      (put (flying (wired up) [aPart]) [(NC_MODE_RSV, pgNI 60, 0, 1)]).chip.routed 60 51 0) := by
  unfold Chip.partAt Chip.noOwnerWaits Chip.routed; decide +kernel

/-- A router passes packets on. -/
def routing (p : Packet) : State := put (carrying up [p]) [(PG_CTL_RUN, 0x80 + p.place, 0, 1)]

theorem witness_NetworkCarriesRequests_routers :
    (up.chip.noOwnerWaits ∧ up.chip.net.packets[0]? = none ∧ (routing { aPacket .req 95 0 with home := true }).chip.net.packets[0]? = some { aPacket .req 95 0 with home := true } ∧
      (carrying up [aPacket .req 95 0, aPacket .req 95 0]).chip.firstAt 1 (aPacket .req 95 0) = false ∧
      (put (routing (aPacket .req 95 0)) [(PG_CTL_RUN, 0x80 + 95, 0, 0)]).chip.accepts (0x80 + 95) = false) ∧
    ((routing (aPacket .req 95 0)).chip.noOwnerWaits ∧ (routing (aPacket .req 95 0)).chip.net.packets[0]? = some (aPacket .req 95 0) ∧
      (aPacket .req 95 0).home = false ∧ (routing (aPacket .req 95 0)).chip.firstAt 0 (aPacket .req 95 0) = true ∧ (aPacket .req 95 0).after = [] ∧
      (routing (aPacket .req 95 0)).chip.accepts (0x80 + 95) = true ∧ turn (aPacket .req 95 0).dir (turnCode 0 0) = some 1 ∧
      (routerNext 95 1).isSome = true ∧ ((routing (aPacket .req 95 0)).chip.get NC_RCTL_PORTEN (0x80 + 95)).testBit 1 = true ∧
      (routing (aPacket .req 95 0)).chip.mayReport (0x80 + 95) 4 ∧ (routing (aPacket .req 95 0)).chip.mayReport (0x80 + 95) 1) ∧
    (turn (aPacket .req 84 3).dir (turnCode 3 0) = none ∧ routerNi 84 = some 62 ∧ (routing (aPacket .req 84 3)).chip.hasRoom 84 (aPacket .req 84 3) = true ∧
      (routing (aPacket .req 84 3)).chip.get NC_RCTL_LOCEN (0x80 + 84) = 1 ∧ (routing (aPacket .req 84 3)).chip.net.packets[0]? = some (aPacket .req 84 3) ∧
      (routing (aPacket .req 84 3)).chip.firstAt 0 (aPacket .req 84 3) = true ∧ (routing (aPacket .req 84 3)).chip.accepts (0x80 + 84) = true ∧
      (routing (aPacket .rsp 84 3)).chip.net.packets[0]? = some (aPacket .rsp 84 3) ∧ (routing (aPacket .rsp 84 3)).chip.firstAt 0 (aPacket .rsp 84 3) = true ∧
      (routing (aPacket .rsp 84 3)).chip.accepts (0x80 + 84) = true ∧ (routing (aPacket .rsp 84 3)).chip.get NC_RCTL_LOCEN (0x80 + 84) = 1) := by
  unfold Chip.noOwnerWaits Chip.mayReport; decide +kernel

/-- A packet that its NI has taken, beside the parts that stand there. -/
def athome (s : State) (p : Packet) (fs : List Flight) : State := netted s fun x => { x with packets := [p], flights := fs }
def homePacket (pt : Pt) : Packet := { aPacket pt 60 0 with home := true }
def debugPart : Flight := { id := 7, ni := 60, tag := some 255, req := aPeek, dstNi := 51, bridge := 2, st := .sent }

theorem witness_NetworkCarriesRequests_answers :
    (∀ pt ∈ [Pt.rsp, .late, .rsvreq, .rsvgnt], (athome up (homePacket pt) []).chip.net.packets[0]? = some (homePacket pt)) ∧
    ((homePacket .rsp).home = true ∧ (athome up (homePacket .rsp) []).chip.flightOf 60 255 = none ∧ (athome up (homePacket .rsp) []).chip.noOwnerWaits) ∧
    ((∀ st ∈ [PartSt.sent, .lost, .dropped, .late, .announced], (athome up (homePacket .rsp) [{ aPart with tag := some 255, st := st }]).chip.flightOf 60 255 =
      some { aPart with tag := some 255, st := st }) ∧ (athome up (homePacket .rsp) []).chip.askerMoves aRead.asker = true ∧ aRead.spec = false ∧
      (athome up { homePacket .rsp with codes := [0] } [debugPart]).chip.flightOf 60 255 = some debugPart ∧ aPeek.wide = false ∧
      (athome up { homePacket .rsp with codes := [0] } [debugPart]).chip.askerMoves aPeek.asker = true) ∧
    ((athome (wired up) (homePacket .rsvreq) []).chip.net.rsv = [] ∧ (homePacket .rsvreq).vc < 4 ∧ (athome (wired up) (homePacket .rsvreq) []).chip.routed 51 60 0 ∧
      (athome (wired up) (homePacket .rsvreq) []).chip.heldFlits 51 0 + 128 ≤ 128 ∧ 128 < (athome (wired up) (homePacket .rsvreq) []).chip.heldFlits 51 0 + 129) ∧
    (up.chip.flightOf 63 255 = none ∧ (flying up [{ aPart with ni := 63, tag := some 255, st := .sent }]).chip.flightOf 63 255 =
        some { aPart with ni := 63, tag := some 255, st := .sent } ∧ ({ aPart with ni := 63, tag := some 255, st := .sent } : Flight).waits = true ∧
      (flying up [{ aPart with ni := 63, tag := some 255, st := .dropped }]).chip.flightOf 63 255 = some { aPart with ni := 63, tag := some 255, st := .dropped } ∧
      (flying up [{ aPart with ni := 63, tag := some 255, st := .lost }]).chip.flightOf 63 255 = some { aPart with ni := 63, tag := some 255, st := .lost } ∧
      ({ aPart with ni := 63, tag := some 255, st := .lost } : Flight).waits = false ∧ up.chip.stepsRun = true ∧ up.chip.mayReport (pgNI 63) 0) := by
  unfold Chip.noOwnerWaits Chip.mayReport Chip.routed; decide +kernel

/-- A request of NI 60 with tag 255 that has arrived at NI 51 or another; it stands there beside another. -/
def anArrived (r : Req) (dst : Nat := 51) : Arrived := { ni := 60, tag := 255, req := r, dstNi := dst, bridge := 0, rvar := 0, vc := 0 }
def arriving (s : State) (as : List Arrived) : State := netted s fun x => { x with arrived := as }

/-- A transfer of the last line of the scratchpad, and a register access of the last SP page's neighbour SC. -/
def spReq (op : Op) : Req := { asker := .cfgSource, op := op, addr := spBase + 0x1FFFFC0, lines := if op = .write then [{ data := 1, mask := 1 }] else [] }
def regReq (op : Op) (pg off : Nat) : Req := { asker := .cfgWrite, op := op, addr := regBase + 0x1000 * pg + off, wdata := 1 }

/-- The SP function runs, and its last bank is awake. -/
def awake : State := put up [(PG_CTL_RUN, pgSP 0, 0, 1), (PG_STS_RUNNING, pgSP 0, 0, 1), (SP_AWAKE_AWAKE, pgSP 0, 3, 2 ^ 31)]

theorem witness_NetworkPerformsRequests :
    (up.chip.noOwnerWaits ∧ up.chip.net.arrived[0]? = none ∧ (spReq .read).op ≠ .write ∧
      (arriving up [anArrived (spReq .read), anArrived (spReq .read)]).chip.heldUp 1 (anArrived (spReq .read)) = true) ∧
    ((∀ op ∈ [Op.read, .write], (arriving awake [anArrived (spReq op) 57]).chip.net.arrived[0]? = some (anArrived (spReq op) 57) ∧
        (arriving awake [anArrived (spReq op) 57]).chip.heldUp 0 (anArrived (spReq op) 57) = false ∧ (arriving awake [anArrived (spReq op) 57]).chip.noOwnerWaits ∧
        regionOf (spReq op).addr = some .sp ∧ (arriving awake [anArrived (spReq op) 57]).chip.meets (anArrived (spReq op) 57) [pgSP 0] false = .served ∧
        (arriving awake [anArrived (spReq op) 57]).chip.waitsInBank (anArrived (spReq op) 57) = false ∧
        (arriving awake [anArrived (spReq op) 57]).chip.spServe (anArrived (spReq op) 57).banks = 0 ∧
        (arriving up [anArrived (spReq op) 57]).chip.spServe (anArrived (spReq op) 57).banks ≠ 0 ∧
        (arriving up [anArrived (spReq op) 57]).chip.meets (anArrived (spReq op) 57) [pgSP 0] false = .served) ∧
      (anArrived (spReq .read) 57).done = false ∧ (anArrived (spReq .read) 57).poison = false ∧ (spReq .write).lines[0]? = some { data := 1, mask := 1 } ∧
      0 ∉ (anArrived (spReq .write) 57).bad ∧ 0 ∈ ({ anArrived (spReq .write) 57 with bad := [0] } : Arrived).bad) ∧
    ((arriving awake [{ anArrived (spReq .write) 57 with poison := true }]).chip.heldUp 0 { anArrived (spReq .write) 57 with poison := true } = false ∧
      (upd (arriving awake [anArrived (spReq .read) 57]) fun c => c.setRoute 57 224 (2 ^ 48)).chip.routed 57 60 0 ∧
      (eccDecode (awake.chip.spWord (8 * (0x1FFFFC0 / 64) + 7))).isBad = false) := by
  unfold Chip.noOwnerWaits Chip.routed; decide +kernel

/-- Another entry for index 224, with its command held back. -/
def heldBack : State := netted up fun x => { x with rteHeld := [(63, 255, [7])] }

/-- NI 63 is to have the route down seven rows to NI 62. -/
def entered : State := put up [(NC_RTEL_ROUTE, pgNI 63, 0, 0xFFFFC002), (NC_RTEH_ROUTE, pgNI 63, 0, 0xFFFF)]

theorem witness_NetworkPerformsRequests_registers :
    ((∀ op ∈ [Op.regrd, .regwr], (arriving up [anArrived (regReq op pgSC 0x40) 61]).chip.net.arrived[0]? = some (anArrived (regReq op pgSC 0x40) 61) ∧
        (arriving up [anArrived (regReq op pgSC 0x40) 61]).chip.heldUp 0 (anArrived (regReq op pgSC 0x40) 61) = false ∧
        (arriving up [anArrived (regReq op pgSC 0x40) 61]).chip.noOwnerWaits ∧ regionOf (regReq op pgSC 0x40).addr = some .reg ∧
        windowStore ((regReq op pgSC 0x40).addr - regBase) = none ∧ ((regReq op pgSC 0x40).addr - regBase) / 0x1000 = pgSC ∧
        ((regReq op pgSC 0x40).addr - regBase) % 0x1000 = 0x40 ∧ up.chip.pageCode (regReq op pgSC 0x40).asker.who pgSC 0x40 (op == .regwr) = 0 ∧
        (put up [(PG_CTL_CLKEN, pgSC, 0, 0)]).chip.pageCode (regReq op pgSC 0x40).asker.who pgSC 0x40 (op == .regwr) ≠ 0) ∧
      up.chip.get GL_FRZSTS_STATE pgGL = 0 ∧ plainPage pgSC = true ∧ (0x40 : Nat) % 4 = 0 ∧ (fieldsAt pgSC 0x40).length = 6 ∧ (SC_CTL_FABEN, 0) ∈ fieldsAt pgSC 0x40) ∧
    (up.reaches .host (pgNI 63) NC_RTECMD_INDEX.off ∧ heldBack.reaches .host (pgNI 63) NC_RTECMD_INDEX.off ∧ heldBack.chip.routeBusy 63 = true ∧
      up.chip.routeBusy 63 = false ∧
      routeErr 63 63 (BitVec.ofNat 48 (up.chip.get NC_RTEL_ROUTE (pgNI 63) + up.chip.get NC_RTEH_ROUTE (pgNI 63) * 2 ^ 32)) ≠ 0 ∧
      entered.reaches .host (pgNI 63) NC_RTECMD_INDEX.off ∧ entered.chip.routeBusy 63 = false ∧
      routeErr 63 (32 + 240 / 8) (BitVec.ofNat 48 (entered.chip.get NC_RTEL_ROUTE (pgNI 63) + entered.chip.get NC_RTEH_ROUTE (pgNI 63) * 2 ^ 32)) = 0) ∧
    up.reaches .host (pgNI 63) NC_MODE_RSV.off := by unfold State.reaches Chip.noOwnerWaits; decide +kernel

/-! ## The scratchpad and the memory ports -/

/-- A scratchpad of another state. -/
def padded (s : State) (f : ScratchSt → ScratchSt) : State := upd s fun c => { c with sp := f c.sp }

theorem witness_ScratchpadBanksAndDma :
    (up.reaches .host (pgSP 1) (SP_OWN_OWNER.off + SP_OWN_OWNER.stride * 127) ∧ up.chip.get SP_OWN_BUSY (pgSP 1) 127 ≠ 1 ∧
      (put up [(SP_OWN_BUSY, pgSP 1, 127, 1)]).reaches .host (pgSP 1) (SP_OWN_OWNER.off + SP_OWN_OWNER.stride * 127) ∧
      (put up [(SP_OWN_BUSY, pgSP 1, 127, 1)]).chip.get SP_OWN_BUSY (pgSP 1) 127 = 1) ∧
    ((phased up 78 .off).chip.domOn 78 = false ∧ up.chip.domOn 78 = true ∧
      (put up [(SP_RET_RET, pgSP 0, 3, 2 ^ 31)]).chip.domOn 78 = true ∧
      ((put up [(SP_RET_RET, pgSP 0, 3, 2 ^ 31)]).chip.get SP_RET_RET (pgSP 0) (127 / 32)).testBit (127 % 32) = true ∧
      (up.chip.get SP_RET_RET (pgSP 0) (127 / 32)).testBit (127 % 32) = false) ∧
    (4194303 ∉ up.chip.sp.fix ∧ 4194303 ∈ (padded up fun x => { x with fix := [4194303] }).chip.sp.fix ∧
      (eccDecode ((padded up fun x => { x with word := [(4194303, 1)] }).chip.spWord 4194303)).isFixed = true ∧
      (eccDecode (up.chip.spWord 4194303)).isFixed = false) ∧
    (up.reaches .host (pgSP 2) (SP_DMACTL_GO.off + SP_DMACTL_GO.stride * 3) ∧
      (put up [(SP_DMASTS_STATE, pgSP 2, 3, 1)]).reaches .host (pgSP 2) (SP_DMACTL_GO.off + SP_DMACTL_GO.stride * 3) ∧
      (put up [(SP_DMASTS_STATE, pgSP 2, 3, 1)]).chip.get SP_DMASTS_STATE (pgSP 2) 3 = 1 ∧ up.chip.get SP_DMASTS_STATE (pgSP 2) 3 ≠ 1 ∧
      up.chip.works (pgSP 2) = false ∧ (works up (pgSP 2)).chip.accepts (pgSP 2) = true ∧ (works up (pgSP 2)).chip.works (pgSP 2) = true ∧
      (works up (pgSP 2)).reaches .host (pgSP 2) (SP_DMACTL_GO.off + SP_DMACTL_GO.stride * 3)) := by unfold State.reaches; decide +kernel

/-- The memory side has another state, with crypto engine 1 in this state. -/
def memory (s : State) (x : CryptoSt) (f : MemSt → MemSt) : State :=
  upd s fun c => ({ c with mem := f c.mem }).setCrypto 1 x

/-- The key range of engine 1: its first group and how many. -/
def ranged (s : State) (g n : Nat) : State :=
  put s [(MC_RKSTARTH_ADDR, pgMC 1 0, 0, g / 2 ^ 20), (MC_RKSTARTL_ADDR, pgMC 1 0, 0, g % 2 ^ 20), (MC_RKLEN_GROUPS, pgMC 1 0, 0, n)]

/-- Its first and last byte. -/
def rangeOf (s : State) : Nat × Nat :=
  let a := s.chip.get MC_RKSTARTH_ADDR (pgMC 1 0) * 2 ^ 32 + s.chip.get MC_RKSTARTL_ADDR (pgMC 1 0) * 4096
  (a, a + 4096 * (s.chip.get MC_RKLEN_GROUPS (pgMC 1 0) + 1) - 1)

/-- Memory port 7 runs behind link port 15, which is up, and its map is the last GiB but of external memory. -/
def linked : State :=
  put up [(PG_CTL_RUN, pgML 7, 0, 1), (ML_CTL_LPORT, pgML 7, 0, 15), (LN_PSTS_STATE, pgLN 15, 0, 3), (LN_PCFG_USE, pgLN 15, 0, 2), (PG_STS_RUNNING, pgMC 1 0, 0, 1)]
def lastGiB : PortMap := { base := 4095, size := 1, ways := 1, pos := 0 }
def mapped (s : State) (x : CryptoSt) (f : MemSt → MemSt) : State := memory s x fun y => f { y with maps := [(7, lastGiB)] }

/-- A rekey of slot 255 up to the end of external memory. -/
def aRekey : Rekey := { slot := 255, first := 2 ^ 42 - 8192, last := 2 ^ 42 - 1, bnd := 2 ^ 42 - 4096 }

theorem witness_KeysRecordsAndRekeys :
    (up.reaches .host (pgMC 1 0) MC_KCMD_OP.off ∧ (put up [(MC_KCMD_BUSY, pgMC 1 0, 0, 1)]).reaches .host (pgMC 1 0) MC_KCMD_OP.off ∧
      (put up [(MC_KCMD_BUSY, pgMC 1 0, 0, 1)]).chip.get MC_KCMD_BUSY (pgMC 1 0) = 1 ∧ up.chip.get MC_KCMD_BUSY (pgMC 1 0) ≠ 1 ∧
      up.chip.get MC_KSLOT_STATE (pgMC 1 1) 255 = 0 ∧ (put up [(MC_KSLOT_STATE, pgMC 1 1, 255, 1)]).chip.get MC_KSLOT_STATE (pgMC 1 1) 255 = 1 ∧
      (put up [(MC_KSLOT_STATE, pgMC 1 1, 255, 2)]).chip.get MC_KSLOT_STATE (pgMC 1 1) 255 = 2 ∧
      (∀ j < 8, (put up [(MC_KDATA_KEY, pgMC 1 0, 7, 2 ^ 32 - 1)]).chip.get MC_KDATA_KEY (pgMC 1 0) j < 2 ^ 32)) ∧
    (rangeOf (ranged up (2 ^ 30 - 1) 0) = (2 ^ 42 - 4096, 2 ^ 42 - 1) ∧ 2 ^ 42 ≤ (rangeOf (ranged up (2 ^ 30 - 1) 1)).2 ∧
      (ranged up (2 ^ 30 - 1) 1).reaches .host (pgMC 1 0) MC_KCMD_OP.off ∧
      ((memory (ranged up (2 ^ 30 - 1) 0) { rekey := some aRekey } id).chip.crypto 1).rekey = some aRekey ∧
      rangeOf (memory (ranged up (2 ^ 30 - 1) 0) { rekey := some aRekey } id) = (2 ^ 42 - 4096, 2 ^ 42 - 1) ∧
      2 ^ 42 - 4096 ≤ aRekey.last ∧ aRekey.first ≤ 2 ^ 42 - 1) ∧
    (rangeOf (mapped (ranged linked (2 ^ 30 - 1) 0) {} id) = (2 ^ 42 - 4096, 2 ^ 42 - 1) ∧
      (mapped (ranged linked (2 ^ 30 - 1) 0) {} id).chip.quietMemory ∧ ((mapped (ranged linked (2 ^ 30 - 1) 0) {} id).chip.crypto 1).rekey = none ∧
      (mapped (ranged linked (2 ^ 30 - 1) 0) {} id).chip.portOf (2 ^ 42 - 4096) = some 7 ∧
      (mapped (ranged linked (2 ^ 30 - 1) 0) {} id).chip.groupAt 7 (2 ^ 42 - 4096) = 2 ^ 18 - 1 ∧
      (mapped (ranged linked (2 ^ 30 - 1) 0) {} id).chip.node 7 8 ((2 ^ 18 - 1) / 8 ^ 8) = none ∧
      (mapped (ranged linked (2 ^ 30 - 1) 0) {} id).chip.poisonedGroup 7 (2 ^ 18 - 1) = false ∧
      (mapped (ranged linked (2 ^ 30 - 1) 0) {} id).chip.memLink 7 = true ∧ (mapped (ranged linked (2 ^ 30 - 1) 0) {} id).chip.freePtag 7 ≠ none ∧
      (mapped (ranged linked (2 ^ 30 - 1) 0) {} id).reaches .host (pgMC 1 0) MC_KCMD_OP.off) := by
  unfold State.reaches Chip.quietMemory; decide +kernel

/-- A changed counter line of port 7. -/
def dirtyState (s : State) : State := mapped s { cache := [(nodeKey 7 8 0, { data := 0, dirty := true })] } id

/-- Nothing waits to be saved, and no request is outstanding at the memory ports. -/
theorem saves_at_once (c : Chip) (m : Nat) (h : c.mem.ops = [] ∧ (∀ x < 2, x ≠ m → (c.crypto x).saving = false) ∧ (c.crypto m).bg = [] ∧
    (c.crypto m).begins = none ∧ c.dirtyLines m = [] ∧ c.mem.pmp = []) : c.savesAtOnce m :=
  ⟨h.1, h.2.1, h.2.2.1, h.2.2.2.1, h.2.2.2.2.1, fun r hr => by rw [h.2.2.2.2.2] at hr; cases hr⟩

/-- Slot 255 has a new key. -/
def rekeyable : State :=
  memory (put (ranged up (2 ^ 30 - 1) 0) [(MC_KSLOT_STATE, pgMC 1 1, 255, 1)]) { slots := [(255, { key := 0, new := some 1 })] } id

theorem witness_KeysRecordsAndRekeys_saves : up.chip.savesAtOnce 1 ∧ rekeyable.chip.savesAtOnce 1 :=
  ⟨saves_at_once _ _ (by decide +kernel), saves_at_once _ _ (by decide +kernel)⟩

theorem witness_KeysRecordsAndRekeys_records :
    (up.reaches .host (pgMC 1 1) (MC_KSLOT_RIGHTS.off + MC_KSLOT_RIGHTS.stride * 255) ∧ up.reaches .host (pgMC 1 0) (MC_PSNA_VALID.off + MC_PSNA_VALID.stride * 15) ∧
      up.reaches .host (pgMC 1 0) MC_CTL_SAVE.off) ∧
    ((dirtyState up).chip.mem.ops = [] ∧ (∀ e < 2, e ≠ 1 → ((dirtyState up).chip.crypto e).saving = false) ∧ ((dirtyState up).chip.crypto 1).bg = [] ∧
      ((dirtyState up).chip.crypto 1).begins = none ∧ (dirtyState up).chip.mem.pmp = [] ∧ (dirtyState up).chip.dirtyLines 1 = [(7, 8, 0)] ∧
      (dirtyState up).chip.memLink 7 = false ∧ (dirtyState up).chip.mayReport (pgMC 1 0) 11 ∧ (dirtyState up).reaches .host (pgMC 1 0) MC_CTL_SAVE.off) ∧
    (up.reaches .host (pgMC 1 0) MC_TREECTL_INIT.off ∧ (up.chip.crypto 1).treeKey = none ∧
      ((mapped linked { treeKey := some 0 } id).chip.crypto 1).treeKey ≠ none ∧ (mapped linked { treeKey := some 0 } id).chip.run (pgML 7) = true ∧
      (mapped linked { treeKey := some 0 } id).chip.mem.maps.lookup 7 ≠ none ∧ (mapped linked { treeKey := some 0 } id).chip.treeState 7 ≠ 1 ∧
      (mapped (put linked [(MC_TREESTS_STATE, pgMC 1 0, 0, 0x40)]) { treeKey := some 0 } id).chip.treeState 7 = 1 ∧
      (mapped linked { treeKey := some 0 } id).chip.nodesAt 7 0 ≠ 0 ∧ (mapped linked { treeKey := some 0 } id).chip.memLink 7 = true ∧
      (mapped linked { treeKey := some 0 } id).chip.freePtag 7 = some 0 ∧
      (mapped (put linked [(LN_PSTS_STATE, pgLN 15, 0, 2)]) { treeKey := some 0 } id).chip.memLink 7 = false ∧
      (mapped linked { treeKey := some 0 } id).reaches .host (pgMC 1 0) MC_TREECTL_INIT.off) ∧
    (up.reaches .host (pgMC 1 0) MC_RKCTL_GO.off ∧ (up.chip.crypto 1).rekey = none ∧ rangeOf (ranged up (2 ^ 30 - 1) 0) = (2 ^ 42 - 4096, 2 ^ 42 - 1) ∧
      (0xFF : BitVec 32).toNat % 256 = 255 ∧
      rangeOf rekeyable = (2 ^ 42 - 4096, 2 ^ 42 - 1) ∧ (rekeyable.chip.crypto 1).rekey = none ∧ rekeyable.chip.get MC_KSLOT_STATE (pgMC 1 1) 255 = 1 ∧
      ((rekeyable.chip.crypto 1).slot 255).new ≠ none ∧ rekeyable.reaches .host (pgMC 1 0) MC_RKCTL_GO.off) := by
  unfold State.reaches Chip.mayReport; decide +kernel

/-- A rekey with its boundary in this group from the end of memory, and with no port there; a group under re-encryption. -/
def rekeyed (last : Nat) : State := memory linked { rekey := some { aRekey with bnd := 2 ^ 42 - 8192, last := last } } id
def rekeyedHere : State := mapped linked { rekey := some aRekey } id
def aGroup : BgGroup := { port := 7, group := 2 ^ 18 - 1, oldMajor := 0, oldMinors := 0, slot := 255, left := [63] }
def renewing : State := mapped linked { bg := [aGroup] } id

theorem witness_MemoryLinesAndAnswers_engines :
    ((up.chip.crypto 1).rekey = none ∧ ((rekeyed (2 ^ 42 - 1)).chip.crypto 1).rekey = some { aRekey with bnd := 2 ^ 42 - 8192 } ∧
      (rekeyed (2 ^ 42 - 1)).chip.works (pgMC 1 0) = true ∧ (rekeyed (2 ^ 42 - 1)).chip.stepsRun = true ∧ (rekeyed (2 ^ 42 - 1)).chip.mem.ops = [] ∧
      (rekeyed (2 ^ 42 - 1)).chip.portOf (2 ^ 42 - 8192) = none ∧ ((2 ^ 42 - 8192) / 4096 + 1) * 4096 ≤ 2 ^ 42 - 1 ∧
      2 ^ 42 - 4097 < ((2 ^ 42 - 8192) / 4096 + 1) * 4096 ∧ ((rekeyed (2 ^ 42 - 4097)).chip.crypto 1).rekey = some { aRekey with bnd := 2 ^ 42 - 8192, last := 2 ^ 42 - 4097 } ∧
      (rekeyed (2 ^ 42 - 4097)).chip.mayReport (pgMC 1 0) 9) ∧
    ((rekeyedHere.chip.crypto 1).rekey = some aRekey ∧ rekeyedHere.chip.portOf aRekey.bnd = some 7 ∧ rekeyedHere.chip.quietMemory ∧
      (rekeyedHere.chip.crypto 1).bg = [] ∧ rekeyedHere.chip.poisonedGroup 7 (rekeyedHere.chip.groupAt 7 aRekey.bnd) = false ∧
      rekeyedHere.chip.memLink 7 = true ∧ rekeyedHere.chip.freePtag 7 ≠ none ∧ rekeyedHere.chip.works (pgMC 1 0) = true) ∧
    ((up.chip.crypto 1).bg = [] ∧ (renewing.chip.crypto 1).bg.head? = some aGroup ∧ aGroup.left.head? = some 63 ∧ renewing.chip.works (pgMC 1 0) = true ∧
      renewing.chip.stepsRun = true ∧ renewing.chip.deviceOf 7 (4096 * (2 ^ 18 - 1) + 64 * 63) = 2 ^ 42 - 64 ∧ renewing.chip.quietMemory ∧
      renewing.chip.poisonedGroup 7 (renewing.chip.groupAt 7 (2 ^ 42 - 64)) = false ∧ renewing.chip.memLink 7 = true ∧ renewing.chip.freePtag 7 ≠ none) := by
  unfold Chip.quietMemory Chip.mayReport; decide +kernel

/-- A packet has come for port 7, which has this request outstanding under tag 1023. -/
def answering (h : BitVec 512) (ds : List (BitVec 512)) (rs : List PmpReq) (f : MemSt → MemSt := id) : State :=
  upd (mapped linked {} fun x => f { x with pmp := rs }) fun c => c.setPort 15 { c.portSt 15 with inbox := [h :: ds] }
def asked (type : Nat) (use : PmpUse) : PmpReq := { port := 7, tag := 1023, type := type, use := use }

/-- The command flits of an answer with tag 1023: RDATA, WACK and INFO. -/
def rdataHead : BitVec 512 := 0x3FF03
def wackHead : BitVec 512 := 0x3FF04
def infoHead : BitVec 512 := 0x3FF06 + 2 ^ 80

/-- The request of one line that the only operation is for; that operation. -/
def lineRead : Arrived := { ni := 60, tag := 255, req := { asker := .cfgSource, op := .read, addr := 2 ^ 42 - 64 }, dstNi := 55, bridge := 1, rvar := 0, vc := 0 }
def lineOp (k : LineKind) : LineOp := { id := 3, kind := k, ni := 60, tag := 255, dst := 55, addr := 2 ^ 42 - 64, port := 7, slot := 0, asked := true }

/-- The answer comes for that line. -/
def lineAnswer (k : LineKind) (h : BitVec 512) (ds : List (BitVec 512)) (r : PmpReq) : State :=
  upd (answering h ds [r] fun x => { x with ops := [lineOp k] }) fun c =>
    { c.setRoute 55 224 (2 ^ 48) with net := { (c.setRoute 55 224 (2 ^ 48)).net with arrived := [lineRead] } }

theorem witness_MemoryLinesAndAnswers_packets :
    (up.chip.portUse (up.chip.get ML_CTL_LPORT (pgML 7)) ≠ 2) ∧
    (∀ hk ∈ [(rdataHead, 3), (wackHead, 4), (infoHead, 6)], (answering hk.1 [] []).chip.answerAt 7 hk.2 hk.1 [] ∧ bitsOf hk.1.toNat 17 8 = 1023) ∧
    (up.chip.pmpOf 7 1023 = none ∧
      (answering rdataHead [] [{ asked 1 (.data 3) with dead := true, tillUp := true }]).chip.pmpOf 7 1023 = some { asked 1 (.data 3) with dead := true, tillUp := true } ∧
      (∀ hk ∈ [(rdataHead, 3, 1), (wackHead, 4, 2), (infoHead, 6, 5)],
        (answering hk.1 [] [{ asked hk.2.2 (.data 3) with dead := true }]).chip.pmpOf 7 1023 = some { asked hk.2.2 (.data 3) with dead := true } ∧
        (answering hk.1 [] [{ asked hk.2.2 (.data 3) with dead := true }]).chip.answerAt 7 hk.2.1 hk.1 [])) := by
  unfold Chip.answerAt; decide +kernel

theorem witness_MemoryLinesAndAnswers_lines :
    ((lineAnswer (.read false) rdataHead [0, 0] (asked 1 (.data 3))).chip.lineOf lineRead (lineOp (.read false)) ∧
      (lineAnswer (.read false) rdataHead [0, 0] (asked 1 (.data 3))).chip.answerAt 7 3 rdataHead [0, 0] ∧
      (lineAnswer (.read false) rdataHead [0, 0] (asked 1 (.data 3))).chip.pmpOf 7 1023 = some (asked 1 (.data 3)) ∧
      ((lineAnswer (.read false) rdataHead [0, 0] (asked 1 (.data 3))).chip.crypto 1).rekey = none ∧
      (lineAnswer (.read false) rdataHead [0, 0] (asked 1 (.data 3))).chip.routed 55 60 0 ∧
      (lineAnswer (.read false) rdataHead [0, 0] (asked 1 (.data 3))).chip.mayReport (mcOf 7) 1 ∧
      (lineAnswer (.read false) rdataHead [0, 0] (asked 1 (.data 3))).chip.mayReport (mcOf 7) 0 ∧
      (lineAnswer (.read false) (rdataHead + 2 ^ 64) [0, 0] (asked 1 (.data 3))).chip.answerAt 7 3 (rdataHead + 2 ^ 64) [0, 0] ∧
      (rdataHead + 2 ^ 64).getLsbD 64 = true ∧ rdataHead.getLsbD 64 = false ∧
      lineDecode ((pmpLines (bitsOf rdataHead.toNat 23 18 + 1) [0, 0]).headD 0) = some (0, 0, false) ∧
      lineDecode ((pmpLines (bitsOf rdataHead.toNat 23 18 + 1) [1, 0]).headD 0) = some (0, 0, true)) := by
  unfold Chip.lineOf Chip.answerAt Chip.routed Chip.mayReport; decide +kernel

theorem witness_MemoryLinesAndAnswers_writes :
    ((lineAnswer (.write 0 0) wackHead [] (asked 2 (.store 3))).chip.lineOf lineRead (lineOp (.write 0 0)) ∧
      (lineAnswer (.write 0 0) wackHead [] (asked 2 (.store 3))).chip.answerAt 7 4 wackHead [] ∧
      (lineAnswer (.write 0 0) wackHead [] (asked 2 (.store 3))).chip.pmpOf 7 1023 = some (asked 2 (.store 3)) ∧
      (lineAnswer (.write 0 0) (wackHead + 2 ^ 64) [] (asked 2 (.store 3))).chip.answerAt 7 4 (wackHead + 2 ^ 64) [] ∧
      bitsOf (wackHead + 2 ^ 64).toNat 127 64 % 2 ^ 1 ≠ 0 ∧ bitsOf wackHead.toNat 127 64 % 2 ^ 1 = 0 ∧ (lineOp (.write 0 0)).dst ≠ 0) := by
  unfold Chip.lineOf Chip.answerAt; decide +kernel

theorem witness_MemoryLinesAndAnswers_ends :
    ((answering infoHead [] [asked 5 .info] fun x => { x with starting := [7] }).chip.answerAt 7 6 infoHead [] ∧
      (answering infoHead [] [asked 5 .info] fun x => { x with starting := [7] }).chip.pmpOf 7 1023 = some (asked 5 .info) ∧
      7 ∈ (answering infoHead [] [asked 5 .info] fun x => { x with starting := [7] }).chip.mem.starting ∧
      (answering infoHead [] []).chip.get ML_SIZE_GIB (pgML 7) ≤ bitsOf infoHead.toNat 72 64 ∧ infoHead.getLsbD 80 = true ∧
      (answering (infoHead - 2 ^ 80) [] [asked 5 .info] fun x => { x with starting := [7] }).chip.answerAt 7 6 (infoHead - 2 ^ 80) [] ∧
      (infoHead - 2 ^ 80).getLsbD 80 = false ∧ (answering infoHead [] []).chip.mayReport (pgML 7) 2) := by
  unfold Chip.answerAt Chip.mayReport; decide +kernel

theorem witness_MemoryLinesAndAnswers_timeouts :
    (up.chip.pmpOf 7 1023 = none ∧ (lineAnswer (.read false) 0 [] (asked 1 (.data 3))).chip.pmpOf 7 1023 = some (asked 1 (.data 3)) ∧
      (lineAnswer (.read false) 0 [] (asked 1 (.data 3))).chip.stepsRun = true ∧ 7 ∉ (lineAnswer (.read false) 0 [] (asked 1 (.data 3))).chip.mem.starting ∧
      (lineAnswer (.read false) 0 [] (asked 1 (.data 3))).chip.lineOf lineRead (lineOp (.read false)) ∧ (lineOp (.read false)).id = 3 ∧
      (answering 0 [] [asked 2 (.init 0 0)]).chip.pmpOf 7 1023 = some (asked 2 (.init 0 0)) ∧ (answering 0 [] [asked 2 (.init 0 0)]).chip.quietMemory ∧
      (answering 0 [] [asked 2 (.init 0 0)]).chip.mayReport (pgML 7) 1) ∧
    ((phased up 77 .off).chip.domOn (76 + 7 / 4) = false ∧ up.chip.domOn (76 + 7 / 4) = true ∧ up.chip.stepsRun = true ∧ up.chip.mayReport (mcOf 7) 6 ∧
      up.chip.mayReport (mcOf 7) 7) := by
  unfold Chip.lineOf Chip.mayReport Chip.quietMemory; decide +kernel

/-! ## Lanes and link ports -/

/-- Quad 15 works, its lanes are in a mode and in Wire, and hold lock or not. -/
def laned (mode lock : Nat) : State :=
  put up ([(PG_CTL_RUN, pgLN 15, 0, 1), (PG_STS_RUNNING, pgLN 15, 0, 1), (LN_QSTS_LOCKED, pgLN 15, 0, 1), (CK_STS_REFST, pgCK, 0, 2)] ++
    (List.range 4).flatMap fun k => [(LN_LCFG_MODE, pgLN 15, k, mode), (LN_LPWR_STATE, pgLN 15, k, 0), (LN_LSTS_LOCK, pgLN 15, k, lock)])

/-- Link port 15 over four lanes of that quad, for a use and in a state. -/
def porting (s : State) (use st : Nat) (x : PortSt := {}) : State :=
  upd (put s [(LN_PCTL_EN, pgLN 15, 0, 1), (LN_PCFG_USE, pgLN 15, 0, use), (LN_PSTS_STATE, pgLN 15, 0, st), (LN_PCFG_BASE, pgLN 15, 0, 60),
    (LN_PCFG_WIDTH, pgLN 15, 0, 2), (LN_PSTS_CURW, pgLN 15, 0, 2), (LN_PSTS_CURBASE, pgLN 15, 0, 60)]) fun c => c.setPort 15 { x with started := true }

theorem witness_LanesAndRings_lock_1 :
    ((up.chip.running (pgLN 15) && up.chip.domOn (domOf (pgLN 15)) && up.chip.get CK_STS_REFST pgCK == 2 && !(quadLanes 15).all up.chip.laneDark) = false ∧
      (laned 1 0).chip.running (pgLN 15) = true ∧ (laned 1 0).chip.domOn (domOf (pgLN 15)) = true ∧ (laned 1 0).chip.get CK_STS_REFST pgCK = 2 ∧
      (∃ x < 4, (laned 1 0).chip.laneDark (4 * 15 + x) = false)) := by
  try unfold Chip.mayReport
  try unfold Chip.lockedGroup
  decide +kernel

theorem witness_LanesAndRings_lock_2 :
    (up.chip.laneWorks 63 = false ∧ (laned 1 0).chip.laneWorks 63 = true ∧ 15 ∈ (porting (laned 1 1) 1 0).chip.portsOn 63 ∧
      (porting (laned 1 1) 1 0).chip.laneWorks 63 = true ∧ (porting (laned 1 1) 1 0).chip.portState 15 = 0 ∧
      (porting (laned 1 1) 1 0).chip.get LN_PCTL_EN (pgLN 15) = 1 ∧ (porting (laned 1 1) 1 0).chip.portRuns 15 = true ∧
      (∀ x ∈ (porting (laned 1 1) 1 0).chip.portLanes 15, (porting (laned 1 1) 1 0).chip.laneLock x = true) ∧ (porting (laned 1 1) 1 0).chip.portUse 15 ≠ 0 ∧
      0 ∉ (porting (laned 1 1) 1 0).chip.portsOn 63) := by
  try unfold Chip.mayReport
  try unfold Chip.lockedGroup
  decide +kernel

theorem witness_LanesAndRings_lock_3 :
    (up.chip.laneLock 63 = false ∧ (laned 1 1).chip.laneLock 63 = true ∧ (laned 1 1).chip.portsOn 63 = [] ∧
      (laned 1 1).chip.get LN_LPWR_STATE (pgLN 15) 3 < 2 ∧ (laned 1 1).chip.get LN_LCFG_MODE (pgLN 15) 3 ≠ 0 ∧ (laned 1 1).chip.mayReport (pgLN 15) 2 ∧
      (∃ p ∈ (porting (laned 1 1) 1 3 { farGlide := true }).chip.portsOn 63, ((porting (laned 1 1) 1 3 { farGlide := true }).chip.portSt p).farGlide = true) ∧
      (porting (laned 1 1) 1 3).chip.portsOn 63 = [15] ∧ ((porting (laned 1 1) 1 3).chip.portSt 15).farGlide = false ∧
      (porting (laned 1 1) 1 3).chip.portState 15 = 3 ∧ 63 ∈ (porting (laned 1 1) 1 3).chip.portNow 15 ∧ (porting (laned 1 1) 1 3).chip.laneLock 63 = true ∧
      (put (porting (laned 1 1) 1 3) [(LN_PSTS_CURW, pgLN 15, 0, 1)]).chip.portsOn 63 = [15] ∧
      63 ∉ (put (porting (laned 1 1) 1 3) [(LN_PSTS_CURW, pgLN 15, 0, 1)]).chip.portNow 15) := by
  try unfold Chip.mayReport
  try unfold Chip.lockedGroup
  decide +kernel

theorem witness_LanesAndRings_lock_4 :
    ((put (porting (laned 1 1) 1 3) [(LN_LSTS_LOCK, pgLN 15, 3, 0)]).chip.lockedGroup 60 2 1 0 ∧ (porting (laned 1 1) 3 3).chip.portUse 15 = 3 ∧
      (∀ e < 2, ∀ i < 2 ^ (2 - e), ¬(put (porting (laned 1 0) 3 3) [(LN_LSTS_LOCK, pgLN 15, 3, 1)]).chip.lockedGroup 60 2 e i ∨ e = 0 ∧ i = 3) ∧
      (put (porting (laned 1 0) 3 3) [(LN_LSTS_LOCK, pgLN 15, 3, 1)]).chip.laneLock 63 = true ∧
      (porting (laned 1 1) 1 3).chip.mayReport (pgLN 15) 6 ∧ (porting (laned 1 1) 1 2).chip.portState 15 = 2 ∧ (porting (laned 1 1) 1 1).chip.portState 15 = 1) := by
  try unfold Chip.mayReport
  try unfold Chip.lockedGroup
  decide +kernel

theorem witness_LanesAndRings_power :
    ((laned 1 1).reaches .host (pgLN 15) (LN_LPWR_REQ.off + LN_LPWR_REQ.stride * 3) ∧ (laned 1 1).chip.get LN_LPWR_STATE (pgLN 15) 3 = 0 ∧
      (put (laned 1 1) [(LN_LPWR_STATE, pgLN 15, 3, 3)]).chip.get LN_LPWR_STATE (pgLN 15) 3 = 3 ∧ (laned 1 1).chip.portsOn 63 = [] ∧
      (∃ p ∈ (put (porting (laned 1 1) 1 3) [(LN_PCFG_AUTOGLIDE, pgLN 15, 0, 1)]).chip.portsOn 63,
        (put (porting (laned 1 1) 1 3) [(LN_PCFG_AUTOGLIDE, pgLN 15, 0, 1)]).chip.get LN_PCFG_AUTOGLIDE (pgLN p) = 1)) ∧
    (upd (put (laned 1 1) [(LN_LPWR_STATE, pgLN 15, 3, 3)]) (fun c => c.setLane 63 { target := 2 })).chip.portsOn 63 = [] ∧
    ((upd (put (laned 1 1) [(LN_LPWR_STATE, pgLN 15, 3, 3)]) (fun c => c.setLane 63 { target := 2 })).chip.laneSt 63).target = 2 := by
  unfold State.reaches; decide +kernel

/-- Lane 63 has an RX ring in the block-RAM windows that is on, with `n` lines free and this lane state. -/
def ringed (x : LaneSt) (wp : Nat) : State :=
  upd (put (laned 4 1) [(LN_RINGCTL_RXEN, pgLN 15, 3, 1), (LN_RXWP_PTR, pgLN 15, 3, wp)]) fun c => c.setLane 63 x

theorem witness_LanesAndRings_rings :
    (∀ EN ∈ [LN_RINGCTL_TXEN, LN_RINGCTL_RXEN], (laned 4 1).chip.get EN (pgLN 15) 3 ≠ 1 ∧
      (put (laned 4 1) [(EN, pgLN 15, 3, 1)]).chip.get EN (pgLN 15) 3 = 1) ∧
    ((laned 4 1).reaches .host (pgLN 15) (LN_RINGCTL_TXEN.off + LN_RINGCTL_TXEN.stride * 3) ∧
      (∀ tx ∈ [false, true], (laned 4 1).chip.bufferCheck 58 ((laned 4 1).chip.ringAt 63 tx) (64 * (laned 4 1).chip.ringLines 63 tx) ≠ 0) ∧
      (put (laned 4 1) [(LN_TXBASEH_ADDR, pgLN 15, 3, spBase / 2 ^ 32), (LN_TXBASEL_ADDR, pgLN 15, 3, spBase % 2 ^ 32 / 4096)]).chip.bufferCheck 58 spBase (64 * 64) = 0 ∧
      (put (laned 4 1) [(LN_TXBASEH_ADDR, pgLN 15, 3, spBase / 2 ^ 32), (LN_TXBASEL_ADDR, pgLN 15, 3, spBase % 2 ^ 32 / 4096)]).chip.ringAt 63 true = spBase ∧
      (laned 4 1).chip.ringLines 63 true = 64 ∧ (laned 4 1).chip.mayReport (pgLN 15) 4) ∧
    (up.chip.laneWorks 63 = false ∧ (laned 4 1).chip.laneWorks 63 = true ∧ (laned 4 1).chip.laneLock 63 = true ∧ 2 ≤ (laned 4 1).chip.get LN_LCFG_MODE (pgLN 15) 3 ∧
      (laned 4 1).chip.accepts (pgLN 15) = true ∧ (laned 4 1).chip.get LN_RINGCTL_RXEN (pgLN 15) 3 = 0 ∧ (laned 1 1).chip.get LN_LCFG_MODE (pgLN 15) 3 < 2) ∧
    ((ringed {} 63).chip.get LN_RINGCTL_RXEN (pgLN 15) 3 = 1 ∧ (ringed {} 63).chip.rxFree 63 = 0 ∧ ((ringed {} 63).chip.laneSt 63).ovf = false ∧
      ((ringed { ovf := true } 63).chip.laneSt 63).ovf = true ∧ (ringed {} 63).chip.laneWorks 63 = true ∧ (ringed {} 63).chip.mayReport (pgLN 15) 3 ∧
      (ringed {} 62).chip.rxFree 63 ≠ 0 ∧ ((ringed {} 62).chip.laneSt 63).rx.length < 8 ∧ (ringed {} 62).chip.rxSlot 63 = 62) ∧
    ((laned 1 1).reaches .host (pgLN 15) LN_PCTL_EN.off ∧ (porting (laned 1 1) 1 0).chip.get LN_PCTL_EN (pgLN 15) = 1 ∧
      (laned 1 1).chip.get LN_PCTL_EN (pgLN 15) ≠ 1 ∧ (laned 1 1).chip.portUse 15 = 0 ∧
      (let s := put (laned 1 1) [(LN_PCFG_USE, pgLN 15, 0, 3), (LN_PCFG_BASE, pgLN 15, 0, 60), (LN_PCFG_WIDTH, pgLN 15, 0, 2)]
       s.chip.running (pgLN 15) && s.chip.accepts (pgLN 15) && !(s.chip.portSt 15).started && s.chip.portUse 15 != 0 && s.chip.portConfig 15 &&
        s.chip.portRuns 15 && (s.chip.portLanes 15).all s.chip.laneLock) = true ∧
      (let s := put (laned 1 1) [(LN_PCFG_USE, pgLN 15, 0, 3), (LN_PCFG_BASE, pgLN 15, 0, 61), (LN_PCFG_WIDTH, pgLN 15, 0, 2)]
       s.chip.running (pgLN 15) && s.chip.accepts (pgLN 15) && !(s.chip.portSt 15).started && s.chip.portUse 15 != 0 && !s.chip.portConfig 15) = true) := by
  unfold State.reaches Chip.mayReport; decide +kernel

/-- A flit with its CRC, and a control block with its check. -/
def flit (seq ch pay : Nat) : BitVec 576 :=
  BitVec.ofNat 576 (seq + ch * 2 ^ 8 + (crc32 (natLe 4 (seq + ch * 2 ^ 8) ++ natLe 64 pay)).toNat * 2 ^ 32 + pay * 2 ^ 64)
def block (v : Nat) : BitVec 64 := BitVec.ofNat 64 (v + crc8 (natLe 7 v) * 2 ^ 56)

/-- The port hears, in a state. -/
def hears (s : State) (st : Nat) : Bool := s.chip.portHears 15 && s.chip.portState 15 == st

/-- A message port whose lane 60 has an RX ring. -/
def messaging : State := put (porting (laned 1 1) 3 3) [(LN_RINGCTL_RXEN, pgLN 15, 0, 1)]

theorem witness_LinkPortsExchange_flits_1 :
    (up.chip.portStill 15 ∧ up.chip.portHears 15 = false ∧ up.chip.portState 15 ≠ 3 ∧ (porting (laned 1 1) 1 3).chip.portStill 15 ∧
      hears (porting (laned 1 1) 1 3) 3 = true) := by
  try unfold Chip.portStill
  decide +kernel

set_option maxRecDepth 8000 in
theorem witness_LinkPortsExchange_flits_2 :
    (flitCrc 0 ≠ bitsOf (0 : BitVec 576).toNat 63 32 ∧ flitCrc (flit 0 0 1) = bitsOf (flit 0 0 1).toNat 63 32 ∧ bitsOf (flit 0 0 1).toNat 9 8 = 0) := by
  try unfold Chip.portStill
  decide +kernel

set_option maxRecDepth 8000 in
theorem witness_LinkPortsExchange_flits_3 :
    (flitCrc (flit 0 1 1) = bitsOf (flit 0 1 1).toNat 63 32 ∧ bitsOf (flit 0 1 1).toNat 9 8 = 1 ∧ (flit 0 1 1).toNat % 256 = (255 + 1) % 256 ∧
      ((porting (laned 1 1) 1 3).chip.portSt 15).rseq = 255 ∧ (porting (laned 1 1) 1 3).chip.portTakes 15 = true ∧ (porting (laned 1 1) 1 3).chip.portUse 15 = 1) := by
  try unfold Chip.portStill
  decide +kernel

set_option maxRecDepth 8000 in
theorem witness_LinkPortsExchange_flits_4 :
    (flitCrc (flit 0 2 4) = bitsOf (flit 0 2 4).toNat 63 32 ∧ bitsOf (flit 0 2 4).toNat 9 8 = 2 ∧ (porting (laned 1 1) 2 3).chip.portUse 15 = 2 ∧
      hears (porting (laned 1 1) 2 3) 3 = true ∧ (porting (laned 1 1) 2 3).chip.portStill 15 ∧ (porting (laned 1 1) 2 3).chip.portTakes 15 = true ∧
      (([] : List (BitVec 512)) ++ [(flit 0 2 4).extractLsb' 64 512]).head? = some 4 ∧ pmpFlits 4 ≤ 0 + 1 ∧ pmpType 4 = 4 ∧
      flitCrc (flit 0 2 3) = bitsOf (flit 0 2 3).toNat 63 32 ∧ (([] : List (BitVec 512)) ++ [(flit 0 2 3).extractLsb' 64 512]).head? = some 3 ∧ 0 + 1 < pmpFlits 3) := by
  try unfold Chip.portStill
  decide +kernel

set_option maxRecDepth 8000 in
theorem witness_LinkPortsExchange_flits_5 :
    (flitCrc (flit 0 3 1) = bitsOf (flit 0 3 1).toNat 63 32 ∧ bitsOf (flit 0 3 1).toNat 9 8 = 3 ∧ messaging.chip.portUse 15 = 3 ∧ hears messaging 3 = true ∧
      messaging.chip.portStill 15 ∧ messaging.chip.portTakes 15 = true ∧ messaging.chip.get LN_PCFG_BASE (pgLN 15) = 60 ∧
      (porting (laned 1 1) 3 3).chip.portTakes 15 = false) := by
  try unfold Chip.portStill
  decide +kernel

theorem witness_LinkPortsExchange_blocks :
    (ctlOk 0xFF00000000000000 = false ∧ (∀ t < 6, ctlOk (block t) = true ∧ (block t).toNat % 256 = t) ∧
      (∀ t < 6, ((controlBlocks 15 (block t)).map (·.2)).contains t = true) ∧ (controlBlocks 15 (block 0)).all (fun io => decide (io.2 < 6)) = true) ∧
    (hears (porting (laned 1 1) 1 1) 1 = true ∧ (porting (laned 1 1) 1 1).chip.portStill 15 ∧ ((porting (laned 1 1) 1 1).chip.portSt 15).shedding = false ∧
      hears (porting (laned 1 1) 1 2) 2 = true ∧ (porting (laned 1 1) 1 2).chip.portStill 15) ∧
    (ctlOk (block (2 + 2 * 2 ^ 32 + 2 ^ 43)) = true ∧ (block (2 + 2 * 2 ^ 32 + 2 ^ 43)).toNat % 256 = 2 ∧
      bitsOf (block (2 + 2 * 2 ^ 32 + 2 ^ 43)).toNat 33 32 = (porting (laned 1 1) 1 2).chip.get LN_PSTS_CURW (pgLN 15) ∧
      bitsOf (block (2 + 2 * 2 ^ 32 + 2 ^ 43)).toNat 44 43 = (porting (laned 1 1) 1 2).chip.portUse 15 ∧ bitsOf (block 2).toNat 33 32 ≠ 2 ∧
      ((porting (laned 1 1) 1 2 { ann := 7 }).chip.portSt 15).ann = 7 ∧ hears (porting (laned 1 1) 1 2 { ann := 7 }) 2 = true ∧
      ((porting (laned 1 1) 1 2 { ann := 6 }).chip.portSt 15).ann = 6 ∧ (porting (laned 1 1) 1 2 { ann := 7 }).chip.portStill 15) := by
  unfold Chip.portStill; decide +kernel

theorem witness_LinkPortsExchange_up_1 :
    (hears (porting (laned 1 1) 3 3 { sent := [(0, 1)], replays := 6 }) 3 = true ∧ (porting (laned 1 1) 3 3 { sent := [(0, 1)], replays := 6 }).chip.portStill 15 ∧
      (PortSt.credited ((porting (laned 1 1) 3 3 { sent := [(0, 1)], replays := 6 }).chip.portSt 15) (block (1 + 255 * 2 ^ 16))).replays < 7 ∧
      (porting (laned 1 1) 3 3).chip.portUse 15 = 3 ∧ (porting (laned 1 1) 3 3).chip.get LN_PCTL_EN (pgLN 15) = 1 ∧
      (porting (laned 1 1) 3 3).chip.mayReport (pgLN 15) 5 ∧ (porting (laned 1 1) 3 3).chip.mayReport (pgLN 15) 6) := by
  try unfold State.reaches
  try unfold Chip.portStill
  try unfold Chip.mayReport
  decide +kernel

theorem witness_LinkPortsExchange_up_2 :
    (ctlOk (block (4 + 2 ^ 32 + 2 * 2 ^ 34)) = true ∧ (block (4 + 2 ^ 32 + 2 * 2 ^ 34)).toNat % 256 = 4 ∧ bitsOf (block (4 + 2 ^ 32 + 2 * 2 ^ 34)).toNat 33 32 = 1 ∧
      bitsOf (block (4 + 2 ^ 32 + 2 * 2 ^ 34)).toNat 36 34 = 2 ∧ 1 < (porting (laned 1 1) 3 3).chip.get LN_PCFG_WIDTH (pgLN 15) ∧ 2 % 2 ^ 1 = 0 ∧
      2 + 2 ^ 1 ≤ 2 ^ (porting (laned 1 1) 3 3).chip.get LN_PCFG_WIDTH (pgLN 15) ∧ bitsOf (block (4 + 2 * 2 ^ 32)).toNat 33 32 = 2 ∧
      ¬(2 < (porting (laned 1 1) 3 3).chip.get LN_PCFG_WIDTH (pgLN 15)) ∧ ctlOk (block (4 + 2 * 2 ^ 32)) = true) := by
  try unfold State.reaches
  try unfold Chip.portStill
  try unfold Chip.mayReport
  decide +kernel

theorem witness_LinkPortsExchange_up_3 :
    (((porting (laned 1 1) 3 3 { shedding := true }).chip.portSt 15).shedding = true ∧ ((porting (laned 1 1) 3 3).chip.portSt 15).shedding = false ∧
      (porting (laned 1 1) 3 3 { shedding := true }).chip.portStill 15 ∧ hears (porting (laned 1 1) 3 3 { shedding := true }) 3 = true) := by
  try unfold State.reaches
  try unfold Chip.portStill
  try unfold Chip.mayReport
  decide +kernel

theorem witness_LinkPortsExchange_up_4 :
    ((porting (laned 1 1) 3 3).chip.stepsRun = true ∧ ((porting (laned 1 1) 3 3).chip.portSt 15).replays < 7 ∧
      ((porting (laned 1 1) 3 3).chip.portState 15 == 3 && (porting (laned 1 1) 3 3).chip.bit LN_PCFG_AUTOGLIDE (pgLN 15)) = false ∧
      (let c := (put (porting (laned 1 1) 3 3) [(LN_PCFG_AUTOGLIDE, pgLN 15, 0, 1)]).chip
       c.portState 15 == 3 && c.bit LN_PCFG_AUTOGLIDE (pgLN 15) && (c.portSt 15).sent.isEmpty && !(c.portSt 15).gliding && c.stepsRun) = true ∧
      (put (porting (laned 1 1) 3 3) [(LN_PCFG_AUTOGLIDE, pgLN 15, 0, 1)]).chip.portStill 15) := by
  try unfold State.reaches
  try unfold Chip.portStill
  try unfold Chip.mayReport
  decide +kernel

theorem witness_LinkPortsExchange_up_5 :
    ((porting (laned 1 1) 3 3).reaches .host (pgLN 15) LN_PCTL_EN.off ∧ (porting (laned 1 1) 3 3).chip.get LN_PCTL_EN (pgLN 15) = (1 : BitVec 32).toNat % 2 ∧
      (porting (laned 1 1) 3 2).chip.portState 15 ≠ 3 ∧ (∀ l ∈ (porting (laned 1 1) 3 3).chip.portLanes 15, (porting (laned 1 1) 3 3).chip.laneLock l = true)) := by
  try unfold State.reaches
  try unfold Chip.portStill
  try unfold Chip.mayReport
  decide +kernel

/-! ## The host port -/

/-- The link of the host port is up, with another state of the host port. -/
def hosted (s : State) (f : HostSt → HostSt := id) : State := upd (put s [(HP_LINK_DLUP, pgHP, 0, 1), (PG_CTL_RUN, pgHP, 0, 1), (PG_STS_RUNNING, pgHP, 0, 1)]) fun c =>
  { c with pin := { c.pin with perst := false }, link := { c.link with host := f c.link.host } }

/-- The host window is the last GiB but one of device space. -/
def windowedHost : State := put (hosted up) [(HP_WIN_BASE, pgHP, 0, 2 ^ 14 - 1)]

/-- The host link may train. -/
def trainable : State := upd (put up [(CK_LOOPSTS_HOST, pgCK, 0, 1)]) fun c => { c with pin := { c.pin with perst := false } }

theorem witness_HostPortServes_requests :
    (up.chip.hostUp = false ∧ (hosted up).chip.hostUp = true ∧ (hosted up).chip.link.host.flr = false ∧
      (hosted up fun h => { h with flr := true }).chip.link.host.flr = true) ∧
    (HostForm.odd .poisoned true = true ∧ HostForm.odd .poisoned false = false ∧ HostForm.odd .atomic true = true ∧ HostForm.odd .locked false = true ∧
      HostForm.odd .memory true = false ∧ (hosted up).chip.hostD3 = false ∧ (hosted up fun h => { h with cfg := [(cfgPmcsr, 3)] }).chip.hostD3 = true ∧
      (hosted up fun h => { h with cfg := [(cfgPmcsr, 3)] }).chip.hostUp = true) ∧
    ((hosted up).chip.link.host.reqs = [] ∧ windowStore 0x17FFFF8 = some .sched ∧ windowStore 0 ≠ some .sched ∧ 0x17FFFF8 % 8 = 0 ∧
      (0x17FFFF8 : BitVec 28).toNat / 4 * 4 = 0x17FFFF8 ∧ (0xFFFFFFC : BitVec 28).toNat / 4 * 4 = 0xFFFFFFC ∧ 0xFFFFFFC % 8 ≠ 0) ∧
    (windowedHost.chip.hostUp = true ∧ windowedHost.chip.link.host.reqs = [] ∧ windowedHost.chip.get HP_WIN_BASE pgHP * 2 ^ 30 + (2 ^ 30 - 1) + 1 = 2 ^ 44 ∧
      windowedHost.chip.accepts pgHP = true ∧ windowedHost.chip.works pgHP = true ∧ (put windowedHost [(PG_STS_RUNNING, pgHP, 0, 0)]).chip.works pgHP = false) :=
  by decide +kernel

theorem witness_HostPortServes_registers :
    ((∀ x < 64, (hosted up).chip.msixPend x = false) ∧ (4 : BitVec 10).toNat ≠ cfgDevCtl ∧ (0x1E : BitVec 10).toNat = cfgDevCtl ∧ (2 : BitVec 4).getLsbD 1 = true ∧
      (0x8000 : BitVec 32).getLsbD 15 = true) ∧
    ((∀ high ∈ [false, true], (hosted up).reaches .host pgHP (if high then HP_MSIFRCH_FRC.off else HP_MSIFRCL_FRC.off)) ∧
      (hosted up).chip.pin.perst = false ∧
      (upd (hosted up) fun c => { c with pin := { c.pin with perst := true } }).reaches .host pgHP HP_MSIFRCH_FRC.off ∧
      (upd (hosted up) fun c => { c with pin := { c.pin with perst := true } }).chip.pin.perst = true ∧
      (hosted up fun h => { h with cfg := [(cfgMsix, 0x80000000)] }).chip.get MSIX_CTL_MASK pgHP 63 = 1 ∧
      (put (hosted up fun h => { h with cfg := [(cfgMsix, 0x80000000)] }) [(MSIX_CTL_MASK, pgHP, 63, 0)]).chip.msixOpen 63 = true) ∧
    ((trainable.chip.domOn 79 && !trainable.chip.pin.perst && trainable.chip.bit CK_LOOPSTS_HOST pgCK) = true ∧
      (up.chip.domOn 79 && !up.chip.pin.perst && up.chip.bit CK_LOOPSTS_HOST pgCK) = false ∧ (8 : BitVec 4).toNat = 8 ∧ (4 : BitVec 4).toNat ≤ 4) ∧
    ((phased up 79 .off).chip.domOn 79 = false ∧ up.chip.domOn 79 = true ∧ up.chip.get HP_LINK_DLUP pgHP ≠ 1 ∧ (hosted up).chip.get HP_LINK_DLUP pgHP = 1 ∧
      (hosted up).chip.mayReport pgHP 0) := by unfold State.reaches Chip.mayReport; decide +kernel

theorem witness_UnassignedOffsetsReadZero :
    fieldsAt pgGL 0xFFC = [] ∧ fieldsAt pgEV 0x7FC = [] ∧ up.chip.regReach .host pgGL 0xFFC false = 0 ∧ up.reaches .host pgGL 0xFFC ∧
      up.reaches .host pgEV 0x7FC := by unfold State.reaches; decide +kernel

/-! ## Known answers and single commands -/

/-- The state after a command; the state itself where it answers none. -/
def after (i : Instr) (s : State) : State := match exec i s with | .next t => t | _ => s

/-- The digits 1 to 9 in ASCII. -/
def digits : List (BitVec 8) := [0x31, 0x32, 0x33, 0x34, 0x35, 0x36, 0x37, 0x38, 0x39]

/- The check value of CRC-32 (03, R94 names the polynomial and the bit order; its catalogue value). -/
theorem test_crc32_check_value : crc32 digits = 0xCBF43926 := by decide +kernel
/- The check value of the reflected ECMA-182 CRC-64 (11, R315). -/
theorem test_crc64_check_value : crc64 digits = 0x995DC9BBDF1939FA := by decide +kernel
/- The check value of CRC-8 with polynomial 0x07 (15, R429). -/
theorem test_crc8_check_value : crc8 digits = 0xF4 := by decide +kernel
/- FIPS 180-4, the one-block example "abc". -/
theorem test_sha256_abc : sha256 [0x61, 0x62, 0x63] =
    natBe 32 0xBA7816BF8F01CFEA414140DE5DAE2223B00361A396177A9CB410FF61F20015AD := by decide +kernel
/- FIPS 197, appendix C.3. -/
set_option maxRecDepth 8000 in
theorem test_aes256_example : aes256 (List.range 32) ((List.range 16).map (17 * ·)) =
    beBytes 16 0x8EA2B7CA516745BFEAFC49904B496089 := by decide +kernel
/- RFC 4231, test case 2. -/
theorem test_hmac_example : hmac [0x4A, 0x65, 0x66, 0x65]
    [0x77, 0x68, 0x61, 0x74, 0x20, 0x64, 0x6F, 0x20, 0x79, 0x61, 0x20, 0x77, 0x61, 0x6E, 0x74, 0x20, 0x66, 0x6F, 0x72, 0x20, 0x6E, 0x6F, 0x74, 0x68, 0x69,
      0x6E, 0x67, 0x3F] = natBe 32 0x5BDCC146BF60754E6A042426089575C75A003F089D2739839DEC58B964EC3843 := by decide +kernel
/- A stored word with one wrong bit is corrected, with two it is not (03, R84). -/
theorem test_ecc : eccDecode (secded 0x123456789ABCDEF0 ^^^ 1) = .fixed 0x123456789ABCDEF0 ∧
    (eccDecode (secded 0x123456789ABCDEF0 ^^^ 3)).isBad = true := by decide +kernel

/- The front command is taken first, and the rest of the queue stays. -/
theorem test_step_takes_the_front : (match step { up with pending := [.runSet .host (pgSP 0), .runClear .host (pgSP 0)] } with
    | .next t => (t.chip.get PG_CTL_RUN (pgSP 0), t.pending) | _ => (9, [])) = (1, [.runClear .host (pgSP 0)]) := by decide +kernel

/- Registers (00, R15 to R20; 01, R44, R49). -/
theorem test_register_write : (after (.registerWrite .host (pgSP 0) SP_RET_RET.off 0x80000001) up).chip.get SP_RET_RET (pgSP 0) 0 = 0x80000001 := by
  decide +kernel
theorem test_write_of_an_absent_offset : (after (.registerWrite .host pgGL 0xFFC 1) up).chip.regs = up.chip.regs := by decide +kernel
theorem test_run_clear : (after (.runClear .host (pgSP 0)) (runs up (pgSP 0))).chip.get PG_CTL_RUN (pgSP 0) = 0 := by decide +kernel
theorem test_clken_clear : (after (.clkenClear .host (pgSP 0)) up).chip.get PG_CTL_CLKEN (pgSP 0) = 0 := by decide +kernel

/- Power (17, R469): a domain that is off waits for its slot. -/
theorem test_power_on_request : ((after (.powerOnRequest .host (pgEG 0)) dark).chip.dom 0).phase = .waiting := by decide +kernel

/- The scratchpad (13, R360): the reserved owner code 0x4E leaves OWNER as it is, and 0x4D is taken. -/
theorem test_bank_owner_reserved : (after (.bankHandover .host 0 0x4E) up).chip.get SP_OWN_OWNER (pgSP 1) 0 = up.chip.get SP_OWN_OWNER (pgSP 1) 0 := by
  decide +kernel
theorem test_bank_owner_taken : (after (.bankHandover .host 0 0x4D) up).chip.get SP_OWN_OWNER (pgSP 1) 0 = 0x4D := by decide +kernel

/- Keys (14, R387): slot 0 takes none. -/
theorem test_key_slot_zero : (after (.keyLoad .host 0 0) up).chip.get MC_KCMD_ERR (pgMC 0 0) = 2 := by decide +kernel
theorem test_key_load : (after (.keyLoad .host 0 1) up).chip.get MC_KSLOT_STATE (pgMC 0 1) 1 = 1 := by decide +kernel

/- The host port (15, R436): vendor 0x1F3A, device 0x0512. -/
theorem test_host_identity : up.chip.cfgRead 0 = 0x05121F3A := by decide +kernel
end Sys2Proof.Tests
end

section
/-! # Accesses to offsets at which no register stands (00, R15)

An access that passes the checks of R33 and R34 acts on its page; it has passed the check that the page exists, so at an
offset without fields the page answers by itself and is left alone. -/
namespace Sys2Proof.Machine

/-! ## Accesses that pass the checks of R34 -/

/-- A register read that the checks let through is the read of its page. -/
theorem Chip.readReg_reached {c : Chip} {w : Who} {pg off : Nat} (peek : Bool) (h : c.regReach w pg off false = 0) :
    c.readReg w pg off peek =
      ((c.pageRead w pg off (c.peeks_ pg peek)).1, 0, (c.pageRead w pg off (c.peeks_ pg peek)).2) :=
  if_neg (not_not.mpr h)

/-- A register write that the checks let through is the write of its page. -/
theorem Chip.writeReg_reached {c : Chip} {w : Who} {pg off : Nat} (v : Nat) (h : c.regReach w pg off true = 0) :
    c.writeReg w pg off v = c.pageWrite w pg off v :=
  if_neg (not_not.mpr h)

/-- An access that the checks let through names a page that exists (01, R34). -/
theorem Chip.pageKind_isSome_of_regReach {c : Chip} {w : Who} {pg off : Nat} {write : Bool}
    (h : c.regReach w pg off write = 0) : (pageKind pg).isSome := by
  unfold Chip.regReach at h
  split at h
  · exact absurd h (by decide)
  · split at h
    · exact absurd h (by decide)
    · next hpg => simpa [← Option.isSome_iff_ne_none] using hpg

/-- A read command that the checks let through answers with the value of its page, and without an error. -/
theorem exec_rcRead_reached {s : State} {w : Who} {pg off : Nat} (peek : Bool) (h : s.chip.regReach w pg off false = 0) :
    exec (.rcRead w pg off peek) s =
      .next { s with chip := (s.chip.pageRead w pg off (s.chip.peeks_ pg peek)).2, code := 0,
                     rdata := BitVec.ofNat 32 (s.chip.pageRead w pg off (s.chip.peeks_ pg peek)).1 } := by
  show Host.Outcome.next (s.reads w pg off peek) = _
  rw [State.reads, Chip.readReg_reached peek h]

/-- A write command that reaches its register answers with the code and the device of the write of its page. -/
theorem exec_registerWrite_reached {s : State} {w : Who} {pg off : Nat} (v : BitVec 32) (h : s.reaches w pg off) :
    exec (.registerWrite w pg off v) s =
      .next { s with chip := (s.chip.pageWrite w pg off v.toNat).2, code := (s.chip.pageWrite w pg off v.toNat).1 } := by
  show Host.Outcome.next (s.writes w pg off v.toNat) = _
  rw [State.writes, Chip.writeReg_reached v.toNat h]

/-! ## Offsets without fields -/

/-- Outside the read window of the recorder, an offset without fields reads 0 and the read leaves the device alone. -/
theorem Chip.pageRead_unassigned (c : Chip) (w : Who) {pg off : Nat} (peek : Bool) (hf : fieldsAt pg off = [])
    (hw : ¬(pg = pgEV ∧ 0x800 ≤ off)) : c.pageRead w pg off peek = (0, c) := by
  rw [Chip.pageRead, if_neg hw, hf]
  rfl

/-- On a page that exists, a write to an offset without fields is ignored and is no error. -/
theorem Chip.pageWrite_unassigned (c : Chip) (w : Who) {pg off : Nat} (v : Nat) (hf : fieldsAt pg off = [])
    (hp : (pageKind pg).isSome) : c.pageWrite w pg off v = (0, c) := by
  rw [Chip.pageWrite, hf, hp]
  rfl

/-- Settles O60: the read and the write each reach the page, which ignores them. -/
theorem unassignedOffsetsReadZero : Obligations.UnassignedOffsetsReadZero := by
  intro w pg off peek v s hf hw
  constructor
  · intro hr
    rw [exec_rcRead_reached peek hr, Chip.pageRead_unassigned s.chip w (s.chip.peeks_ pg peek) hf hw]
    rfl
  · intro hr
    rw [exec_registerWrite_reached v hr,
      Chip.pageWrite_unassigned s.chip w v.toNat hf (Chip.pageKind_isSome_of_regReach hr)]

end Sys2Proof.Machine
end

section
/-! # The masters of the register space (01, R33)

The check of R33 comes after those of MAIN and of the page, and before all others: on a mapped page of a device with MAIN
up it alone decides whether an access is denied, and a denied access stops there. -/
namespace Sys2Proof.Machine

/-! ## Accesses that a check refuses -/

/-- A register read that a check refuses gives 0 and the code of that check, and leaves the device alone. -/
theorem Chip.readReg_refused {c : Chip} {w : Who} {pg off : Nat} (peek : Bool) (h : c.regReach w pg off false ≠ 0) :
    c.readReg w pg off peek = (0, c.regReach w pg off false, c) :=
  if_pos h

/-- Every command that reads a register for a master is the read of that register, with the peek attribute or without. -/
theorem exec_of_readTarget {i : Instr} (s : State) {w : Who} {pg off : Nat} (h : readTarget i = some (w, pg, off)) :
    ∃ peek, exec i s = .next (s.reads w pg off peek) := by
  unfold readTarget at h
  split at h
  case h_4 => cases h
  all_goals
    obtain ⟨rfl, rfl, rfl⟩ := h
    exact ⟨_, rfl⟩

/-- A command that reads a register and is refused changes the answer and the data alone; the data reads 0. -/
theorem exec_refused_of_readTarget {i : Instr} {s : State} {w : Who} {pg off : Nat}
    (hi : readTarget i = some (w, pg, off)) (h : s.chip.regReach w pg off false ≠ 0) :
    exec i s = .next { s with code := s.chip.regReach w pg off false, rdata := 0 } := by
  obtain ⟨peek, hexec⟩ := exec_of_readTarget s hi
  rw [hexec, State.reads, Chip.readReg_refused peek h]
  rfl

/-- A command that writes a register and is refused changes the answer alone. -/
theorem exec_refused_of_writeTarget {i : Instr} {s : State} {w : Who} {pg off : Nat}
    (hi : writeTarget i = some (w, pg, off)) (h : s.chip.regReach w pg off true ≠ 0) :
    exec i s = .next { s with code := s.chip.regReach w pg off true } := by
  obtain ⟨f, hexec⟩ := exec_of_writeTarget i s hi
  rw [hexec, State.through_refused s w pg off f h]

/-! ## Which check denies -/

/-- While MAIN is up, an access to a page that exists meets the check of the master first (01, R33, R34). -/
theorem Chip.regReach_of_mapped {c : Chip} {pg : Nat} (hmain : c.rst.mainRel = true) (hpg : (pageKind pg).isSome = true)
    (w : Who) (off : Nat) (write : Bool) :
    c.regReach w pg off write =
      if w = .other ∨ (w = .fabric ∧ c.get GL_REGACC_FAB pgGL ≠ 1) then errDenied
      else if off % 4 ≠ 0 then errAlign
      else c.pageCode w pg off write := by
  have hmapped : pageKind pg ≠ none := Option.isSome_iff_ne_none.mp hpg
  simp [Chip.regReach, Chip.collects, Chip.bit, hmain, hmapped]

/-- The checks of a page refuse for its decoding, its power and its clock, never for the master (01, R34). -/
theorem Chip.pageCode_ne_errDenied (c : Chip) (w : Who) (pg off : Nat) (write : Bool) :
    c.pageCode w pg off write ≠ errDenied := by
  unfold Chip.pageCode
  split
  case h_1 => decide
  case h_2 => dsimp only; split_ifs <;> decide

/-- While MAIN is up, an access to a page that exists is denied exactly where R33 does not admit its master. -/
theorem Chip.regReach_eq_errDenied_iff {c : Chip} {pg : Nat} (hmain : c.rst.mainRel = true)
    (hpg : (pageKind pg).isSome = true) (w : Who) (off : Nat) (write : Bool) :
    c.regReach w pg off write = errDenied ↔ w = .other ∨ (w = .fabric ∧ c.get GL_REGACC_FAB pgGL ≠ 1) := by
  rw [Chip.regReach_of_mapped hmain hpg]
  split
  case isTrue hdenied => exact iff_of_true rfl hdenied
  case isFalse hadmitted =>
    refine iff_of_false ?_ hadmitted
    split
    · decide
    · exact c.pageCode_ne_errDenied w pg off write

/-- Settles O9: the denials are those of R33, and a command whose access is denied is a refused one. -/
theorem registerSpaceMasters : Obligations.RegisterSpaceMasters := by
  refine ⟨fun i s w pg off hmain hpg hmaster => ?_, fun s w pg off write hmain hpg ⟨hother, hfabric⟩ hden => ?_⟩
  · have hden (write : Bool) : s.chip.regReach w pg off write = errDenied :=
      (Chip.regReach_eq_errDenied_iff hmain hpg w off write).mpr hmaster
    have hrefused (write : Bool) : s.chip.regReach w pg off write ≠ 0 := by
      rw [hden]
      decide
    constructor
    · intro hi
      rw [exec_refused_of_writeTarget hi (hrefused true), hden]
    · intro hi
      rw [exec_refused_of_readTarget hi (hrefused false), hden]
  · obtain hw | ⟨hw, hfab⟩ := (Chip.regReach_eq_errDenied_iff hmain hpg w off write).mp hden
    · exact hother hw
    · exact hfab (hfabric hw)

end Sys2Proof.Machine
end
